-- ==== Sys2Proof/Syntax.lean ====
section
/-! DEFINITION. The commands of the block, one constructor of `Instr` for each row of the table of operations and
events, and the operand types they use. -/

namespace Sys2Proof

/-- A core: its cluster and its place in the cluster. A core executes one share at a time (R208), so a step of a share
program or of an engine is named by the core that makes it; no host command carries one (R5). -/
structure CoreId where
  c : Fin 4
  k : Fin 4
deriving DecidableEq, Repr

/-- Source b of a scalar instruction: a register, or the signed immediate of bits [8:0] (R217). -/
inductive ScalarSrc where
  | reg (r : Fin 16)
  | imm (v : BitVec 9)
deriving DecidableEq, Repr

/-- Where a BARGE instruction takes its descriptor address: the second word, or a scalar register (R217). -/
inductive BargeSrc where
  | word (operand : W32)
  | reg (r : Fin 16)
deriving DecidableEq, Repr

/-- A core and the pass, from 0, of the layer on its array (R115, R117). -/
structure CorePass where
  co : CoreId
  pass : Nat
deriving DecidableEq, Repr

/-- A stack and its temperature, in sixteenths of a degree Celsius (R281). -/
structure StackTemp where
  p : Fin 4
  temp : Int
deriving DecidableEq, Repr

/-- The adapter an adaptation leaves: its loss, and its FP32 weights in groups of 32 positions of a column (R203). -/
structure NewAdapter where
  loss : W32
  weights : List (List W32)
deriving DecidableEq, Repr

/-- The header of a packet as received: its virtual channel, and whether a bit of it was corrected (R286). -/
structure CsiHeader where
  vc : BitVec 4
  corrected : Bool
deriving DecidableEq, Repr

/-- The lane formats of the vector engine (R217, R222). -/
inductive VFmt where
  | fp32 | fp16 | bf16 | int8 | int16 | int32
deriving DecidableEq, Repr

/-- The fields of a two-source vector instruction (R217, class 0x7): destination, sources, format, lane mask applied. -/
structure VArgs where
  vd : Fin 32
  va : Fin 32
  vb : Fin 32
  fmt : VFmt
  masked : Bool
deriving DecidableEq, Repr

/-- Readers of a DRAM line as DRAM_UE names them (R446): 0 barge, 1 page port, 2 host, 3 scrub. -/
inductive DramReader where
  | barge | pagePort | host | scrub
deriving DecidableEq, Repr

/-- A condition of the DSP branch class (R374). -/
inductive DspCond where
  | always | z | nz | n | nn | c | nc | vl | greater | lessEq
deriving DecidableEq, Repr

/-- A count of REP, LOOP or MOVEBLK: an immediate, or a data register (R381, R383, R385). -/
inductive DspCount where
  | imm (n : Nat)
  | reg (r : Fin 16)
deriving DecidableEq, Repr

/-- One operand load of the MAC class: mode 0 to 3 and the pointer (R371, R374). -/
structure MacLoad where
  mode : Fin 4
  ptr : Fin 8
deriving DecidableEq, Repr

/-- The fields of a MAC class instruction (R374): F, accumulator, x and y operand fields, the two optional loads. For the D
forms an operand field names the pair 2k, 2k + 1 with k its low two bits. -/
structure MacArgs where
  f : Bool
  acc : Fin 4
  x : Fin 8
  y : Fin 8
  xload : Option MacLoad
  yload : Option MacLoad
deriving DecidableEq, Repr

/-- Source b of a DSP ALU instruction (R374). -/
inductive DspSrc where
  | reg (r : Fin 16)
  | imm (v : BitVec 9)
deriving DecidableEq, Repr

/-- The fields of a DSP ALU instruction (R374): destination, source a, source b. -/
structure AluArgs where
  rd : Fin 16
  ra : Fin 16
  b : DspSrc
deriving DecidableEq, Repr

/-- An accumulator field (R369). -/
inductive AccField where
  | ext | hi | lo
deriving DecidableEq, Repr

/-- The fields of a DSP load or store (R371, R374): bus (true for Y), register, mode 0 to 7, pointer, immediate. -/
structure LdStArgs where
  busY : Bool
  reg : Fin 16
  mode : Fin 8
  ptr : Fin 8
  imm : BitVec 16
deriving DecidableEq, Repr

/-- The route of a MOVEBLK (R374). -/
inductive MoveRoute where
  | xx | xy | yx | yy
deriving DecidableEq, Repr

/-- A Zorud frame as a port receives it (R481): header fields, payload, whether the payload CRC matches, and whether
the CRC that came is the stomped one. -/
structure ZFrame where
  type : Byte
  dst : Byte
  src : Byte
  ttl : Byte
  id : W16
  seq : W32
  part : W16
  payload : List Byte
  crcOk : Bool
  stomped : Bool
deriving DecidableEq, Repr

/-- How a port's training ended (R478): four lanes, lanes 0 and 1, lanes 2 and 3, or not trained. -/
inductive TrainResult where
  | four | low | high | failed
deriving DecidableEq, Repr

/-- How a self-test ended (R553). -/
inductive TestOutcome where
  | pass | repaired | fenced
deriving DecidableEq, Repr

/-- A unit with SRAM that reports errors (R548, R550): core memory bank, line buffer section, cluster memory row or bank,
DSP memory block. -/
inductive SramUnit where
  | coreMem (co : CoreId)
  | lineBuf (co : CoreId)
  | clusterMem (c : Fin 4)
  | dspMem (d : Fin 4)
deriving DecidableEq, Repr

/-- The agent whose read met an uncorrectable cluster memory row (R548). -/
inductive SramReader where
  | share (co : CoreId)
  | barge (bid : Nat)
  | dspWindow (d : Fin 4)
  | transmitter (tx : Fin 2)
  | none
deriving DecidableEq, Repr

/-- The engines of a core (R549). -/
inductive EngineKind where
  | matrix | stripe | attention | vector
deriving DecidableEq, Repr

/-- Which store of the array an ARRAY_PARITY stop names (R117): 0 active set again, 2 code buffer, 3 accumulator file. -/
inductive ParityStop where
  | activeAgain | codeBuffer | accumulator
deriving DecidableEq, Repr

/-- Why the PCIe function's configuration is reset (R453). -/
inductive HotResetKind where
  | hotReset | linkDown | d3hot
deriving DecidableEq, Repr

/-- A command of the block: one constructor for each row of the table. -/
inductive Instr where
  -- ticks, runs and clip slots
  | controlTick (k : Fin 16)
  | frameGeneratorMatch
  | frameRefEdge (rising : Bool)
  | blankTick (k : Fin 16)
  | tickLost (k : Fin 16)
  | suspendedRunResume (rid : Nat)
  | entryRunStart (rid : Nat)
  | shareRetire (co : CoreId)
  | overrunBudget (rid : Nat)
  | runDeadline (rid : Nat)
  | entryLockWaitTimeout (rid : Nat)
  | droppedRunDeadline (rid : Nat)
  | clipStepEvaluation (c : Fin 4) (slot : Fin 512)
  -- share programs
  | shareNop (co : CoreId)
  | shareEnd (co : CoreId)
  | waite (co : CoreId)
  | mark (co : CoreId) (operand : W32)
  | shareBz (co : CoreId) (r : Fin 16) (off : W16)
  | shareBnz (co : CoreId) (r : Fin 16) (off : W16)
  | shareBlt (co : CoreId) (r : Fin 16) (off : W16)
  | shareBra (co : CoreId) (off : W16)
  | scalarAdd (co : CoreId) (rd ra : Fin 16) (b : ScalarSrc)
  | scalarSub (co : CoreId) (rd ra : Fin 16) (b : ScalarSrc)
  | scalarMul (co : CoreId) (rd ra : Fin 16) (b : ScalarSrc)
  | scalarAnd (co : CoreId) (rd ra : Fin 16) (b : ScalarSrc)
  | scalarOr (co : CoreId) (rd ra : Fin 16) (b : ScalarSrc)
  | scalarXor (co : CoreId) (rd ra : Fin 16) (b : ScalarSrc)
  | scalarShl (co : CoreId) (rd ra : Fin 16) (b : ScalarSrc)
  | scalarLsr (co : CoreId) (rd ra : Fin 16) (b : ScalarSrc)
  | scalarAsr (co : CoreId) (rd ra : Fin 16) (b : ScalarSrc)
  | scalarLdi (co : CoreId) (rd : Fin 16) (imm : W16)
  | scalarLdih (co : CoreId) (rd : Fin 16) (imm : W16)
  | lds (co : CoreId) (r base : Fin 16) (off : BitVec 19)
  | sts (co : CoreId) (r base : Fin 16) (off : BitVec 19)
  | engineExec (co : CoreId) (operand : W32)
  | barge (co : CoreId) (src : BargeSrc)
  | lockw (co : CoreId) (timeout : BitVec 20) (ref : W32)
  | raise (co : CoreId) (ref : W32)
  | lockwTimeout (co : CoreId)
  | crossClusterRaise (c : Fin 4)
  | globalLockRaise
  -- vector engine
  | vecAdd (co : CoreId) (a : VArgs)
  | vecSub (co : CoreId) (a : VArgs)
  | vecMul (co : CoreId) (a : VArgs)
  | vecFma (co : CoreId) (a : VArgs)
  | vecNeg (co : CoreId) (a : VArgs)
  | vecAbs (co : CoreId) (a : VArgs)
  | vecMin (co : CoreId) (a : VArgs)
  | vecMax (co : CoreId) (a : VArgs)
  | vecDiv (co : CoreId) (a : VArgs) (vr : Fin 32)
  | vecRecip (co : CoreId) (a : VArgs)
  | vecSqrt (co : CoreId) (a : VArgs)
  | vecRsqrt (co : CoreId) (a : VArgs)
  | vecExp2 (co : CoreId) (a : VArgs)
  | vecLog2 (co : CoreId) (a : VArgs)
  | vecAdds (co : CoreId) (a : VArgs)
  | vecSubs (co : CoreId) (a : VArgs)
  | vecMuls (co : CoreId) (a : VArgs)
  | vecAnd (co : CoreId) (a : VArgs)
  | vecOr (co : CoreId) (a : VArgs)
  | vecXor (co : CoreId) (a : VArgs)
  | vecNot (co : CoreId) (a : VArgs)
  | vecShl (co : CoreId) (a : VArgs)
  | vecLsr (co : CoreId) (a : VArgs)
  | vecAsr (co : CoreId) (a : VArgs)
  | vecCmpeq (co : CoreId) (a : VArgs)
  | vecCmpne (co : CoreId) (a : VArgs)
  | vecCmplt (co : CoreId) (a : VArgs)
  | vecCmple (co : CoreId) (a : VArgs)
  | vecSel (co : CoreId) (a : VArgs)
  | vecCvt (co : CoreId) (a : VArgs) (dst : VFmt)
  | vecNarrow (co : CoreId) (a : VArgs) (dst : VFmt)
  | vecRsum (co : CoreId) (a : VArgs)
  | vecRmax (co : CoreId) (a : VArgs)
  | vecRmin (co : CoreId) (a : VArgs)
  | vld (co : CoreId) (vd : Fin 32) (count : Nat) (off stride : W32)
  | vst (co : CoreId) (vd : Fin 32) (count : Nat) (off stride : W32)
  -- matrix engine
  | matrixLayer (co : CoreId)
  | activeSetParityError (at_ : CorePass)
  | shadowSetParityError (co : CoreId)
  | arrayParityStop (at_ : CorePass) (set : ParityStop)
  -- stripe engine
  | ingest (co : CoreId)
  | gather (co : CoreId)
  | depthwise (co : CoreId)
  | maxpool (co : CoreId)
  | avgpool (co : CoreId)
  -- attention
  | append (co : CoreId)
  | attend (co : CoreId)
  | attendBwd (co : CoreId)
  -- adaptation
  | dataSetCapture (cargo : Byte)
  | adaptTimeLimit (cargo : Byte)
  | adaptCommit (cargo : Byte) (lossBefore : W32) (new : NewAdapter)
  -- barges
  | bargeStart (bid : Nat)
  | bargeComplete (bid : Nat)
  | bargeWaitTimeout (bid : Nat)
  -- DRAM
  | arbiterWindow (p : Fin 4) (ch : Fin 2) (wantTick wantInteractive wantBackground wantAdapt : Nat) (setAside : Nat) (short : Bool)
  | budgetPeriod
  | bar2Read (addr : Nat) (len : Nat)
  | bar2Write (addr : Nat) (data : List Byte)
  | dramCorrectableError (addr : Nat)
  | dramUe (addr : Nat) (reader : DramReader)
  | rowRangeTestStart (p : Fin 4)
  | rowRangeCopyDone (p : Fin 4)
  | rowRangeTestDone (p : Fin 4) (pass : Bool)
  | rowRangeCopyBackDone (p : Fin 4)
  | patrolScrubLine (p : Fin 4)
  | channelRetrain (stack : StackTemp) (ch : Fin 2)
  | channelRetrainDone (p : Fin 4) (ch : Fin 2)
  | regionZeroFillDone (m : Fin 8)
  -- imaging
  | csiFrameStart (rx : Fin 2) (vc : BitVec 4) (corrected : Bool)
  | csiFrameEnd (rx : Fin 2) (vc : BitVec 4) (corrected : Bool)
  | csiLineMarker (rx : Fin 2) (hdr : CsiHeader)
  | csiEmbeddedData (rx : Fin 2) (hdr : CsiHeader)
  | csiLongPacket (rx : Fin 2) (vc : BitVec 4) (dt : Byte) (corrected crcOk : Bool) (pixels : List W16)
  | generatedRow (rx : Fin 2)
  | heldBandsWrite (rx : Fin 2) (c : Fin 4)
  | rxLockLoss (rx : Fin 2)
  | triggerAssert (m : Fin 2)
  | triggerDeassert (m : Fin 2)
  | outputRowGroupEmission (tx : Fin 2)
  | txRowRead (tx : Fin 2)
  | txStop (tx : Fin 2)
  | i3cTransferStart (n : Fin 2)
  | i3cTransferDone (n : Fin 2) (result : Byte) (done : W16) (data : List Byte)
  | i3cIbi (n : Fin 2) (addr : Byte) (data : List Byte)
  | i3cHotjoin (n : Fin 2)
  | imgRefTimeLoRead
  -- audio ports and clocks
  | apllStrobe (m : Fin 2)
  | zcTimeout (port : Fin 5)
  | wclkEdge (m : Fin 2)
  | apllRefLost (m : Fin 2)
  | tdmFsEdge (n : Fin 4)
  | tdmSlotReceived (n : Fin 4) (slot : Fin 32) (word : W32)
  | tdmOutputSlotDue (n : Fin 4) (slot : Fin 32)
  | tdmClockLost (n : Fin 4)
  | pdmFrame (samples : List (BitVec 24))
  | replaySlotWrite (stage : Fin 2)
  | cascadeCreditTimeout (stage : Fin 2)
  | cascadeSessionLimit (stage : Fin 2)
  | vauxRampDone
  | pdmClockStart
  | vauxOvercurrent
  | vauxFaultClear
  -- audio DSPs
  | interruptEntry (d : Fin 4)
  | dspTaskOverrun (d : Fin 4) (task : Fin 16)
  | dspNop (d : Fin 4)
  | rti (d : Fin 4)
  | swi (d : Fin 4) (level : BitVec 3)
  | waiti (d : Fin 4)
  | dspBra (d : Fin 4) (cond : DspCond) (off : W16)
  | bsr (d : Fin 4) (cond : DspCond) (off : W16)
  | jmp (d : Fin 4) (cond : DspCond) (addr : BitVec 15)
  | rts (d : Fin 4) (cond : DspCond)
  | rep (d : Fin 4) (count : DspCount)
  | loop (d : Fin 4) (len : Nat) (count : DspCount)
  | mpy (d : Fin 4) (a : MacArgs)
  | mac (d : Fin 4) (a : MacArgs)
  | msu (d : Fin 4) (a : MacArgs)
  | mpyd (d : Fin 4) (a : MacArgs)
  | macd (d : Fin 4) (a : MacArgs)
  | msud (d : Fin 4) (a : MacArgs)
  | dspAdd (d : Fin 4) (a : AluArgs)
  | dspAdds (d : Fin 4) (a : AluArgs)
  | dspSub (d : Fin 4) (a : AluArgs)
  | dspSubs (d : Fin 4) (a : AluArgs)
  | dspCmp (d : Fin 4) (a : AluArgs)
  | dspNeg (d : Fin 4) (a : AluArgs)
  | dspAbs (d : Fin 4) (a : AluArgs)
  | dspMin (d : Fin 4) (a : AluArgs)
  | dspMax (d : Fin 4) (a : AluArgs)
  | dspMul (d : Fin 4) (a : AluArgs)
  | dspAnd (d : Fin 4) (a : AluArgs)
  | dspOr (d : Fin 4) (a : AluArgs)
  | dspXor (d : Fin 4) (a : AluArgs)
  | dspNot (d : Fin 4) (a : AluArgs)
  | dspShl (d : Fin 4) (a : AluArgs)
  | dspLsr (d : Fin 4) (a : AluArgs)
  | dspAsr (d : Fin 4) (a : AluArgs)
  | divinit (d : Fin 4) (acc : Fin 4) (a : AluArgs)
  | divs (d : Fin 4) (acc : Fin 4) (a : AluArgs)
  | divend (d : Fin 4) (acc : Fin 4)
  | clr (d : Fin 4) (acc : Fin 4)
  | mova (d : Fin 4) (acc : Fin 4) (field : AccField) (toReg : Bool) (reg : Fin 16)
  | lda (d : Fin 4) (acc : Fin 4) (reg : Fin 16) (sh : Nat)
  | dspNarrow (d : Fin 4) (acc : Fin 4) (reg : Fin 16) (sh : Nat)
  | adda (d : Fin 4) (acc acc2 : Fin 4)
  | asra (d : Fin 4) (acc : Fin 4) (sh : Nat)
  | dspLd (d : Fin 4) (a : LdStArgs)
  | dspSt (d : Fin 4) (a : LdStArgs)
  | dspLdi (d : Fin 4) (reg : Fin 16) (high : Bool) (imm : W16)
  | moveblk (d : Fin 4) (route : MoveRoute) (src dst : Fin 8) (count : DspCount)
  | movc (d : Fin 4) (fromCtl : Bool) (num : BitVec 6) (reg : Fin 16)
  | pmod (d : Fin 4) (ptr : Fin 8) (n : W16)
  | lraise (d : Fin 4) (reg : Fin 16)
  -- mailboxes
  | mailboxPost (m : Fin 8)
  | mailboxWithdraw (m : Fin 8)
  | mailboxTake
  | sysInfoSupervisorReply (m : Fin 8)
  | cfgTransactionAbandon
  -- Exade commands: each executes the command that mailbox m holds taken
  | sysInfo (m : Fin 8)
  | cfgBegin (m : Fin 8)
  | cfgSet (m : Fin 8)
  | cfgCommit (m : Fin 8)
  | cfgAbort (m : Fin 8)
  | cfgGet (m : Fin 8)
  | cargoLoad (m : Fin 8)
  | cargoUnload (m : Fin 8)
  | cargoInfo (m : Fin 8)
  | cargoCeiling (m : Fin 8)
  | runStart (m : Fin 8)
  | runStop (m : Fin 8)
  | runStage (m : Fin 8)
  | runRestore (m : Fin 8)
  | runInfo (m : Fin 8)
  | contextCreate (m : Fin 8)
  | contextDestroy (m : Fin 8)
  | regionAlloc (m : Fin 8)
  | regionFree (m : Fin 8)
  | regionSetRetain (m : Fin 8)
  | regionClearRetain (m : Fin 8)
  | regionClearStale (m : Fin 8)
  | regionInfo (m : Fin 8)
  | ringCreate (m : Fin 8)
  | ringDestroy (m : Fin 8)
  | quotaSet (m : Fin 8)
  | quotaInfo (m : Fin 8)
  | imgI3cXfer (m : Fin 8)
  | audPortStart (m : Fin 8)
  | audPortStop (m : Fin 8)
  | audPortRestart (m : Fin 8)
  | audChanSet (m : Fin 8)
  | linkUp (m : Fin 8)
  | linkIndex (m : Fin 8)
  | linkRouteRoutes (m : Fin 8)
  | linkRouteTxStream (m : Fin 8)
  | linkRouteRxStream (m : Fin 8)
  | linkRouteClearStreams (m : Fin 8)
  | linkInfoPorts (m : Fin 8)
  | linkInfoProbe (m : Fin 8)
  | timeSync (m : Fin 8)
  | timeInfo (m : Fin 8)
  | pwrMode (m : Fin 8)
  | pwrInfo (m : Fin 8)
  | healthSelftest (m : Fin 8)
  | healthResetPartition (m : Fin 8)
  | healthLogSummary (m : Fin 8)
  | healthLogLines (m : Fin 8)
  | fwLoadBegin (m : Fin 8)
  | fwLoadData (m : Fin 8)
  | fwLoadFinish (m : Fin 8)
  | fwLoadAbort (m : Fin 8)
  | fwConfirm (m : Fin 8)
  | fwRevert (m : Fin 8)
  | fwInfo (m : Fin 8)
  | settingsSave (m : Fin 8)
  | dspLoad (m : Fin 8)
  | dspStart (m : Fin 8)
  | dspStop (m : Fin 8)
  | dspInfo (m : Fin 8)
  | adaptStart (m : Fin 8)
  | adaptAbort (m : Fin 8)
  | adaptInfo (m : Fin 8)
  -- queue manager, PCIe and registers
  | qmDbHostWrite (r : Fin 512) (value : W32)
  | qmDbArmWrite (r : Fin 512) (value : W32)
  | hostBargeEntry (r : Fin 512)
  | bufferEntry (r : Fin 512)
  | hostReadTimeout (r : Fin 512)
  | pcieHotReset (kind : HotResetKind)
  | pcieLinkWake
  | glbElwSelWrite (value : W32)
  | glbWakeWrite (value : W32)
  | glbIntEoiWrite (value : W32)
  | glbSystimeLoRead
  | msixVectorUnmask (v : Fin 64)
  | registerWrite (off : Nat) (data : List Byte)
  -- status port publication
  | stateGroupPublish
  | heartbeatPeriod
  | healthGroupPublish
  | firmwareHeartbeat
  | firmwareRestartDone (agree : Bool)
  -- Zorud link
  | linkPortDown (p : Fin 4)
  | portRetrain (p : Fin 4) (result : TrainResult)
  | crcStorm (p : Fin 4)
  | headerCrcDiscard (p : Fin 4)
  | transitFrame (p : Fin 4) (fr : ZFrame)
  | outputWaitDiscard (p : Fin 4) (prio : Bool)
  | dataFrame (p : Fin 4) (fr : ZFrame)
  | raiseFrame (p : Fin 4) (fr : ZFrame)
  | streamFrame (p : Fin 4) (fr : ZFrame)
  | ctrlFrame (p : Fin 4) (fr : ZFrame)
  | ctrlAckFrame (p : Fin 4) (fr : ZFrame)
  | helloFrame (p : Fin 4) (fr : ZFrame)
  | timeReqFrame (p : Fin 4) (fr : ZFrame) (stamp16 : Nat)
  | timeRespFrame (p : Fin 4) (fr : ZFrame) (stamp16 : Nat)
  | helloSend (p : Fin 4)
  | helloAgeOut (p : Fin 4)
  | trackerTimeout (src : Byte) (id : W16)
  | streamUnitDue (r : Fin 16)
  | streamStall (r : Fin 16)
  | ctrlResend (id : W16)
  | timeReqSend (stamp16 : Nat)
  | timeResponseTimeout
  -- power and thermal
  | reachPowerDown (r : Fin 10)
  | reachPowerUp (r : Fin 10)
  | thermalSample (tj : W16)
  -- faults, tests and resets
  | sramUe (unit : SramUnit) (off : W32) (reader : SramReader)
  | sramCeLimit (unit : SramUnit) (bank : Byte)
  | engineTimeout (co : CoreId) (engine : EngineKind)
  | keeperStateError (c : Fin 4)
  | stagingUe
  | selftestDone (tid : Nat) (outcome : TestOutcome) (us : W32)
  | partitionLogbook (p : Fin 4)
  | partitionHwResetDone (p : Fin 4)
  | partitionReturn (p : Fin 4)
  | logCoalesced
  -- supply, boot
  | vinRise
  | vinFall
  | vinOvervoltage
  | perstLAssert
  | perstLRelease
  | bootRomRun
  | firmwareStart
  | fwLoadTimeout
  -- trace and debug
  | traceSyncPeriod (r : Fin 10)
  | traceLostWrite (r : Fin 10)
  | trcCtrlClear
  | trcCntSnap
  | trcCntClear
  | trcClipSelWrite (value : W32)
  | trcLwSelWrite (w : Fin 8) (value : W32)
  | jtagTestLogicReset
  | extest (cells : List Bool)
  | samplePreload (cells : List Bool)
  | clamp
  | highz
  | jtagBypass
  | dbgAddr (value : W32)
  | dbgDataCapture
  | dbgDataUpdate
  -- rows of the table's end
  | towpathUp
  | holdUpChargeSpent
  | vinOvervoltageClear
  | linkTrainingDone (r0 r1 r2 r3 : TrainResult)
  | zorudCreditReturn (p : Fin 4) (prio : Bool) (units : Nat)
  | headerUncorrectableError (rx : Fin 2) (carriedRow : Bool)
  | pmeTurnOffMessage
  | busMasterEnableWrite (value : Bool)
  | escalationWindowExpiry
deriving DecidableEq, Repr

end Sys2Proof
end

