-- ==== Sys2Proof/Decode.lean ====
section
/-! DEFINITION. The words of the table's rows. The table gives no row bits (every row's "fields" is empty), so no word
spells a command. -/

namespace Sys2Proof

/-- The command a table word spells: none, since the table gives no row a word. -/
def decodeTableWord (_nbits _w : Nat) : Option Instr := none

end Sys2Proof
end

