-- ==== Sys2Proof/Config.lean ====
section
/-! DEFINITION. What the spec leaves open: the free values (opaque constants, no body) and the functions the spec
names without giving them. Nothing in Lean can evaluate one of them or prove a value of it. -/

namespace Sys2Proof.Config

/-- The content of a byte that a rule calls undefined (R212, R134, R261): by the epoch in which it became undefined and
its address. Log entry 8. -/
opaque freeByte : Nat → Nat → Byte

/-- A free word, by the count of free values drawn so far (log entry 2). -/
opaque freeNat : Nat → Nat

/-- SHA-384 of a byte string (R585); the spec names the function and does not give it. Log entry 9. -/
opaque sha384 : List Byte → List Byte

/-- Whether a signature over a digest verifies under the key of the boot ROM (R585). Log entry 9. -/
opaque signatureOk : List Byte → List Byte → Bool

/-- The stepping of the silicon (R450, R464 GLB_ID). Log entry 10. -/
opaque stepping : Byte

/-- The quantity of PWR_POWER and its like, measured by the device (R547); by the count of free values. Log entry 2. -/
opaque freePower : Nat → Nat

/-- The unit code of a SELFTEST event for a unit that the SRAM_UE codes do not list (R578): 0 array, 1 engine, 2 Zorud port.
Log entry 31. -/
opaque unitCode : Nat → Byte

/-- The instance byte of a SELFTEST event for a unit of a core (R3, R578), by the number of the test. Log entry 152. -/
opaque testInstance : Nat → Byte

/-- Whether an operation code of the vector class is VLD or VST (R217): the spec gives the class no table of operation codes.
Log entry 59. -/
opaque vectorMemory : Nat → Bool

/-- The place, in the list R374 gives a class of DSP instructions, of the operation that an operation code names: by class and
code. The spec gives no numbers. Log entry 62. -/
opaque dspOperation : Nat → Nat → Nat

/-- Whether the share of an index can issue the EXEC at a pc of a program (R191): firmware's judgement at CARGO_LOAD, which the
spec does not give. Log entry 79. -/
opaque shareIssues : List Byte → Nat → Nat → Bool

/-- Settings records of an older schema converted to a newer one (R593): firmware's conversion, which the spec does not give. By
old schema, new schema and records. Log entry 108. -/
opaque migrate : Nat → Nat → List Byte → List Byte

end Sys2Proof.Config
end

