-- ==== Sys2Proof/Machine/Mem.lean ====
section
/-! DEFINITION. Sparse byte memory in one canonical form, with its reads and writes, and little-endian fields. -/

namespace Sys2Proof.Machine

/-- A range whose unlisted bytes do not read as zero: `epoch` numbers the event that left them undefined; `none` is a
range zeroed again since. The first range of the list that holds an address decides. -/
structure Bg where
  lo : Nat
  len : Nat
  epoch : Option Nat
deriving DecidableEq, Repr

/-- A memory: listed cells in strictly rising address order, none of them a zero where an unlisted byte reads as zero. -/
structure Mem where
  cells : List Host.Cell
  bg : List Bg
deriving DecidableEq, Repr

/-- Memory with nothing listed. -/
def Mem.empty : Mem := ⟨[], []⟩

/-- The epoch that left address `a` undefined, if it is undefined while unlisted. -/
def Mem.epochAt : List Bg → Nat → Option Nat
  | [], _ => none
  | b :: t, a => if b.lo ≤ a ∧ a < b.lo + b.len then b.epoch else Mem.epochAt t a

/-- What an unlisted address reads as. -/
def Mem.unlisted (m : Mem) (a : Nat) : Byte :=
  match Mem.epochAt m.bg a with
  | none => 0
  | some k => Config.freeByte k a

/-- The listed byte at an address. -/
def Mem.find : List Host.Cell → Nat → Option Byte
  | [], _ => none
  | (b, v) :: t, a => if a = b then some v else Mem.find t a

/-- The byte at an address. -/
def Mem.read (m : Mem) (a : Nat) : Byte := (Mem.find m.cells a).getD (m.unlisted a)

/-- Insert a cell in address order, replacing one of the same address. -/
def Mem.insert : List Host.Cell → Nat → Byte → List Host.Cell
  | [], a, v => [(a, v)]
  | (b, w) :: t, a, v =>
    if a < b then (a, v) :: (b, w) :: t else if a = b then (a, v) :: t else (b, w) :: Mem.insert t a v

/-- Remove the cell of an address. -/
def Mem.erase (l : List Host.Cell) (a : Nat) : List Host.Cell := l.filter (fun c => c.1 ≠ a)

/-- Write one byte, keeping the canonical form. -/
def Mem.write (m : Mem) (a : Nat) (v : Byte) : Mem :=
  if v = 0 ∧ Mem.epochAt m.bg a = none then { m with cells := Mem.erase m.cells a }
  else { m with cells := Mem.insert m.cells a v }

/-- Write bytes upward from an address. -/
def Mem.writeBytes (m : Mem) (a : Nat) : List Byte → Mem
  | [] => m
  | v :: t => Mem.writeBytes (m.write a v) (a + 1) t

/-- The `n` bytes upward from an address. -/
def Mem.readBytes (m : Mem) (a n : Nat) : List Byte := (List.range n).map (fun i => m.read (a + i))

/-- Whether an address lies in `lo` to `lo + len - 1`. -/
def inRange (lo len a : Nat) : Bool := decide (lo ≤ a ∧ a < lo + len)

/-- Every byte of a range becomes zero. -/
def Mem.zero (m : Mem) (lo len : Nat) : Mem :=
  let keep := m.bg.filter (fun b => ¬ (lo ≤ b.lo ∧ b.lo + b.len ≤ lo + len))
  { cells := m.cells.filter (fun c => ! inRange lo len c.1),
    bg := if keep.any (fun b => decide (b.lo < lo + len ∧ lo < b.lo + b.len)) then ⟨lo, len, none⟩ :: keep else keep }

/-- Every byte of a range becomes undefined, of epoch `k`. -/
def Mem.junk (m : Mem) (lo len k : Nat) : Mem :=
  { cells := m.cells.filter (fun c => ! inRange lo len c.1),
    bg := ⟨lo, len, some k⟩ :: m.bg.filter (fun b => ¬ (lo ≤ b.lo ∧ b.lo + b.len ≤ lo + len)) }

/-- A range cut to `lo` to `lo + len - 1`. -/
def Bg.clip (lo len : Nat) (b : Bg) : Bg := ⟨max b.lo lo, min (b.lo + b.len) (lo + len) - max b.lo lo, b.epoch⟩

/-- Every byte of a range becomes what it is in another memory, undefined bytes as they are there. -/
def Mem.copyFrom (m src : Mem) (lo len : Nat) : Mem :=
  { cells := (src.cells.filter (fun c => inRange lo len c.1)).foldl (fun l c => Mem.insert l c.1 c.2)
      (m.cells.filter (fun c => ! inRange lo len c.1)),
    bg := src.bg.map (Bg.clip lo len) ++ ⟨lo, len, none⟩ :: m.bg }

/-- The canonical form: addresses strictly rising, and no listed zero where an unlisted byte reads as zero. -/
def Mem.wf (m : Mem) : Bool :=
  decide (m.cells.Pairwise (fun c d => c.1 < d.1)) &&
    m.cells.all (fun c => decide (¬ (c.2 = 0 ∧ Mem.epochAt m.bg c.1 = none)))

/-- The value of bytes, the first the least significant. -/
def leVal : List Byte → Nat
  | [] => 0
  | b :: t => b.toNat + 256 * leVal t

/-- The `n` low bytes of a value, the least significant first. -/
def leBytes : Nat → Nat → List Byte
  | 0, _ => []
  | n + 1, v => BitVec.ofNat 8 v :: leBytes n (v / 256)

/-- The little-endian field of `n` bytes at offset `off` of a byte string; bytes beyond its end count as zero. -/
def field (l : List Byte) (off n : Nat) : Nat := leVal ((l.drop off).take n)

/-- The little-endian value of `n` bytes at an address. -/
def Mem.le (m : Mem) (a n : Nat) : Nat := leVal (m.readBytes a n)

/-- Write the low `n` bytes of a value, little-endian. -/
def Mem.putLe (m : Mem) (a n v : Nat) : Mem := m.writeBytes a (leBytes n v)

/-- Bits `lo` to `lo + len - 1` of a number. -/
def bits (v lo len : Nat) : Nat := v / 2 ^ lo % 2 ^ len

/-- One bit of a number. -/
def bit (v i : Nat) : Bool := v / 2 ^ i % 2 == 1

/-- The two's complement value of an `n`-bit field. -/
def sgn (n v : Nat) : Int := if v % 2 ^ n < 2 ^ (n - 1) then (v % 2 ^ n : Nat) else (v % 2 ^ n : Nat) - (2 ^ n : Nat)

/-- The low `n` bits of an integer as a number. -/
def wrapN (n : Nat) (v : Int) : Nat := (v % (2 ^ n : Nat)).toNat

/-- 0 or 1. -/
def b2n (b : Bool) : Nat := if b then 1 else 0

/-- Pad or cut a byte string to `n` bytes. -/
def padTo (n : Nat) (l : List Byte) : List Byte := (l ++ List.replicate (n - l.length) 0).take n

/-- `n` zero bytes. -/
def zeros (n : Nat) : List Byte := List.replicate n 0

/-- Replace the element at an index of a list; an index beyond the end changes nothing. -/
def setAt {α : Type} : List α → Nat → α → List α
  | [], _, _ => []
  | _ :: t, 0, y => y :: t
  | x :: t, n + 1, y => x :: setAt t n y

/-- Apply a function at an index of a list. -/
def modAt {α : Type} (f : α → α) : List α → Nat → List α
  | [], _ => []
  | x :: t, 0 => f x :: t
  | x :: t, n + 1 => x :: modAt f t n

/-- The value under a key of an association list. -/
def assoc {α β : Type} [DecidableEq α] : List (α × β) → α → Option β
  | [], _ => none
  | (k, v) :: t, x => if x = k then some v else assoc t x

/-- Put a value under a key: replaced in place, or added at the end. -/
def assocSet {α β : Type} [DecidableEq α] : List (α × β) → α → β → List (α × β)
  | [], x, y => [(x, y)]
  | (k, v) :: t, x, y => if x = k then (k, y) :: t else (k, v) :: assocSet t x y

/-- Remove a key. -/
def assocDel {α β : Type} [DecidableEq α] (l : List (α × β)) (x : α) : List (α × β) := l.filter (fun e => e.1 ≠ x)

/-- An element of a fixed group, replaced. -/
def vset {α : Type} {n : Nat} (v : Vector α n) (i : Fin n) (x : α) : Vector α n := v.set i.val x i.isLt

/-- A function applied to one element of a fixed group. -/
def vmod {α : Type} {n : Nat} (v : Vector α n) (i : Fin n) (f : α → α) : Vector α n := vset v i (f v[i])

end Sys2Proof.Machine
end

