-- ==== Sys2Proof/Machine/AudState.lean ====
section
/-! DEFINITION. The state of audio clocks, ports, PDM inputs and VAUX (chapter 9). -/

namespace Sys2Proof.Machine

/-- An APLL (R323 to R329): its keys in force since its start, steering, loop state, error sum and errors of the update in
progress, strobes since it started; strobes and WCLK edges not yet paired (R324), the last edge; while it drives WCLKm, the SYSTIME
of its last rise there (R326); `align`: its first strobe waits for a PDM frame boundary (R356). -/
structure Apll where
  started : Bool
  fs : Nat
  mode : Nat
  port : Fin 4
  block : Nat
  phase : Nat
  wclkOut : Bool
  w : Int
  integ : Int
  good : Nat
  clampRun : Nat
  locked : Bool
  clamped : Bool
  refLost : Bool
  errSum : Int
  errN : Nat
  strobes : Nat
  unpaired : List Nat
  edges : List Nat
  lastEdge : Nat
  wclkRise : Option Nat
  align : Bool
deriving DecidableEq, Repr

def Apll.reset : Apll :=
  { started := false, fs := 48000, mode := 0, port := 0, block := 24, phase := 0, wclkOut := false, w := 0, integ := 0,
    good := 0, clampRun := 0, locked := false, clamped := false, refLost := false, errSum := 0, errN := 0, strobes := 0,
    unpaired := [], edges := [], lastEdge := 0, wclkRise := none, align := false }

/-- A port's keys in force since its start (R358); `fs`: of the PDM group, its sample rate. -/
structure PortCfg where
  apll : Nat
  slave : Bool
  frameBits : Nat
  slots : Nat
  width : Nat
  dataBits : Nat
  hiz : Bool
  inMask : Nat
  outMask : Nat
  elem32 : Bool
  block : Nat
  fs : Nat
  inRing : Nat
  outRing : Nat
  inK : Nat
  outK : Nat
  outTick : Nat
  outEntry : Nat
  bypass : List Byte
  zcTimeout : Nat
  pcie : Nat
deriving DecidableEq, Repr

def PortCfg.reset : PortCfg :=
  { apll := 0, slave := false, frameBits := 256, slots := 8, width := 32, dataBits := 24, hiz := false, inMask := 0,
    outMask := 0, elem32 := true, block := 24, fs := 48000, inRing := 0, outRing := 0, inK := 4, outK := 4, outTick := 0, outEntry := 0,
    bypass := List.replicate 32 0xE0, zcTimeout := 100, pcie := 0 }

/-- A gain or mute change waiting for its zero crossing (R353): element position, gain, mute, SYSTIME of the timeout. -/
structure ZcPend where
  out : Bool
  pos : Nat
  gain : Nat
  mute : Bool
  deadline : Nat
  forced : Bool
deriving DecidableEq, Repr

/-- What a direction's block header gathers while the block is open (R337). -/
structure BlkAcc where
  seq : W32
  frame : Nat
  stamp : Nat
  flags : W16
  slips : Nat
  zcApplied : W32
  zcForced : W32
  fill : Nat
  evSent : Bool
  samples : List Byte
deriving DecidableEq, Repr

def BlkAcc.reset : BlkAcc := ⟨0, 0, 0, 0, 0, 0, 0, 0, false, []⟩

/-- An output block to emit (R343): the input block's seq it answers, the strobe count at which its emission begins, the
tick count whose runs its overrun word covers. -/
structure OutBlk where
  seq : W32
  start : Nat
  tick : Nat
deriving DecidableEq, Repr

/-- How an output block is emitted (R344): from its slot, from the bypass map as bypassed or as substituted. -/
inductive EmitMode where
  | ready | bypass | subst
deriving DecidableEq, Repr

/-- An audio port (0 to 3 TDM, 4 the PDM group). `restart`: 0 none, 1 waits for its block boundary, 2 for an FS edge, 3
filling (R347); `silent`: it writes zero frames until that boundary, as after a lost clock (R351); `startAfter`: SYSTIME after
which a port being started starts (R341); `stopping` (R434); buffers oldest first, input words with the SYSTIME of the FS edge
of their frame, of a master the last word of each element; gains and mutes per element position; `prevIn`, `prevOut`: the last
sample of each position; `outs`: blocks to emit; `emit`: the block in emission with its mode and next frame; `done`: output
seqs a completed run left ready, and bypassed ones; `lastOut`: what DO last carried in each slot, none for high impedance (R332);
`lastFs`: the last FS edge. -/
structure Port where
  cfg : PortCfg
  running : Bool
  restart : Nat
  silent : Bool
  startAfter : Option Nat
  stopping : Bool
  noClock : Bool
  inBuf : List (W32 × Nat)
  outBuf : List W32
  sIn : Nat
  sOut : Nat
  inSlips : Byte
  outSlips : Byte
  err : BitVec 7
  lastSeq : W32
  seq : W32
  inBlk : BlkAcc
  gainIn : List Nat
  gainOut : List Nat
  muteIn : List Bool
  muteOut : List Bool
  pend : List ZcPend
  prevIn : List (Option Int)
  prevOut : List (Option Int)
  outs : List OutBlk
  emit : Option (OutBlk × EmitMode × Nat)
  outBlk : BlkAcc
  done : List W32
  bypassed : List W32
  lastOut : List (Option W32)
  lastFs : Nat
deriving DecidableEq, Repr

def Port.reset : Port :=
  { cfg := PortCfg.reset, running := false, restart := 0, silent := false, startAfter := none, stopping := false,
    noClock := false, inBuf := [], outBuf := [], sIn := 0, sOut := 0, inSlips := 0, outSlips := 0, err := 0, lastSeq := 0,
    seq := 0, inBlk := BlkAcc.reset, gainIn := List.replicate 32 0, gainOut := List.replicate 32 0,
    muteIn := List.replicate 32 false, muteOut := List.replicate 32 false, pend := [],
    prevIn := List.replicate 32 none, prevOut := List.replicate 32 none, outs := [], emit := none, outBlk := BlkAcc.reset,
    done := [], bypassed := [], lastOut := List.replicate 32 none, lastFs := 0 }

/-- VAUX (R357): on, ramping since, clocks due, fault. -/
structure Vaux where
  enabled : Bool
  ramping : Bool
  on : Bool
  fault : Bool
  rampDone : Option Nat
deriving DecidableEq, Repr

/-- The audio subsystem: APLLs, ports, VAUX, PDM clocks running and the w they track (R356), the SYSTIME of the last PDM frame
boundary. -/
structure Aud where
  apll : Vector Apll 2
  port : Vector Port 5
  vaux : Vaux
  pdmClk : Bool
  pdmW : Int
  pdmTracking : Bool
  pdmAt : Option Nat
deriving DecidableEq, Repr

def Aud.reset : Aud :=
  { apll := Vector.replicate 2 Apll.reset, port := Vector.replicate 5 Port.reset,
    vaux := ⟨false, false, false, false, none⟩, pdmClk := false, pdmW := 0, pdmTracking := false, pdmAt := none }

end Sys2Proof.Machine
end

