-- ==== Sys2Proof/Machine/CfgKeys.lean ====
section
/-! DEFINITION. The configuration keys: names, defaults, ranges (R290, R358, R415, R269, R539, R578), and sets of values. -/

namespace Sys2Proof.Machine

/-- The keys IMG_RXn_… (R290). -/
inductive RxKey where
  | phy | lanes | rate | scramble | vc | dt | width | height | lines | linePs | cfa | layout | out | shift | tables | band | selvL | selvR | slots | slotAddr | histAddr
deriving DecidableEq, Repr

/-- The keys IMG_TXn_… (R290). -/
inductive TxKey where
  | src | phy | lanes | rate | vc | dt | width | band | group | entry | slotAddr | pcie
deriving DecidableEq, Repr

/-- The keys IMG_TRIGn_… (R290). -/
inductive TrigKey where
  | mode | offset | width
deriving DecidableEq, Repr

/-- The keys IMG_I3Cn_… (R290). -/
inductive I3cKey where
  | sdr | i2c
deriving DecidableEq, Repr

/-- The keys AUD_APLLn_… (R358). -/
inductive ApllKey where
  | fs | mode | port | block | kp | ki | rangePpm | phase | wclkOut
deriving DecidableEq, Repr

/-- The keys AUD_TDMn_… (R358). -/
inductive TdmKey where
  | apll | role | frameBits | slots | width | dataBits | offset | fsMode | bclkInv | hiz | inMask | outMask | elem | block | inRing | outRing | inK | outK | outTick | outEntry | bypass | zcTimeout | pcie
deriving DecidableEq, Repr

/-- The keys TICKn_… (R413). -/
inductive TickKey where
  | kind | bind | count | period | phase
deriving DecidableEq, Repr

/-- The keys CASCADE_Sn_… (R539). -/
inductive StageKey where
  | cluster | replay | depth | dataLock | creditLock | limit
deriving DecidableEq, Repr

/-- The keys AUD_PDM_… (R358). -/
inductive PdmKey where
  | fs | apll | mask | elem | block | ring | depth | zcTimeout
deriving DecidableEq, Repr

/-- A configuration key. `rxBlack n p` is IMG_RXn_BLACK_p; `resEntry` and `resAddr` are the AF, AE and SCENE keys in this
order; `cascRec i` is CASCADE_S(i+1)_REC and `stage i` the keys of stage i + 2. -/
inductive Key where
  | rx (n : Fin 2) (k : RxKey)
  | tx (n : Fin 2) (k : TxKey)
  | trig (n : Fin 2) (k : TrigKey)
  | i3c (n : Fin 2) (k : I3cKey)
  | apll (n : Fin 2) (k : ApllKey)
  | tdm (n : Fin 4) (k : TdmKey)
  | tick (n : Fin 16) (k : TickKey)
  | stage (n : Fin 2) (k : StageKey)
  | rxBlack (n : Fin 2) (p : Fin 4)
  | pdm (k : PdmKey)
  | cascTrackSrc (n : Fin 4)
  | cascRec (n : Fin 3)
  | resEntry (n : Fin 3)
  | resAddr (n : Fin 3)
  | imgFrameSrc
  | imgGenPeriod
  | imgGenPhase
  | audVauxEn
  | audAlign
  | runTimetable
  | memTick
  | memInteractive
  | memBackground
  | memAdapt
  | memScrubHours
  | memCeLimit
  | cascTracks
  | cascDspTrack
  | cascDspK
  | cascAutoWatch
  | healthEscResets
  | healthEscWindow
  | healthHbPeriod
  | healthHbMisses
  | healthCeLimit
deriving DecidableEq, Repr

/-- The bytes of an ASCII string. -/
def str (s : String) : List Byte := s.toList.map (fun c => BitVec.ofNat 8 c.toNat)

/-- The decimal digits of a number below 100. -/
def dec (n : Nat) : List Byte :=
  if n < 10 then [BitVec.ofNat 8 (48 + n)] else [BitVec.ofNat 8 (48 + n / 10), BitVec.ofNat 8 (48 + n % 10)]

/-- Name, default and range of each key of the group. -/
def RxKey.name : RxKey → String
  | .phy => "PHY"
  | .lanes => "LANES"
  | .rate => "RATE"
  | .scramble => "SCRAMBLE"
  | .vc => "VC"
  | .dt => "DT"
  | .width => "WIDTH"
  | .height => "HEIGHT"
  | .lines => "LINES"
  | .linePs => "LINE_PS"
  | .cfa => "CFA"
  | .layout => "LAYOUT"
  | .out => "OUT"
  | .shift => "SHIFT"
  | .tables => "TABLES"
  | .band => "BAND"
  | .selvL => "SELV_L"
  | .selvR => "SELV_R"
  | .slots => "SLOTS"
  | .slotAddr => "SLOT_ADDR"
  | .histAddr => "HIST_ADDR"

/-- Its default. -/
def RxKey.dflt : RxKey → Nat
  | .phy => 0
  | .lanes => 4
  | .rate => 2500
  | .scramble => 0
  | .vc => 0
  | .dt => 0x2C
  | .width => 8192
  | .height => 4320
  | .lines => 4500
  | .linePs => 3703704
  | .cfa => 0
  | .layout => 0
  | .out => 0
  | .shift => 12
  | .tables => 0
  | .band => 0
  | .selvL => 8
  | .selvR => 8
  | .slots => 2
  | .slotAddr => 0
  | .histAddr => 0

/-- Whether a value lies in its range, taken with any value of the keys it depends on (R415). -/
def RxKey.inRange (v : Nat) : RxKey → Bool
  | .phy => decide (v ≤ 2)
  | .lanes => decide (v ∈ [1, 2, 3, 4, 8])
  | .rate => decide (160 ≤ v ∧ v ≤ 6000)
  | .scramble => decide (v ≤ 1)
  | .vc => decide (v ≤ 15)
  | .dt => decide (43 ≤ v ∧ v ≤ 46)
  | .width => decide (128 ≤ v ∧ v ≤ 8192 ∧ v % 2 = 0)
  | .height => decide (16 ≤ v ∧ v ≤ 8192 ∧ v % 2 = 0)
  | .lines => decide (18 ≤ v ∧ v ≤ 65535)
  | .linePs => decide (500000 ≤ v ∧ v ≤ 100000000)
  | .cfa => decide (v ≤ 4)
  | .layout => decide (v ≤ 1)
  | .out => decide (v ≤ 1)
  | .shift => decide (v ≤ 14)
  | .tables => decide (v % 64 = 0 ∧ v < 2 ^ 64)
  | .band => decide (v = 0 ∨ (64 ≤ v ∧ v ≤ 512 ∧ v % 8 = 0))
  | .selvL => decide (v ≤ 32)
  | .selvR => decide (v ≤ 32)
  | .slots => decide (2 ≤ v ∧ v ≤ 4)
  | .slotAddr => decide (v % 64 = 0 ∧ v < 0x1000000)
  | .histAddr => decide (v % 64 = 0 ∧ v < 0x4000000)

/-- All keys of the group. -/
def RxKey.all : List RxKey :=
  [.phy, .lanes, .rate, .scramble, .vc, .dt, .width, .height, .lines, .linePs, .cfa, .layout, .out, .shift,
   .tables, .band, .selvL, .selvR, .slots, .slotAddr, .histAddr]

/-- Name, default and range of each key of the group. -/
def TxKey.name : TxKey → String
  | .src => "SRC"
  | .phy => "PHY"
  | .lanes => "LANES"
  | .rate => "RATE"
  | .vc => "VC"
  | .dt => "DT"
  | .width => "WIDTH"
  | .band => "BAND"
  | .group => "GROUP"
  | .entry => "ENTRY"
  | .slotAddr => "SLOT_ADDR"
  | .pcie => "PCIE"

/-- Its default. -/
def TxKey.dflt : TxKey → Nat
  | .src => 0
  | .phy => 0
  | .lanes => 4
  | .rate => 2500
  | .vc => 0
  | .dt => 0x1F
  | .width => 8192
  | .band => 512
  | .group => 16
  | .entry => 0
  | .slotAddr => 0
  | .pcie => 0

/-- Whether a value lies in its range, taken with any value of the keys it depends on (R415). -/
def TxKey.inRange (v : Nat) : TxKey → Bool
  | .src => decide (v ≤ 2)
  | .phy => decide (v ≤ 2)
  | .lanes => decide (v ∈ [1, 2, 3, 4, 8])
  | .rate => decide (160 ≤ v ∧ v ≤ 6000)
  | .vc => decide (v ≤ 15)
  | .dt => decide (v ∈ [0x1E, 0x1F, 0x24, 0x2E, 0x30])
  | .width => decide (128 ≤ v ∧ v ≤ 8192 ∧ v % 8 = 0)
  | .band => decide (64 ≤ v ∧ v ≤ 512 ∧ v % 8 = 0)
  | .group => decide (8 ≤ v ∧ v ≤ 128)
  | .entry => decide (v ≤ 255)
  | .slotAddr => decide (v % 64 = 0 ∧ v < 0x1000000)
  | .pcie => decide (v < 0x10000 ∧ v / 0x200 % 64 = 0)

/-- All keys of the group. -/
def TxKey.all : List TxKey :=
  [.src, .phy, .lanes, .rate, .vc, .dt, .width, .band, .group, .entry, .slotAddr, .pcie]

/-- Name, default and range of each key of the group. -/
def TrigKey.name : TrigKey → String
  | .mode => "MODE"
  | .offset => "OFFSET_NS"
  | .width => "WIDTH_NS"

/-- Its default. -/
def TrigKey.dflt : TrigKey → Nat
  | .mode => 0
  | .offset => 0
  | .width => 1000

/-- Whether a value lies in its range, taken with any value of the keys it depends on (R415). -/
def TrigKey.inRange (v : Nat) : TrigKey → Bool
  | .mode => decide (v ≤ 2)
  | .offset => decide (v ≤ 999999999)
  | .width => decide (40 ≤ v ∧ v ≤ 1000000)

/-- All keys of the group. -/
def TrigKey.all : List TrigKey :=
  [.mode, .offset, .width]

/-- Name, default and range of each key of the group. -/
def I3cKey.name : I3cKey → String
  | .sdr => "SDR_KHZ"
  | .i2c => "I2C_KHZ"

/-- Its default. -/
def I3cKey.dflt : I3cKey → Nat
  | .sdr => 12500
  | .i2c => 1000

/-- Whether a value lies in its range, taken with any value of the keys it depends on (R415). -/
def I3cKey.inRange (v : Nat) : I3cKey → Bool
  | .sdr => decide (100 ≤ v ∧ v ≤ 12500)
  | .i2c => decide (100 ≤ v ∧ v ≤ 1000)

/-- All keys of the group. -/
def I3cKey.all : List I3cKey :=
  [.sdr, .i2c]

/-- Name, default and range of each key of the group. -/
def ApllKey.name : ApllKey → String
  | .fs => "FS"
  | .mode => "MODE"
  | .port => "PORT"
  | .block => "BLOCK"
  | .kp => "KP"
  | .ki => "KI"
  | .rangePpm => "RANGE_PPM"
  | .phase => "PHASE_NS"
  | .wclkOut => "WCLK_OUT"

/-- Its default. -/
def ApllKey.dflt : ApllKey → Nat
  | .fs => 48000
  | .mode => 0
  | .port => 0
  | .block => 24
  | .kp => 2048
  | .ki => 16
  | .rangePpm => 200
  | .phase => 0
  | .wclkOut => 0

/-- Whether a value lies in its range, taken with any value of the keys it depends on (R415). -/
def ApllKey.inRange (v : Nat) : ApllKey → Bool
  | .fs => decide (v ∈ [16000, 32000, 44100, 48000, 88200, 96000])
  | .mode => decide (v ≤ 3)
  | .port => decide (v ≤ 3)
  | .block => decide (v ∈ [12, 24, 48, 96])
  | .kp => decide (v ≤ 65535)
  | .ki => decide (v ≤ 65535)
  | .rangePpm => decide (1 ≤ v ∧ v ≤ 500)
  | .phase => decide (v ≤ 999999999)
  | .wclkOut => decide (v ≤ 1)

/-- All keys of the group. -/
def ApllKey.all : List ApllKey :=
  [.fs, .mode, .port, .block, .kp, .ki, .rangePpm, .phase, .wclkOut]

/-- Name, default and range of each key of the group. -/
def TdmKey.name : TdmKey → String
  | .apll => "APLL"
  | .role => "ROLE"
  | .frameBits => "FRAME_BITS"
  | .slots => "SLOTS"
  | .width => "WIDTH"
  | .dataBits => "DATA_BITS"
  | .offset => "OFFSET"
  | .fsMode => "FS_MODE"
  | .bclkInv => "BCLK_INV"
  | .hiz => "HIZ"
  | .inMask => "IN_MASK"
  | .outMask => "OUT_MASK"
  | .elem => "ELEM"
  | .block => "BLOCK"
  | .inRing => "IN_RING"
  | .outRing => "OUT_RING"
  | .inK => "IN_K"
  | .outK => "OUT_K"
  | .outTick => "OUT_TICK"
  | .outEntry => "OUT_ENTRY"
  | .bypass => "BYPASS"
  | .zcTimeout => "ZC_TIMEOUT"
  | .pcie => "PCIE"

/-- Its default. -/
def TdmKey.dflt : TdmKey → Nat
  | .apll => 0
  | .role => 0
  | .frameBits => 256
  | .slots => 8
  | .width => 32
  | .dataBits => 24
  | .offset => 0
  | .fsMode => 0
  | .bclkInv => 0
  | .hiz => 0
  | .inMask => 0
  | .outMask => 0
  | .elem => 1
  | .block => 24
  | .inRing => 0
  | .outRing => 0
  | .inK => 4
  | .outK => 4
  | .outTick => 0
  | .outEntry => 0
  | .bypass => leVal (List.replicate 32 0xE0)
  | .zcTimeout => 100
  | .pcie => 0

/-- Whether a value lies in its range, taken with any value of the keys it depends on (R415). -/
def TdmKey.inRange (v : Nat) : TdmKey → Bool
  | .apll => decide (v ≤ 1)
  | .role => decide (v ≤ 1)
  | .frameBits => decide (16 ≤ v ∧ v ≤ 1024)
  | .slots => decide (1 ≤ v ∧ v ≤ 32)
  | .width => decide (v ∈ [16, 24, 32])
  | .dataBits => decide (8 ≤ v ∧ v ≤ 32)
  | .offset => decide (v ≤ 31)
  | .fsMode => decide (v ≤ 3)
  | .bclkInv => decide (v ≤ 1)
  | .hiz => decide (v ≤ 1)
  | .inMask => decide (v < 2 ^ 32)
  | .outMask => decide (v < 2 ^ 32)
  | .elem => decide (v ≤ 1)
  | .block => decide (v ∈ [12, 24, 48, 96])
  | .inRing => decide (v < 2 ^ 32)
  | .outRing => decide (v < 2 ^ 32)
  | .inK => decide (v ∈ [2, 4, 8, 16])
  | .outK => decide (v ∈ [2, 4, 8, 16])
  | .outTick => decide (v ≤ 15)
  | .outEntry => decide (v ≤ 255)
  | .bypass => decide (v < 2 ^ 256)
  | .zcTimeout => decide (1 ≤ v ∧ v ≤ 500)
  | .pcie => decide (v < 0x10000 ∧ v / 0x200 % 64 = 0)

/-- All keys of the group. -/
def TdmKey.all : List TdmKey :=
  [.apll, .role, .frameBits, .slots, .width, .dataBits, .offset, .fsMode, .bclkInv, .hiz, .inMask, .outMask,
   .elem, .block, .inRing, .outRing, .inK, .outK, .outTick, .outEntry, .bypass, .zcTimeout, .pcie]

/-- Name, default and range of each key of the group. -/
def TickKey.name : TickKey → String
  | .kind => "KIND"
  | .bind => "BIND"
  | .count => "COUNT"
  | .period => "PERIOD_US"
  | .phase => "PHASE_US"

/-- Its default. -/
def TickKey.dflt : TickKey → Nat
  | .kind => 0
  | .bind => 0
  | .count => 0
  | .period => 0
  | .phase => 0

/-- Whether a value lies in its range, taken with any value of the keys it depends on (R415). -/
def TickKey.inRange (v : Nat) : TickKey → Bool
  | .kind => decide (v ≤ 4)
  | .bind => decide (v ≤ 4)
  | .count => decide (v ∈ [0, 8, 12, 16, 24, 32, 48, 64, 96])
  | .period => decide (v = 0 ∨ (20 ≤ v ∧ v ≤ 1000000))
  | .phase => decide (v ≤ 999999)

/-- All keys of the group. -/
def TickKey.all : List TickKey :=
  [.kind, .bind, .count, .period, .phase]

/-- Name, default and range of each key of the group. -/
def StageKey.name : StageKey → String
  | .cluster => "CLUSTER"
  | .replay => "REPLAY"
  | .depth => "K"
  | .dataLock => "DATA_LOCK"
  | .creditLock => "CREDIT_LOCK"
  | .limit => "LIMIT_S"

/-- Its default. -/
def StageKey.dflt : StageKey → Nat
  | .cluster => 0
  | .replay => 0
  | .depth => 16
  | .dataLock => 0
  | .creditLock => 0
  | .limit => 30

/-- Whether a value lies in its range, taken with any value of the keys it depends on (R415). -/
def StageKey.inRange (v : Nat) : StageKey → Bool
  | .cluster => decide (v ≤ 3)
  | .replay => decide (v % 64 = 0 ∧ v < 0x1000000)
  | .depth => decide (2 ≤ v ∧ v ≤ 64)
  | .dataLock => decide (v < 2 ^ 32)
  | .creditLock => decide (v < 2 ^ 32)
  | .limit => decide (1 ≤ v ∧ v ≤ 600)

/-- All keys of the group. -/
def StageKey.all : List StageKey :=
  [.cluster, .replay, .depth, .dataLock, .creditLock, .limit]

/-- Name, default and range of each key of the group. -/
def PdmKey.name : PdmKey → String
  | .fs => "FS"
  | .apll => "APLL"
  | .mask => "MASK"
  | .elem => "ELEM"
  | .block => "BLOCK"
  | .ring => "RING"
  | .depth => "K"
  | .zcTimeout => "ZC_TIMEOUT"

/-- Its default. -/
def PdmKey.dflt : PdmKey → Nat
  | .fs => 48000
  | .apll => 0
  | .mask => 0
  | .elem => 1
  | .block => 24
  | .ring => 0
  | .depth => 4
  | .zcTimeout => 100

/-- Whether a value lies in its range, taken with any value of the keys it depends on (R415). -/
def PdmKey.inRange (v : Nat) : PdmKey → Bool
  | .fs => decide (v ∈ [16000, 32000, 48000])
  | .apll => decide (v ∈ [0, 1, 255])
  | .mask => decide (v < 65536)
  | .elem => decide (v ≤ 1)
  | .block => decide (v ∈ [12, 24, 48, 96])
  | .ring => decide (v < 2 ^ 32)
  | .depth => decide (v ∈ [2, 4, 8, 16])
  | .zcTimeout => decide (1 ≤ v ∧ v ≤ 500)

/-- All keys of the group. -/
def PdmKey.all : List PdmKey :=
  [.fs, .apll, .mask, .elem, .block, .ring, .depth, .zcTimeout]

/-- The name of a key. -/
def Key.name : Key → List Byte
  | .rx n k => str "IMG_RX" ++ dec n.val ++ str "_" ++ str k.name
  | .tx n k => str "IMG_TX" ++ dec n.val ++ str "_" ++ str k.name
  | .trig n k => str "IMG_TRIG" ++ dec n.val ++ str "_" ++ str k.name
  | .i3c n k => str "IMG_I3C" ++ dec n.val ++ str "_" ++ str k.name
  | .apll n k => str "AUD_APLL" ++ dec n.val ++ str "_" ++ str k.name
  | .tdm n k => str "AUD_TDM" ++ dec n.val ++ str "_" ++ str k.name
  | .tick n k => str "TICK" ++ dec n.val ++ str "_" ++ str k.name
  | .stage n k => str "CASCADE_S" ++ dec (n.val + 2) ++ str "_" ++ str k.name
  | .rxBlack n p => str "IMG_RX" ++ dec n.val ++ str "_BLACK_" ++ dec p.val
  | .pdm k => str "AUD_PDM_" ++ str k.name
  | .cascTrackSrc n => str "CASCADE_TRACK" ++ dec n.val ++ str "_SRC"
  | .cascRec n => str "CASCADE_S" ++ dec (n.val + 1) ++ str "_REC"
  | .resEntry n => str "IMG_" ++ str (["AF", "AE", "SCENE"].getD n.val "") ++ str "_ENTRY"
  | .resAddr n => str "IMG_" ++ str (["AF", "AE", "SCENE"].getD n.val "") ++ str "_ADDR"
  | .imgFrameSrc => str "IMG_FRAME_SRC"
  | .imgGenPeriod => str "IMG_GEN_PERIOD_NS"
  | .imgGenPhase => str "IMG_GEN_PHASE_NS"
  | .audVauxEn => str "AUD_VAUX_EN"
  | .audAlign => str "AUD_ALIGN_WINDOW_US"
  | .runTimetable => str "RUN_TIMETABLE"
  | .memTick => str "MEM_MIN_TICK"
  | .memInteractive => str "MEM_MIN_INTERACTIVE"
  | .memBackground => str "MEM_MIN_BACKGROUND"
  | .memAdapt => str "MEM_MIN_ADAPT"
  | .memScrubHours => str "MEM_SCRUB_HOURS"
  | .memCeLimit => str "MEM_CE_LIMIT"
  | .cascTracks => str "CASCADE_TRACKS"
  | .cascDspTrack => str "CASCADE_DSP_TRACK"
  | .cascDspK => str "CASCADE_DSP_K"
  | .cascAutoWatch => str "CASCADE_AUTO_WATCH"
  | .healthEscResets => str "HEALTH_ESC_RESETS"
  | .healthEscWindow => str "HEALTH_ESC_WINDOW_S"
  | .healthHbPeriod => str "HEALTH_HB_PERIOD_US"
  | .healthHbMisses => str "HEALTH_HB_MISSES"
  | .healthCeLimit => str "HEALTH_SRAM_CE_LIMIT"

/-- The default of a key. -/
def Key.dflt : Key → Nat
  | .rx _ k => k.dflt
  | .tx _ k => k.dflt
  | .trig _ k => k.dflt
  | .i3c _ k => k.dflt
  | .apll _ k => k.dflt
  | .tdm _ k => k.dflt
  | .tick _ k => k.dflt
  | .stage _ k => k.dflt
  | .rxBlack _ _ => 4096
  | .pdm k => k.dflt
  | .cascTrackSrc n => if n = 0 then 0x80 else 0xFF
  | .cascRec _ => 0
  | .resEntry _ => 0xFFFF
  | .resAddr _ => 0
  | .imgFrameSrc => 0
  | .imgGenPeriod => 16666667
  | .imgGenPhase => 0
  | .audVauxEn => 0
  | .audAlign => 0
  | .runTimetable => 0
  | .memTick => 32
  | .memInteractive => 12
  | .memBackground => 4
  | .memAdapt => 2
  | .memScrubHours => 24
  | .memCeLimit => 16
  | .cascTracks => 1
  | .cascDspTrack => 0
  | .cascDspK => 4
  | .cascAutoWatch => 1
  | .healthEscResets => 3
  | .healthEscWindow => 10
  | .healthHbPeriod => 1000
  | .healthHbMisses => 3
  | .healthCeLimit => 16

/-- Whether a value lies in a key's range as tabled (R415). -/
def Key.inRange (v : Nat) : Key → Bool
  | .rx _ k => k.inRange v
  | .tx _ k => k.inRange v
  | .trig _ k => k.inRange v
  | .i3c _ k => k.inRange v
  | .apll _ k => k.inRange v
  | .tdm _ k => k.inRange v
  | .tick _ k => k.inRange v
  | .stage _ k => k.inRange v
  | .rxBlack _ _ => decide (v ≤ 65535)
  | .pdm k => k.inRange v
  | .cascTrackSrc _ => decide (v ≤ 0x0F ∨ v = 0x80 ∨ v = 0xFF)
  | .cascRec _ => decide (v < 2 ^ 32)
  | .resEntry _ => decide (v ≤ 255 ∨ v = 0xFFFF)
  | .resAddr _ => decide (v % 64 = 0 ∧ v < 0x4000000)
  | .imgFrameSrc => decide (v ≤ 2)
  | .imgGenPeriod => decide (1000000 ≤ v ∧ v ≤ 1000000000)
  | .imgGenPhase => decide (v ≤ 999999999)
  | .audVauxEn => decide (v ≤ 1)
  | .audAlign => decide (v ≤ 500)
  | .runTimetable => decide (v % 64 = 0 ∧ v < 2 ^ 64)
  | .memTick => decide (16 ≤ v ∧ v ≤ 64)
  | .memInteractive => decide (v ≤ 48)
  | .memBackground => decide (v ≤ 48)
  | .memAdapt => decide (v ≤ 48)
  | .memScrubHours => decide (1 ≤ v ∧ v ≤ 168)
  | .memCeLimit => decide (1 ≤ v ∧ v ≤ 255)
  | .cascTracks => decide (1 ≤ v ∧ v ≤ 4)
  | .cascDspTrack => decide (v < 2 ^ 32)
  | .cascDspK => decide (v ∈ [2, 4, 8, 16])
  | .cascAutoWatch => decide (v ≤ 1)
  | .healthEscResets => decide (1 ≤ v ∧ v ≤ 15)
  | .healthEscWindow => decide (1 ≤ v ∧ v ≤ 600)
  | .healthHbPeriod => decide (100 ≤ v ∧ v ≤ 65535)
  | .healthHbMisses => decide (2 ≤ v ∧ v ≤ 16)
  | .healthCeLimit => decide (1 ≤ v ∧ v ≤ 255)

/-- Every key. -/
def Key.all : List Key :=
  ((List.finRange 2).flatMap (fun n => RxKey.all.map (Key.rx n))) ++
  ((List.finRange 2).flatMap (fun n => TxKey.all.map (Key.tx n))) ++
  ((List.finRange 2).flatMap (fun n => TrigKey.all.map (Key.trig n))) ++
  ((List.finRange 2).flatMap (fun n => I3cKey.all.map (Key.i3c n))) ++
  ((List.finRange 2).flatMap (fun n => ApllKey.all.map (Key.apll n))) ++
  ((List.finRange 4).flatMap (fun n => TdmKey.all.map (Key.tdm n))) ++
  ((List.finRange 16).flatMap (fun n => TickKey.all.map (Key.tick n))) ++
  ((List.finRange 2).flatMap (fun n => StageKey.all.map (Key.stage n))) ++
  ((List.finRange 2).flatMap (fun n => (List.finRange 4).map (Key.rxBlack n))) ++
  (PdmKey.all.map Key.pdm) ++
  ((List.finRange 4).map Key.cascTrackSrc) ++
  ((List.finRange 3).map Key.cascRec) ++
  ((List.finRange 3).map Key.resEntry) ++
  ((List.finRange 3).map Key.resAddr) ++
  [.imgFrameSrc, .imgGenPeriod, .imgGenPhase, .audVauxEn, .audAlign, .runTimetable, .memTick, .memInteractive,
   .memBackground, .memAdapt, .memScrubHours, .memCeLimit, .cascTracks, .cascDspTrack, .cascDspK, .cascAutoWatch,
   .healthEscResets, .healthEscWindow, .healthHbPeriod, .healthHbMisses, .healthCeLimit]

/-- The length of a key's value in a record (R415). -/
def Key.vlen : Key → Nat
  | .tdm _ .bypass => 32
  | _ => 8

/-- The key of a name field (32 bytes, NUL-padded). -/
def Key.find (name : List Byte) : Option Key := Key.all.find? (fun k => padTo 32 k.name = padTo 32 name)

/-- A set of values: the keys that are not at their defaults. -/
abbrev KeySet := List (Key × Nat)

/-- The value of a key in a set. -/
def KeySet.get (s : KeySet) (k : Key) : Nat := (assoc s k).getD k.dflt

/-- A set with one key changed. -/
def KeySet.put (s : KeySet) (k : Key) (v : Nat) : KeySet := if v = k.dflt then assocDel s k else assocSet s k v

/-- Whether two sets give every key the same value. -/
def KeySet.same (s t : KeySet) : Bool :=
  s.all (fun e => KeySet.get t e.1 = e.2) && t.all (fun e => KeySet.get s e.1 = e.2)

/-- The configuration (R414 to R420): the committed set, the working set of an open transaction with
the SYSTIME of its last command; the minimum shares in force, TICK to ADAPT (R269). -/
structure Cfg where
  committed : KeySet
  txn : Option (KeySet × Nat)
  mem : List Nat
deriving DecidableEq, Repr

def Cfg.reset : Cfg := ⟨[], none, [32, 12, 4, 2]⟩

end Sys2Proof.Machine
end

