-- ==== Sys2Proof/Machine/ClusterState.lean ====
section
/-! DEFINITION. The state of barges, locks, cores, clusters, cargos, regions and DRAM (chapters 2 to 7). -/

namespace Sys2Proof.Machine

/-- Who waits in a lock's queue (R239): a wait reference of a run, a barge, a share at a LOCKW, the cascade controller for a
replay slot of stage n + 2 (R542). -/
inductive WaiterId where
  | run (rid : Nat) (ref : Nat)
  | barge (bid : Nat)
  | share (core : CoreId) (rid : Nat) (idx : Fin 4)
  | replay (n : Fin 2)
deriving DecidableEq, Repr

/-- A waiter: its lock, what it lowers, and the SYSTIME at which its timeout expires (R240). -/
structure Waiter where
  lock : Nat
  n : Nat
  expiry : Nat
  who : WaiterId
deriving DecidableEq, Repr

/-- A lock keeper (R238 to R246): the non-zero levels in ascending lock order, and the waiters in order of arrival. -/
structure Keeper where
  levels : List (Nat × Nat)
  waiters : List Waiter
deriving DecidableEq, Repr

def Keeper.reset : Keeper := ⟨[], []⟩

/-- A barge descriptor's fields (R229); `dev` and `remote` are those of its destination. -/
structure BDesc where
  op : Nat
  ctl : Nat
  timeout : Nat
  xBytes : Nat
  yCount : Nat
  zCount : Nat
  srcY : Int
  srcZ : Int
  dstY : Int
  dstZ : Int
  wait : W32
  src : Nat
  dst : Nat
  raise : W32
  fill : W32
  tag : W32
  remote : Bool
  dev : Nat
deriving DecidableEq, Repr

/-- Who issued a barge: a share (run, share index, core), a prefetch list of an entry, a ring entry (ring, index). -/
inductive BargeBy where
  | share (rid : Nat) (idx : Fin 4) (core : CoreId)
  | prefetch (entry : Nat) (rid : Option Nat)
  | ring (r : Nat) (index : Nat)
deriving DecidableEq, Repr

/-- The mover of a barge (R231). -/
inductive Mover where
  | loc (core : CoreId)
  | dram (c : Fin 4)
deriving DecidableEq, Repr

/-- A barge in a mover's queue. `afterOps`: issue numbers of the share's earlier engine operations that must complete
first (R233); `waiting`: on its lock; `started`; `owed`: (partition, bytes) of DRAM traffic that its context's budget has
not yet let through (R265); `held`: a prefetch barge that the sequencer holds back until its mover has a free slot (R232);
`frames`: transfer id and count of the DATA frames of a remote barge that has started (R493). -/
structure Barge where
  bid : Nat
  by_ : BargeBy
  mover : Mover
  desc : BDesc
  ctx : Nat
  cls : Nat
  cluster : Fin 4
  afterOps : List Nat
  waiting : Bool
  started : Bool
  held : Bool
  owed : List (Fin 4 × Nat)
  frames : Option (Nat × Nat)
deriving DecidableEq, Repr

/-- A step of a clip slot (R78, R79): the run and the layer descriptor that make it, the tick it belongs to, the ceiling in force
for the whole of it and whether that is a fallback ceiling (R81), its counts, and whether it has ended. -/
structure ClipStep where
  rid : Nat
  addr : Nat
  source : Fin 16
  count : Nat
  ceiling : W32
  fb : Bool
  clipped : Nat
  total : Nat
  stepMax : W32
  ended : Bool
deriving DecidableEq, Repr

/-- A clip slot of a cluster (R77 to R89, R611): its cargo, its index there, its number on the cluster (log entry 50), its
record's C_cal, C_cal and the ceiling in force, the fallback state, its steps in progress and those that wait for their
evaluation, a pending reload, and what the last evaluation found. `fbNow`: the ceiling in force is a fallback ceiling; `next`: a
linked result not yet in force, with whether it is one, and the tick source that brings it into force (R85). -/
structure ClipSlot where
  cargo : Nat
  slot : Nat
  num : Nat
  record : W32
  cCal : W32
  ceiling : W32
  threshold : Nat
  depth : Nat
  linked : Bool
  inFallback : Bool
  streak : Nat
  hist : List W32
  live : List ClipStep
  reload : Option W32
  steps : W32
  lastShare : W32
  lastClipped : Nat
  lastTotal : Nat
  fbNow : Bool
  next : Option (W32 × Bool × Fin 16)
deriving DecidableEq, Repr

/-- A row of a line buffer ring with its tag (R135): frame number modulo 2^16, row, and its elements. -/
structure RingRow where
  frame : Nat
  row : Nat
  data : List Nat
deriving DecidableEq, Repr

/-- What makes two rings one (R160): the offset in the line buffer, the depth in rows, the row stride, the channels. -/
structure RingId where
  addr : Nat
  size : Nat
  stride : Nat
  c : Nat
deriving DecidableEq, Repr

/-- A ring of the line buffer: which it is, and its rows, oldest first. -/
structure LbRing where
  id : RingId
  rows : List RingRow
deriving DecidableEq, Repr

/-- A stack's progress in one frame (R137, R138): whether the frame has ended and its height, and per layer input plane the
highest row reached and the first, and per layer the next output row owed. -/
structure FrameProg where
  frame : Nat
  ended : Bool
  height : Option Nat
  top : List (Option Nat)
  first : List (Option Nat)
  nxt : List (Option Nat)
deriving DecidableEq, Repr

/-- A stack that a run is executing on a share: its header's operand address, the frames whose rows the run computes (the last
of them takes the run's rows when `takes`), the rows each layer group has computed as (frame index, row), rows repaired as
(group, frame, row). -/
structure StackRun where
  hdr : Nat
  rid : Nat
  states : List FrameProg
  takes : Bool
  rowsOf : List (Nat × List (Nat × Nat))
  fixed : List (Nat × Nat × Nat)
deriving DecidableEq, Repr

/-- The stripe state of one share index of a cluster: rings, the progress of each stack in the frame before the present one and
in the present one, the stacks that runs in progress are executing, the core that last held the share, and whether that core
has been fenced since, so that the rings do not move with the share (R157). -/
structure StripeSt where
  rings : List LbRing
  prog : List (Nat × List FrameProg)
  cur : List StackRun
  core : Option (Fin 4)
  lost : Bool
deriving DecidableEq, Repr

def StripeSt.reset : StripeSt := ⟨[], [], [], none, false⟩

/-- What a share's stripe state and local memory were when a run of policy BYPASS started (R39): the state its next run starts
from when it is stopped. -/
structure SavedRun where
  rid : Nat
  lmem : Vector Mem 4
  stripe : Vector StripeSt 4
deriving DecidableEq, Repr

/-- A weight set of the matrix engine (R91): the weights of a pass, row by row, and its weft entries (group sum and scale). -/
structure WeightSet where
  w : List (List Int)
  weft : List (List (Int × Nat))
deriving DecidableEq, Repr

/-- The stores of a core's matrix engine (R91, R92), none of them addressable: the active and the shadow weight set; per bank of
the code buffer the codes, scales and zero points of the rows of an M tile; per bank of the accumulator file the FP32 sums of
an N tile. -/
structure MatStore where
  active : WeightSet
  shadow : WeightSet
  codes : Vector (List (List Nat × Nat × Nat)) 2
  acc : Vector (List (List Nat)) 2
deriving DecidableEq, Repr

def MatStore.reset : MatStore :=
  ⟨⟨[], []⟩, ⟨[], []⟩, Vector.replicate 2 [], Vector.replicate 2 []⟩

/-- A core: fenced for a test, fenced for good (R552, R553), the run and share it holds, those suspended on it, and the stores
of its matrix engine. -/
structure Core where
  test : Bool
  fenced : Bool
  cur : Option (Nat × Fin 4)
  susp : List (Nat × Fin 4)
  eng : MatStore
deriving DecidableEq, Repr

def Core.reset : Core := ⟨false, false, none, [], MatStore.reset⟩

/-- A partition reset in progress (R563, R564): its cause, entry and tick sequence, the SYSTIME of its stop, its phase
(0 stopped, 1 logbook written, 2 hardware reset done), the mailboxes whose HEALTH_RESET_PARTITION wait for the return with
whether each merged, whether it escalated, and the logbook record gathered at the stop (R568). -/
structure ResetSt where
  cause : Nat
  entry : Nat
  seq : Nat
  start : Nat
  phase : Nat
  waiters : List (Fin 8 × Bool)
  escalated : Bool
  book : List Byte
deriving DecidableEq, Repr

/-- A cluster: its memory, cores, the local memory and stripe state of each share index (R5, R209), clip slots and the
reloads kept for them (cargo, slot, value) (R88), lock keeper, scope 1 raises on their way to it (R243), the share index
that ran first last on a doubled core (R209), the KV page budget b and the frames since the last report (R194, R195), the tick
sequence number of the last run started (R604), and a partition reset in progress. `bad`: per share index, the 8-byte granules
of its local memory found with an uncorrectable error, with the bytes they held then (R220, R552; log entry 165); `saved`: what runs of policy BYPASS started from (R39). -/
structure Cluster where
  mem : Mem
  cores : Vector Core 4
  lmem : Vector Mem 4
  bad : Vector (List (Nat × Nat)) 4
  stripe : Vector StripeSt 4
  saved : List SavedRun
  slots : List ClipSlot
  reloads : List (Nat × Nat × W32)
  keeper : Keeper
  raisesIn : List (Nat × Nat)
  ranFirst : Option (Fin 4)
  kvB : Nat
  kvCalm : Nat
  lastSeq : W32
  reset : Option ResetSt
deriving DecidableEq, Repr

def Cluster.init : Cluster :=
  { mem := Mem.empty, cores := Vector.replicate 4 Core.reset, lmem := Vector.replicate 4 Mem.empty,
    bad := Vector.replicate 4 [], stripe := Vector.replicate 4 StripeSt.reset, saved := [], slots := [], reloads := [], keeper := Keeper.reset, raisesIn := [],
    ranFirst := none, kvB := 16, kvCalm := 0, lastSeq := 0, reset := none }

/-- A region of a partition (R255, R431). `update`: a region update is in flight (R258). -/
structure Region where
  slot : Nat
  gen : Nat
  base : Nat
  blocks : Nat
  owner : Nat
  retain : Bool
  stale : Bool
  update : Bool
deriving DecidableEq, Repr

/-- Where a row-range test stands (R277). -/
inductive TestPhase where
  | copying | testing | copyBack
deriving DecidableEq, Repr

/-- The row-range test in progress: range base, spare, phase. -/
structure RowTest where
  base : Nat
  spare : Nat
  phase : TestPhase
deriving DecidableEq, Repr

/-- An access that a row-range copy holds (R278): a host read of `len` bytes, or a host write of `data`. -/
structure HeldAccess where
  addr : Nat
  write : Bool
  len : Nat
  data : List Byte
deriving DecidableEq, Repr

/-- What the arbiter of one channel gathers in the present frame (R270): windows, short windows, and whether ADAPT and
BACKGROUND were held at their minimums in every short window. Its counters of R271 are those of R609. -/
structure Arb where
  frameWin : Nat
  frameShort : Nat
  frameHeldAll : Bool
deriving DecidableEq, Repr

def Arb.reset : Arb := ⟨0, 0, true⟩

/-- Retraining of one channel (R281, R282): 0 idle, 1 running, 2 paused (due while a test runs); SYSTIME of its last training, and
the stack temperature then, in sixteenths of a degree, where it is known (log entry 175). -/
structure Retrain where
  state : Nat
  last : Nat
  temp : Option Int
deriving DecidableEq, Repr

/-- One partition's DRAM state (R249 to R282). `gens`: last generation of each slot used; `offSeen`: an access met the
reach off in this off period (R253); `spares`: (spare, row range it serves for good or during a test); `queue`: row
ranges waiting for a test, in order of detection; `ready`: those of them whose tick has passed; `kept`: (range, spare) of tests
that a partition reset cut short (R554); `testDue`: a test waits for a retraining to end its channel; `held`: accesses held,
oldest first; `scrub`: next line address, `scrubState` 0 idle, 1 running, 2 paused, `scrubDue`: SYSTIME at which the next pass may
begin, `offAt`: SYSTIME at which the cluster reach went off (R280);
`ce`: corrected errors of a row range with the SYSTIME they were counted. -/
structure Part where
  regions : List Region
  gens : List (Nat × Nat)
  offSeen : Bool
  spares : List (Nat × Nat)
  test : Option RowTest
  queue : List Nat
  ready : List Nat
  kept : List (Nat × Nat)
  testDue : Bool
  held : List HeldAccess
  noSpare : List Nat
  retrain : Vector Retrain 2
  retrainNext : List (Fin 2)
  scrub : Nat
  scrubState : Nat
  scrubDue : Nat
  offAt : Option Nat
  ce : List (Nat × List Nat)
  arb : Vector Arb 2
deriving DecidableEq, Repr

def Part.reset : Part :=
  { regions := [], gens := [], offSeen := false, spares := [], test := none, queue := [], ready := [],
    kept := [], testDue := false, held := [], noSpare := [], retrain := Vector.replicate 2 ⟨0, 0, none⟩, retrainNext := [],
    scrub := 0, scrubState := 0, scrubDue := 0, offAt := none, ce := [],
    arb := Vector.replicate 2 Arb.reset }

/-- An entry point of a loaded cargo (R211, R216). -/
structure Point where
  headerOff : Nat
  programOff : Nat
  programLen : Nat
  alt : Bool
  adapt : Bool
  main : Nat
  budget4 : Nat
  budget3 : Nat
  workLo : Nat
  workLen : Nat
  keepLo : Nat
  keepLen : Nat
  prefetchN : Nat
  prefetchAddr : Nat
deriving DecidableEq, Repr

/-- A loaded cargo (R214, R421): handle, owner, region handle, image base (device address) and length, clusters, entry
points, its clip slot count, locks with their initial levels, resident range, protected ranges (R646) as cluster memory
offsets, its layer descriptors in ascending cluster memory offset (R610), the image offsets of its set descriptors, wherever they
stand, its table of them, latency figures and adapter area. -/
structure Cargo where
  handle : Nat
  owner : Nat
  region : Nat
  base : Nat
  len : Nat
  clusters : List (Fin 4)
  points : List Point
  slots : Nat
  lockFirst : Nat
  lockInit : List Nat
  resOff : Nat
  resLen : Nat
  resDest : Nat
  prot : List (Nat × Nat)
  layers : List Nat
  sets : List Nat
  setsOff : Nat
  setCount : Nat
  videoL : Nat
  videoS : Nat
  audioA : Nat
  adapterOff : Nat
  adapterLen : Nat
deriving DecidableEq, Repr

end Sys2Proof.Machine
end

