-- ==== Sys2Proof/Machine/DspState.lean ====
section
/-! DEFINITION. The state of the audio DSPs (chapter 10). -/

namespace Sys2Proof.Machine

/-- One register bank (R368). -/
structure DspBank where
  x : Vector W32 8
  y : Vector W32 8
  p : Vector (BitVec 24) 8
  m : Vector W32 8
  lr : BitVec 15
deriving DecidableEq, Repr

def DspBank.reset : DspBank :=
  ⟨Vector.replicate 8 0, Vector.replicate 8 0, Vector.replicate 8 0, Vector.replicate 8 0, 0⟩

/-- A task of the image (R391). -/
structure DspTask where
  entry : Nat
  tick : Fin 16
  level : Nat
  policy : Nat
  divide : Nat
  phase : Nat
  handler : Nat
  budget : Nat
  alt : Nat
deriving DecidableEq, Repr

/-- A run of a task (R393): tick count and stamp, run interval in ps, at the alternate handler, started, cycles at its
level, overrun cause, later selecting ticks with the stamp of the last, deadlines passed. -/
structure TaskRun where
  count : Nat
  stamp : Nat
  iv : Nat
  alt : Bool
  started : Bool
  cycles : Nat
  cause : Option Nat
  ticks : Nat
  lastSel : Nat
  passed : Nat
deriving DecidableEq, Repr

/-- What is kept per task: the run in progress (requested or started), a pending run, and the counters of RUN_INFO. -/
structure TaskSt where
  cur : Option TaskRun
  pend : Option TaskRun
  overruns : W32
  lastOvr : W16
  numFlags : W16
  lastSeq : W32
  atAlt : Bool
  dropNext : Bool
deriving DecidableEq, Repr

def TaskSt.reset : TaskSt := ⟨none, none, 0, 0, 0, 0, false, false⟩

/-- An entry of the interrupt stack (R388): return address, sr, loop state, task active before the entry. -/
structure DspFrame where
  ret : Nat
  sr : W32
  lc : W32
  loopStart : Nat
  loopLen : Nat
  task : Nat
deriving DecidableEq, Repr

/-- The copy of an image in staging (R363, R586). -/
structure DspImage where
  p : Mem
  x : Mem
  y : Mem
  tasks : List DspTask
deriving DecidableEq, Repr

/-- A DSP. `cond`: 0 STOPPED, 1 RUNNING, 2 HALTED (R362); memories at byte address 4 times the word; `badP`, `badX`,
`badY`: words with an uncorrectable error (R367); control registers of R369; `loopLen` 0: no active LOOP; `cached`: its body runs
from the repeat cache (R383); `stack`: the
interrupt stack, top first; `task`: the task active at the current level; `swi`: SWI requests pending by level;
`ovrReq`: TICK_OVERRUN requests waiting (R387); `waiting`: in WAITI; `fenced`: by a failed self-test (R553). -/
structure Dsp where
  cond : Nat
  owner : Option Nat
  image : Option DspImage
  p : Mem
  x : Mem
  y : Mem
  badP : List Nat
  badX : List Nat
  badY : List Nat
  bank : Vector DspBank 3
  acc : Vector (BitVec 72) 4
  sr : W32
  ie : W32
  lc : W32
  rc : W32
  fcause : W32
  faddr : W32
  xwin : W32
  cyc : W32
  pc : Nat
  loopStart : Nat
  loopLen : Nat
  cached : Bool
  stack : List DspFrame
  task : Nat
  swi : Byte
  ovrReq : List Nat
  waiting : Bool
  tasks : List TaskSt
  fenced : Bool
deriving DecidableEq, Repr

def Dsp.reset : Dsp :=
  { cond := 0, owner := none, image := none, p := Mem.empty, x := Mem.empty, y := Mem.empty, badP := [], badX := [],
    badY := [], bank := Vector.replicate 3 DspBank.reset, acc := Vector.replicate 4 0, sr := 0, ie := 0, lc := 0, rc := 0,
    fcause := 0, faddr := 0, xwin := 0, cyc := 0, pc := 0, loopStart := 0, loopLen := 0, cached := false, stack := [], task := 0xFF,
    swi := 0, ovrReq := [], waiting := false, tasks := [], fenced := false }

end Sys2Proof.Machine
end

