-- ==== Sys2Proof/Machine/HostState.lean ====
section
/-! DEFINITION. The state of the host's side: mailboxes, rings, contexts, PCIe function, GLB registers, status map and event
log (chapters 11, 12, 15). -/

namespace Sys2Proof.Machine

/-- The copy firmware made of a mailbox when it took it (R401): command, context, payload. -/
structure Taken where
  command : Nat
  context : Nat
  payload : List Byte
deriving DecidableEq, Repr

/-- A command that was accepted and completes when its work is done (R405), with the objects its completion needs. -/
structure InFlight where
  kind : Nat
  args : List Nat
  reply : List Byte
deriving DecidableEq, Repr

/-- A mailbox page (R399): its 4096 bytes, and beside it the copy taken, the order and the SYSTIME of the post, its order among the
commands taken, the command in flight, and the last request with its kept reply (status, payload) (R404). -/
structure Mbox where
  page : Mem
  taken : Option Taken
  posted : Nat
  postTime : Nat
  order : Nat
  flight : Option InFlight
  kept : Option (List Byte × Nat × List Byte)
deriving DecidableEq, Repr

def Mbox.reset : Mbox := ⟨Mem.empty, none, 0, 0, 0, none, none⟩

/-- A ring (R438 to R445). `held`: completions held for a full completion ring; `dropped`: events dropped, first and last
code; `seq`: per-ring event count. `kind` 0 is a ring destroyed, under a number of its own that is its old one modulo 512: a
submission ring for the completions that its entries taken still owe, a completion ring for the count of those lost (R439). -/
structure Ring where
  kind : Nat
  n : Nat
  vector : Nat
  pair : Nat
  base : Nat
  ctx : Nat
  host : W32
  dev : W32
  arm : Bool
  badIndex : Bool
  lost : Bool
  lostCount : W32
  held : List (List Byte)
  dropped : Option (Nat × Nat × Nat)
  seq : W32
deriving DecidableEq, Repr

/-- A context (R263 to R266, R409). `budget` is the budget in force, `budgetSet` the one last set, `setStamp` the
completion of the QUOTA_SET that changed it while it is pending. -/
structure Ctx where
  cls : Nat
  quota : Nat
  budget : Nat
  budgetSet : Nat
  setStamp : Option Nat
  overQuota : Bool
deriving DecidableEq, Repr

/-- The PCIe function (R448 to R453, R463): Bus Master Enable, the D state, the link state (0 L0, 1 L1.2, 2 L2), WAKE_L
asserted, MSI-X mask bits and pending bits, the messages sent (newest first), the event log window, and the last completion
of a BAR2 read: its bytes, and whether its poisoned (EP) bit was set (R274); SRIS mode in place of common-clock mode (R636). -/
structure Pcie where
  busMaster : Bool
  d3hot : Bool
  link : Nat
  wakeL : Bool
  masked : BitVec 64
  pend : BitVec 64
  sent : List Nat
  elwSel : W32
  elwData : List Byte
  bar2Data : List Byte
  bar2Ep : Bool
  sris : Bool
deriving DecidableEq, Repr

def Pcie.reset : Pcie :=
  { busMaster := false, d3hot := false, link := 0, wakeL := false, masked := BitVec.allOnes 64, pend := 0, sent := [],
    elwSel := 0, elwData := zeros 64, bar2Data := [], bar2Ep := false, sris := false }

/-- The registers of the GLB block that hold state (R461 to R466). `cause` holds the W1C bits; the summary bits come from
their blocks. `prevP`: P_v of each vector after the last step (R462). -/
structure Glb where
  err : BitVec 2
  cause : W16
  enable : W16
  vec : Vector W32 4
  latch : W32
  prevP : BitVec 64
deriving DecidableEq, Repr

def Glb.reset : Glb :=
  { err := 0, cause := 0, enable := 0, vec := Vector.replicate 4 0, latch := 0, prevP := 0 }

/-- The event log (R569 to R571): content, head offset and wraps, records written, code of the last one, SYSTIME at which
the writer is free again, events coalesced and not yet summarised (count, first code, last code), events coalesced since
the log was cleared. -/
structure LogSt where
  mem : Mem
  offset : W16
  wraps : W16
  records : W32
  lastCode : W16
  busyUntil : Nat
  coal : Option (Nat × Nat × Nat)
  coalTotal : W32
deriving DecidableEq, Repr

def LogSt.reset : LogSt := ⟨Mem.empty, 0, 0, 0, 0, 0, none, 0⟩

/-- The status map (R472): its 256 words (two bytes each, at twice the word's address), whether the state group's fields
changed since its last publication, and the SYSTIME at which the health group is published next. -/
structure StatusSt where
  map : Mem
  stateDue : Bool
  healthDue : Nat
deriving DecidableEq, Repr

end Sys2Proof.Machine
end

