-- ==== Sys2Proof/Machine/SchedState.lean ====
section
/-! DEFINITION. The state of tick sources, timetables, runs and shares (chapters 1 and 6). -/

namespace Sys2Proof.Machine

/-- A timetable entry (R26). Lock references stay as their 32-bit words (R27). -/
structure Entry where
  id : Nat
  source : Fin 16
  cluster : Fin 4
  cls : Nat
  policy : Nat
  divide : Nat
  phase : Nat
  order : Nat
  cargo : Nat
  budget4 : Nat
  budget3 : Nat
  timeout : Nat
  point : Nat
  alt : Nat
  waits : List W32
  raises : List W32
deriving DecidableEq, Repr

/-- A timetable (R25): its switch source, its entries, its owner (R410) and the region that held it. -/
structure Timetable where
  switch : Fin 16
  entries : List Entry
  owner : Nat
deriving DecidableEq, Repr

/-- A tick source (R19, R20): its keys in force, the count its next tick will carry, the stamp of its last tick, and for
a CONTROL source the SYSTIME of its next tick. `blanks`: BLANK ticks still to raise, `blankNo` those raised and `blankAt` the
stamp of the tick they count from (R21); `lost`: TICK_LOST written for the present gap (R23). -/
structure TickSrc where
  kind : Nat
  bind : Nat
  count : Nat
  periodUs : Nat
  phaseUs : Nat
  next : W64
  last : Option Nat
  due : Nat
  blanks : Nat
  blankNo : Nat
  blankAt : Nat
  lost : Bool
deriving DecidableEq, Repr

def TickSrc.off : TickSrc := ⟨0, 0, 0, 0, 0, 0, none, 0, 0, 0, 0, false⟩

/-- What the runs of one tick contribute to the overrun word of their frame or block (R44): the tick's source and count,
overrun runs, the last overrun as (SYSTIME, policy code, cause), an alternate point in use, a run dropped or bypassed; and
what a tick gives the frame metadata (R313, R314): R31 in force for a run, rows repaired, the lowest KV page budget, a
partition in reset, time unlocked. -/
structure OvrRec where
  source : Fin 16
  count : Nat
  runs : Nat
  lastOvr : Option (Nat × Nat × Nat)
  degraded : Bool
  skipped : Bool
  r31 : Bool
  repair : Nat
  kv : Nat
  partReset : Bool
  unlocked : Bool
deriving DecidableEq, Repr

/-- State of a share's program, as its program word codes it (R568). -/
inductive ShareSt where
  | notStarted | running | inLockw | stalled | retired | stopped
deriving DecidableEq, Repr

/-- The engine an operation runs on. -/
inductive EngKind where
  | matrix | stripe | attn
deriving DecidableEq, Repr

/-- An engine operation issued and not completed: its issue number, its engine, its descriptor's op, the operand address of
its descriptor, the operand address of the stack header it belongs to, its index within its stack or program, and the word
read at issue for an indirect attention descriptor (R188). `owed`: of an attention operation whose page reads a budget limits, the
bytes that still wait for a later period (R265). -/
structure EngOp where
  seq : Nat
  kind : EngKind
  op : Nat
  addr : Nat
  hdr : Option Nat
  index : Nat
  seqOff : Nat
  owed : Option Nat
deriving DecidableEq, Repr

/-- One of a run's four shares (R208, R217). `core`: the core that holds it; `ended`: its program has ended, or a LOCKW of it timed out (R241); `barges`: its barges outstanding; `ops`: engine operations issued and not
completed, oldest first; `words`: engine status words matrix, stripe, attention (R568); `parity`: the pass of the layer in
progress in which an active-set parity error was met (R115, R117); `execs`: descriptors its program has issued; `vreg`, `vmask`: the vector registers (256 bytes each) and lane mask (R222). -/
structure Share where
  idx : Fin 4
  core : Option (Fin 4)
  st : ShareSt
  ended : Bool
  pc : Nat
  regs : Vector W32 16
  ops : List EngOp
  opSeq : Nat
  execs : Nat
  barges : List Nat
  words : Nat × Nat × Nat
  parity : Option Nat
  vreg : Mem
  vmask : BitVec 256
deriving DecidableEq, Repr

/-- What a ROWGROUP tick tells a run (R155): frame number, first row and row count of the group, BLANK, first-row and
last-row markers, the frame's height once known, and the frames ended before with their heights. -/
structure TickInfo where
  frame : Nat
  row0 : Nat
  rows : Nat
  blank : Bool
  first : Bool
  last : Bool
  height : Option Nat
  ended : List (Nat × Nat)
deriving DecidableEq, Repr

def TickInfo.plain : TickInfo := ⟨0, 0, 0, false, false, false, Option.none, []⟩

/-- Where a run stands. `pending`: made ready while another run of its entry is in progress (R33); `waiting`: its lock
waits and prefetch barges are not yet satisfied; `running`; `dropped`: waiting for its deadline (R39). -/
inductive RunPhase where
  | pending | waiting | running | dropped
deriving DecidableEq, Repr

/-- One run of an entry. `old`: its timetable has been replaced (R51); `iv`: the run interval in picoseconds; `ticks`:
later ticks that selected its entry, `lastSel` the stamp of the last of them, `passed`: deadlines passed (R34, R42);
`cause`: the cause of its overrun, once (R35); `faulted`: handled under FAULT; `noRaise` (R33); `waitsLeft`: wait
references not yet released; `pf`: prefetch barges outstanding, `pfBad`: one of them failed (R228); `cyc4`: quarter F_CORE
cycles counted up to `since`, none while no cycles count (R35, R37, R546); `flags`: numeric flags (R65); `info`: the row-group of its
tick; `repaired`: ring rows repaired (R139); `stopped`: one of its shares was stopped (R117); `full`: a wait of it found its
keeper's table full (R242); `degr`: of an old run, its entry was at its alternate point when the timetable was replaced (R49,
R52). -/
structure Run where
  rid : Nat
  entry : Entry
  ctx : Nat
  old : Bool
  count : Nat
  stamp : Nat
  iv : Nat
  r31 : Bool
  phase : RunPhase
  alt : Bool
  budget : Nat
  ticks : Nat
  lastSel : Nat
  passed : Nat
  cause : Option Nat
  faulted : Bool
  noRaise : Bool
  waitsLeft : List Nat
  pf : List Nat
  pfBad : Bool
  start : Option Nat
  cyc4 : Nat
  since : Option Nat
  flags : W16
  info : TickInfo
  repaired : Nat
  stopped : Bool
  full : Bool
  degr : Bool
  shares : List Share
deriving DecidableEq, Repr

/-- What is kept per timetable entry between runs: counters of RUN_INFO (R429, R45), the alternate point (R39), the next
run to drop (R39), the prefetch list issued for the next run (R227), and whether its last run was at the alternate point (R139). -/
structure EntrySt where
  id : Nat
  overruns : W32
  lastOvr : W16
  numFlags : W16
  lastSeq : W32
  atAlt : Bool
  dropNext : Bool
  pf : Option (List Nat × Bool)
  lastAlt : Option Bool
deriving DecidableEq, Repr

/-- The sequencers: sources, the committed, running and staged timetables, the entries' state, the runs. `running`:
runs are made ready (R425, R426); `startStamp`: completion of RUN_START (R425); `staged`: timetable and completion stamp
of its staging (R49). -/
structure Sched where
  src : Vector TickSrc 16
  committed : Option Timetable
  tt : Option Timetable
  staged : Option (Timetable × Nat)
  running : Bool
  startStamp : Nat
  entries : List EntrySt
  runs : List Run
  nextRid : Nat
  ovr : List OvrRec
deriving DecidableEq, Repr

def Sched.reset : Sched :=
  { src := Vector.replicate 16 TickSrc.off, committed := none, tt := none, staged := none, running := false,
    startStamp := 0, entries := [], runs := [], nextRid := 0, ovr := [] }

end Sys2Proof.Machine
end

