-- ==== Sys2Proof/Machine/ImgState.lean ====
section
/-! DEFINITION. The state of the imaging front end and video output (chapter 8). -/

namespace Sys2Proof.Machine

/-- A receiver's keys in force (R290, R291). -/
structure RxCfg where
  phy : Nat
  lanes : Nat
  rate : Nat
  scramble : Nat
  vc : Nat
  dt : Nat
  width : Nat
  height : Nat
  lines : Nat
  linePs : Nat
  cfa : Nat
  layout : Nat
  out : Nat
  shift : Nat
  band : Nat
  selvL : Nat
  selvR : Nat
  slots : Nat
  slotAddr : Nat
  histAddr : Nat
deriving DecidableEq, Repr

def RxCfg.reset : RxCfg := ⟨0, 4, 2500, 0, 0, 0x2C, 8192, 4320, 4500, 3703704, 0, 0, 0, 12, 0, 8, 8, 2, 0, 0⟩

/-- A row of a held group in the holding buffer (R299): cluster, frame, plane row, and what is to be written (offset,
bytes). -/
structure HeldRow where
  c : Fin 4
  frame : Nat
  row : Nat
  writes : List (Nat × List Byte)
deriving DecidableEq, Repr

/-- A ROWGROUP tick (R22, R298): what it tells, the plane rows of the frame it follows, and whether it is exempt from R24. It
waits in a receiver while rows before it are held (R299), but for those of clusters whose bands of the group were discarded
(`skip`). -/
structure RowTick where
  info : TickInfo
  bottom : Nat
  exempt : Bool
  skip : List (Fin 4)
deriving DecidableEq, Repr

/-- A receiver: keys in force, tables and black levels in force and committed ones waiting for a Frame Start (R295); lock and
the last burst (R322); whether a Frame Start came since RUN_START, a frame is in progress, its Frame End came early (R287);
status and error registers; the sensor rows so far and the Frame Start's stamp; the last two prepared rows and the last two
rows as the defect fill left them, newest first (R287, R293); the histogram (R304: bins, zones as (index, value)); IMG_RX_ERROR
written for the frame (R286); ends of the first and the last row as (row, SYSTIME) (R289); the time in picoseconds of the
next generated row (R287); rows and ticks held (R299); clusters whose bands of the present row-group were discarded (R299, R300);
the frames ended with their heights in plane rows, newest first. -/
structure Rx where
  cfg : RxCfg
  tables : Option Mem
  tablesNext : Option (Option Mem)
  black : List Nat
  blackNext : Option (List Nat)
  lock : Bool
  lastBurst : Nat
  seen : Bool
  inFrame : Bool
  ended : Bool
  err : BitVec 7
  frame : W32
  lineNs : W32
  crcCnt : W32
  row : Nat
  sof : W64
  prep : List (List Nat)
  cleaned : List (List Nat)
  bins : List (Nat × Nat)
  zones : List (Nat × Nat)
  sat : Nat
  histRows : Nat
  errSeen : Bool
  firstEnd : Option (Nat × Nat)
  lastEnd : Nat × Nat
  gen : Option Nat
  held : List HeldRow
  heldTicks : List RowTick
  cut : List (Fin 4)
  heights : List (Nat × Nat)
deriving DecidableEq, Repr

def Rx.reset : Rx :=
  { cfg := RxCfg.reset, tables := none, tablesNext := none, black := [4096, 4096, 4096, 4096], blackNext := none,
    lock := false, lastBurst := 0, seen := false, inFrame := false, ended := false, err := 0, frame := 0, lineNs := 0,
    crcCnt := 0, row := 0, sof := 0, prep := [], cleaned := [], bins := [], zones := [], sat := 0, histRows := 0,
    errSeen := false, firstEnd := none, lastEnd := (0, 0), gen := none, held := [], heldTicks := [], cut := [], heights := [] }

/-- What a receiver gathers of a frame for its metadata (R313, R314). `gens`: the adapter generations (cargo, generation) in
force for its rows (R204). -/
structure FrameRec where
  frame : Nat
  refSeq : Nat
  refTime : Nat
  sof : Nat
  lastTime : Option Nat
  short : Bool
  long : Bool
  good : Nat
  replaced : Nat
  trigLate : Bool
  gens : List (Nat × Nat)
deriving DecidableEq, Repr

/-- An output row-group to emit (R307): frame, group, rows, start in picoseconds, T_tick in picoseconds, the tick count of its
input row-group, whether it is the frame's last. -/
structure TxGroup where
  frame : Nat
  group : Nat
  rows : Nat
  start : Nat
  iv : Nat
  tick : Nat
  last : Bool
deriving DecidableEq, Repr

/-- A transmitter's keys in force. -/
structure TxCfg where
  src : Nat
  phy : Nat
  lanes : Nat
  rate : Nat
  vc : Nat
  dt : Nat
  width : Nat
  band : Nat
  group : Nat
  entry : Nat
  slotAddr : Nat
  pcie : Nat
deriving DecidableEq, Repr

def TxCfg.reset : TxCfg := ⟨0, 0, 4, 2500, 0, 0x1F, 8192, 512, 16, 0, 0, 0⟩

/-- The host buffer of a frame (R311): still to be taken; taken, with its ring, index, tag, address, length and the bytes of the
frame so far. -/
inductive TxBuf where
  | wanted
  | taken (ring index tag addr len bytes : Nat)
deriving DecidableEq, Repr

/-- A transmitter: the frame in progress, and whether only its Frame Start has been sent (R309); errors, the last frame sent; groups to come, the group in emission with its next row
and, per band, the slot it is sent from (none: zero bytes); what each band last emitted in the frame and before that, as (band, group, slot);
what each slot declared at the last completion as (band, slot, frame, group) (R306); substitution in the frame; the last tick
of the previous frame's window (R315); the host buffer; and what was sent, newest first, as (data type, bytes). -/
structure Tx where
  cfg : TxCfg
  inFrame : Option Nat
  ahead : Bool
  err : BitVec 2
  frame : W32
  groups : List TxGroup
  cur : Option TxGroup
  row : Nat
  bandSlot : List (Option Nat)
  lastSent : List (Nat × Nat × Nat)
  ready : List (Nat × Nat × Nat × Nat)
  subst : Bool
  winEnd : Option Nat
  buf : Option TxBuf
  sent : List (Nat × List Byte)
deriving DecidableEq, Repr

def Tx.reset : Tx :=
  { cfg := TxCfg.reset, inFrame := none, ahead := false, err := 0, frame := 0, groups := [], cur := none, row := 0, bandSlot := [],
    lastSent := [], ready := [], subst := false, winEnd := none, buf := none, sent := [] }

/-- A sensor trigger (R302): level active, and its pulses to come, the one in progress first, as SYSTIMEs of start and end. -/
structure Trig where
  active : Bool
  pulses : List (Nat × Nat)
deriving DecidableEq, Repr

/-- An I3C transfer (R319, R320, R433): its mailbox, its fields, when it may start, and its start stamp once started. -/
structure I3cXfer where
  mbox : Fin 8
  kind : Nat
  addr : Nat
  ccc : Nat
  refSeq : Nat
  delay : Nat
  len : Nat
  data : List Byte
  due : Option Nat
  started : Option Nat
deriving DecidableEq, Repr

/-- A result group (R317): a record waiting for its publication (dev word bits), and a producer change to publish. -/
structure ResultSt where
  due : Option (Nat × Nat)
  changed : Bool
deriving DecidableEq, Repr

/-- The front end: receivers, transmitters, the last reference stamp and its latch (R322), the references of FRAME ticks
(count, stamp), whether a reference was stamped since RUN_START, IMG_FRAME_SRC and the generator's keys in force, its next
match (R301), triggers with the late mark for the next frame of each receiver (R303), I3C queues and the references of the
frame-synchronous transfers completed (R313), frames in assembly per receiver, newest first, result groups. -/
structure Img where
  rx : Vector Rx 2
  tx : Vector Tx 2
  ref : W64
  refLatch : W32
  refSeen : Bool
  refTicks : List (Nat × Nat)
  frameSrc : Nat
  genPeriod : Nat
  genPhase : Nat
  genNext : Nat
  trig : Vector Trig 2
  trigLate : Vector Bool 2
  i3c : Vector (List I3cXfer) 2
  i3cDone : List Nat
  frames : Vector (List FrameRec) 2
  results : Vector ResultSt 3
deriving DecidableEq, Repr

def Img.reset : Img :=
  { rx := Vector.replicate 2 Rx.reset, tx := Vector.replicate 2 Tx.reset, ref := 0, refLatch := 0,
    refSeen := false, refTicks := [], frameSrc := 0, genPeriod := 16666667, genPhase := 0, genNext := 0,
    trig := Vector.replicate 2 ⟨false, []⟩, trigLate := Vector.replicate 2 false, i3cDone := [],
    i3c := Vector.replicate 2 [], frames := Vector.replicate 2 [], results := Vector.replicate 3 ⟨none, false⟩ }

end Sys2Proof.Machine
end

