-- ==== Sys2Proof/Machine/LinkState.lean ====
section
/-! DEFINITION. The state of the Zorud link and of time synchronisation (chapter 13). -/

namespace Sys2Proof.Machine

/-- A Zorud port (R477 to R489, R521). `nbr…`: the neighbour's last HELLO and when it came; `errTimes`: SYSTIMEs of the CRC
errors of the last 1 ms (R479); `storm`: its CRC storm test is to run or running; `q0`, `q1`: frames waiting at the output
per priority, oldest first, with the SYSTIME their wait began; `credit`: 64-byte units of the neighbour's buffer free per
priority (R484); `retry`: SYSTIME of the next training attempt (R478); `helloDue`:
SYSTIME of the next HELLO (R489); `sent`: frames sent, newest first. -/
structure ZPort where
  enabled : Bool
  up : Bool
  lanes : BitVec 4
  nbrIndex : Byte
  nbrPort : Nat
  nbrHello : Option Nat
  nbrLocked : Bool
  nbrHops : Byte
  dup : Bool
  crc : W32
  stomp : W32
  tx : W32
  rx : W32
  drop : W32
  errTimes : List Nat
  storm : Bool
  q0 : List (ZFrame × Nat)
  q1 : List (ZFrame × Nat)
  credit0 : Nat
  credit1 : Nat
  retry : Nat
  helloDue : Nat
  sent : List ZFrame
deriving DecidableEq, Repr

def ZPort.reset : ZPort :=
  { enabled := false, up := false, lanes := 0, nbrIndex := 0xFF, nbrPort := 0, nbrHello := none, nbrLocked := false,
    nbrHops := 0xFF, dup := false, crc := 0, stomp := 0, tx := 0, rx := 0, drop := 0, errTimes := [], storm := false,
    q0 := [], q1 := [], credit0 := 256, credit1 := 256, retry := 0, helloDue := 0, sent := [] }

/-- A transfer tracker (R495). -/
structure Tracker where
  src : Byte
  id : W16
  count : W32
  bad : Bool
  last : Nat
deriving DecidableEq, Repr

/-- A transmit stream's settings (R497, R515); kind 0 is off. -/
structure TxStream where
  kind : Nat
  source : Nat
  k : Nat
  ring : Nat
  unitBytes : Nat
  dests : Nat
deriving DecidableEq, Repr

def TxStream.off : TxStream := ⟨0, 0, 0, 0, 0, 0⟩

/-- A receive stream (R498 to R501, R515): its settings (`on` whether it is set), whether a frame has started it, the unit
awaiting finalisation, its parts received, its last part once known, its sender flag and stamp, the last stamp received with
its unit, the SYSTIME of the last frame, stalled, resumed on the next unit, and the two counters. -/
structure RxStream where
  on : Bool
  k : Nat
  ring : Nat
  unitBytes : Nat
  src : Nat
  stream : Nat
  periodNs : Nat
  dueUs : Nat
  raise : W32
  started : Bool
  unit : W32
  parts : List Nat
  unlocked : Bool
  stamp : Option Nat
  base : Nat × Nat
  lastFrame : Nat
  stalled : Bool
  resumed : Bool
  missing : W32
  late : W32
deriving DecidableEq, Repr

def RxStream.off : RxStream :=
  { on := false, k := 2, ring := 0, unitBytes := 0, src := 0, stream := 0, periodNs := 0, dueUs := 0, raise := 0,
    started := false, unit := 0, parts := [], unlocked := false, stamp := none, base := (0, 0), lastFrame := 0,
    stalled := false, resumed := false, missing := 0, late := 0 }

/-- What a CTRL message of this device is for (R505): the check of a receive stream (R504), or the probe of a LINK_INFO in
a mailbox (R516). -/
inductive CtrlWhy where
  | check (rx : Fin 16)
  | probe (m : Fin 8)
  | answer
deriving DecidableEq, Repr

/-- A CTRL frame sent and not acknowledged: message id, destination, payload, sends so far, SYSTIMEs of the first and of the
last send. -/
structure CtrlOut where
  id : W16
  dst : Byte
  payload : List Byte
  sends : Nat
  first : Nat
  last : Nat
  why : CtrlWhy
deriving DecidableEq, Repr

/-- The link: ports, the rate of every enabled port (0 off, 1, 2), LNK_ERR, LNK_LOCAL_DROP, the routing table, ttl, the
transfer id counter, trackers, streams, CTRL messages outstanding and the last 64 ids seen from each source. -/
structure Link where
  port : Vector ZPort 4
  rate : Nat
  err : BitVec 15
  localDrop : W32
  route : Vector Byte 48
  ttl : Nat
  xferId : W16
  trackers : List Tracker
  txs : Vector TxStream 16
  rxs : Vector RxStream 16
  msgId : W16
  out : List CtrlOut
  seen : List (Byte × List W16)
deriving DecidableEq, Repr

def Link.reset : Link :=
  { port := Vector.replicate 4 ZPort.reset, rate := 0, err := 0, localDrop := 0, route := Vector.replicate 48 0xFF,
    ttl := 31, xferId := 0, trackers := [], txs := Vector.replicate 16 TxStream.off, rxs := Vector.replicate 16 RxStream.off,
    msgId := 0, out := [], seen := [] }

/-- Time synchronisation (R506 to R518), in sixteenths of a nanosecond where the rules use them. `req`: t1 of the exchange
in progress; `misses`: intervals without a response; `first`: the next exchange is the first after TIME_SYNC or an unlock;
`ever`: locked at some time; `reqAt`: SYSTIME of the last request. -/
structure Time where
  role : Nat
  upstream : Fin 4
  step : Bool
  interval : Nat
  kp : Nat
  ki : Nat
  asym : Int
  theta : Int
  delay : Int
  integ : Int
  steer : Int
  good : Nat
  bad : Nat
  locked : Bool
  ever : Bool
  hops : Byte
  exchanges : W32
  req : Option Nat
  reqAt : Nat
  misses : Nat
  first : Bool
deriving DecidableEq, Repr

def Time.reset : Time :=
  { role := 0, upstream := 0, step := false, interval := 125, kp := 256, ki := 8, asym := 0, theta := 0, delay := 0,
    integ := 0, steer := 0, good := 0, bad := 0, locked := false, ever := false, hops := 0xFF, exchanges := 0, req := none,
    reqAt := 0, misses := 0, first := true }

end Sys2Proof.Machine
end

