-- ==== Sys2Proof/Machine/PwrState.lean ====
section
/-! DEFINITION. The state of power, the listening cascade, health and firmware (chapters 14 to 16). -/

namespace Sys2Proof.Machine

/-- Who asked for a mode change (R531): a mailbox's PWR_MODE, the cascade, thermal shutdown, boot. -/
inductive ModeBy where
  | host (m : Fin 8)
  | cascade
  | thermal
  | boot
deriving DecidableEq, Repr

/-- A mode change in progress (R529): old and new mode, reaches still to power down (in the order of R524) and then to
power up, who asked, and whether a cascade session was ended. -/
structure ModeChange where
  old : Nat
  new : Nat
  down : List (Fin 10)
  up : List (Fin 10)
  by_ : ModeBy
  dropped : Bool
deriving DecidableEq, Repr

/-- Power (R528 to R547): mode, the LINK request, WATCH's cluster, cause of the last change, the change in progress, CONTROL
to power down 10 ms after a reply (R529: SYSTIME), CONTROL asked for by GLB_WAKE (R465); throttle level, junction
temperature, SYSTIME since shutdown is armed. -/
structure Pwr where
  mode : Nat
  linkReq : Bool
  watch : Fin 4
  cause : Bool
  change : Option ModeChange
  ctrlOff : Option Nat
  wake : Bool
  level : Nat
  tj : W16
  armed : Option Nat
deriving DecidableEq, Repr

def Pwr.reset : Pwr :=
  { mode := 0, linkReq := false, watch := 0, cause := false, change := none, ctrlOff := none, wake := false, level := 0,
    tj := 0, armed := none }

/-- A listen ring record (R535). -/
structure RingRec where
  seq : W32
  flags : W16
  rflags : W16
  stamp : Nat
  data : List Byte
deriving DecidableEq, Repr

/-- A session of stage 2 or 3 (R542): its number, mark, code and confidence, the seq of the next record to replay, the
count of slots written; whether a credit was granted for the next slot, whether one is waited for, and the SYSTIME since which
it waits or is paused (R546). -/
structure Session where
  num : W32
  mark : Nat
  code : W16
  conf : W16
  next : W32
  slot : Nat
  credit : Bool
  waiting : Bool
  since : Option Nat
deriving DecidableEq, Repr

/-- A cascade stage n + 2 (stages 2 and 3): the sessions begun, the session running, the pending wake (mark, code,
confidence). -/
structure Stage where
  count : W32
  session : Option Session
  pending : Option (Nat × W16 × W16)
deriving DecidableEq, Repr

/-- The cascade (R535 to R545): the listen ring, oldest record first, the record that waits for its DSP0 track (R536), whether
the ring is being written; the last wake_seq
seen of stages 1 to 3 and done_seq of stages 2 and 3 (none until first read); stages 2 and 3; an answer waiting (R543). -/
structure Casc where
  ring : List RingRec
  held : Option RingRec
  writing : Bool
  wakeSeen : List (Option W32)
  doneSeen : List (Option W32)
  stage : Vector Stage 2
  result : Bool
  autoWatch : Bool
deriving DecidableEq, Repr

def Casc.reset : Casc :=
  { ring := [], held := none, writing := false, wakeSeen := [none, none, none], doneSeen := [none, none, none],
    stage := Vector.replicate 2 ⟨0, none, none⟩, result := false, autoWatch := false }

/-- A unit under test (R551, R552, R575). -/
inductive TestUnit where
  | core (co : CoreId) (unit : Nat) (bank : Nat)
  | engine (co : CoreId) (engine : EngineKind)
  | array (co : CoreId)
  | clusterRow (c : Fin 4) (row : Nat)
  | clusterBank (c : Fin 4) (bank : Nat)
  | dspBlock (d : Fin 4) (block : Nat)
  | zport (p : Fin 4)
deriving DecidableEq, Repr

/-- A self-test: pending until its fixed point, due (its core fenced), running. -/
inductive TestState where
  | pending | due | running
deriving DecidableEq, Repr

/-- A self-test (R551 to R553): its number, unit, state, trigger code, the SYSTIME of its detection and of its start, 8-byte
granules moved as zeros, the mailbox whose HEALTH_SELFTEST asked for it. -/
structure Test where
  tid : Nat
  unit : TestUnit
  st : TestState
  trigger : Nat
  found : Nat
  start : Option Nat
  zeroed : Nat
  mbox : Option (Fin 8)
deriving DecidableEq, Repr

/-- A HEALTH_SELFTEST in flight (R575): what its reply counts so far; `left`: its tests still to end; `range`: its DRAM row
range, for kind 2. -/
structure HostTest where
  mbox : Fin 8
  kind : Nat
  instance_ : Nat
  left : Nat
  tested : Nat
  passed : Nat
  repaired : Nat
  fenced : Nat
  range : Option Nat
deriving DecidableEq, Repr

/-- Health: the heartbeat (R473: progress, misses, the period in force, seen in the present period, SYSTIME at which the
period ends), resets and restarts begun (R572), tests, spares left
of a unit's bank or memory as (kind, instance, index, left) where not all are left (R552), the SYSTIMEs of the corrected errors
of an SRAM bank within the last second (R220, R550), the memory rows and banks and the Zorud ports that a test has fenced (R553),
SELFTEST requests of the host, a
firmware restart in progress with the misses reported, the commands it ended and its SYSTIME (R558). -/
structure Health where
  progress : W32
  missed : W16
  period : Nat
  seen : Bool
  due : Nat
  misses : Nat
  begun : List Nat
  tests : List Test
  nextTid : Nat
  spares : List (Nat × Nat × Nat × Nat)
  sramCe : List ((SramUnit × Nat) × List Nat)
  fencedUnits : List TestUnit
  host : List HostTest
  restart : Option (Nat × Nat × Nat)
  escLimit : Nat
  escWindow : Nat
deriving DecidableEq, Repr

def Health.reset : Health :=
  { progress := 0, missed := 0, period := 1000, seen := false, due := 1000000, misses := 3, begun := [],
    tests := [], nextTid := 0, spares := [], sramCe := [], fencedUnits := [], host := [], restart := none, escLimit := 3, escWindow := 10 }

/-- Firmware and its store (R579 to R600): the running slot (0xFF boot ROM), whether it runs, whether it runs the boot ROM's
RECOVERY service; the image copied into staging; the open load (target, declared length, bytes written, SYSTIME of the last
FW_LOAD); what FW_INFO reports of this boot; the subsystem IDs in force. -/
structure Fw where
  slot : Byte
  running : Bool
  image : List Byte
  load : Option (Nat × Nat × Nat × Nat)
  settings : W16
  source : Nat
  expired : Bool
  bootCommit : W16
  schema : Nat
  generation : Nat
  rejected : Nat
  started : Bool
  starting : Bool
  subVendor : W16
  subId : W16
deriving DecidableEq, Repr

def Fw.reset : Fw :=
  { slot := 0xFF, running := false, image := [], load := none, settings := 0, source := 0, expired := false, bootCommit := 0,
    schema := 0, generation := 0, rejected := 0, started := false, starting := false, subVendor := 0, subId := 0 }

end Sys2Proof.Machine
end

