-- ==== Sys2Proof/Machine/TrcState.lean ====
section
/-! DEFINITION. The state of trace, counters, JTAG and on-device adaptation (chapters 17 and 5). -/

namespace Sys2Proof.Machine

/-- A trace unit (R601 to R607): its filter, its FIFO of packets, oldest first (16 bytes, or 64 for SYNC), the sequence of
the next packet, the pending LOST (count, SYSTIME of the first), packets lost since the last clear, packets produced and
lost since VIN application, produced since the last REACH_ON, SYSTIME of the last packet and of the last SYNC. -/
structure TrcUnit where
  filter : W32
  fifo : List (List Byte)
  seq : Byte
  lost : Option (Nat × Nat)
  lostClear : W32
  produced : W64
  lostAll : W32
  sinceOn : W32
  last : Nat
  lastSync : Nat
deriving DecidableEq, Repr

def TrcUnit.reset : TrcUnit :=
  { filter := 0x80000000, fifo := [], seq := 0, lost := none, lostClear := 0, produced := 0, lostAll := 0, sinceOn := 0,
    last := 0, lastSync := 0 }

/-- The TRC_CLIP registers (R611). -/
structure ClipRegs where
  sel : W32
  ceil : W32
  cal : W32
  share : W32
  state : W32
  max : W32
  clipped : Nat
  total : Nat
  steps : W32
deriving DecidableEq, Repr

def ClipRegs.reset : ClipRegs := ⟨0, 0, 0, 0, 0, 0, 0, 0, 0⟩

/-- Trace (R601 to R612): control, units, the sink with its head offset, wraps, dropped markers and bytes held in STOP
mode, the unit served last, PERST_L releases since VIN application, counters that are not 0 and their snapshots (R609),
the clip-slot readout, layer watcher selections, and per watcher the flags its current step raised, with bit 16 once its layer was executed. -/
structure Trc where
  enable : Bool
  mode : Bool
  freeze : Bool
  syncPeriod : Nat
  unit : Vector TrcUnit 10
  sink : Mem
  head : Nat
  wraps : Nat
  held : Nat
  dropped : W32
  turn : Nat
  epoch : W16
  cnt : List (Nat × Nat)
  snap : List (Nat × Nat)
  clip : ClipRegs
  lw : Vector W32 8
  lwFlags : Vector Nat 8
deriving DecidableEq, Repr

def Trc.reset : Trc :=
  { enable := true, mode := false, freeze := false, syncPeriod := 1000, unit := Vector.replicate 10 TrcUnit.reset,
    sink := Mem.empty, head := 0, wraps := 0, held := 0, dropped := 0, turn := 0, epoch := 1, cnt := [], snap := [],
    clip := ClipRegs.reset, lw := Vector.replicate 8 0, lwFlags := Vector.replicate 8 0 }

/-- Trace as BOOT begins for the first time (R604, R605): the TOWPATH unit holds REACH_ON with cause 2 and a SYNC. -/
def Trc.boot : Trc :=
  { Trc.reset with
    unit := vset Trc.reset.unit 0
      { TrcUnit.reset with
        fifo := [[3, 0, 1, 0, 2, 0, 0, 0] ++ zeros 8,
          [1, 0, 4, 1] ++ zeros 12 ++ ([0xFF, 1, 1, 0, 0, 0, 0, 0x80, 1] ++ zeros 7) ++ ([0xFF] ++ zeros 7 ++ [1] ++ zeros 7) ++
            ([0xFF] ++ zeros 15)],
        seq := 2, produced := 2, sinceOn := 1 } }

/-- The JTAG port (R613 to R615): the selected instruction, the boundary scan cells, the bypass bit, the debug address and
data. -/
structure Jtag where
  ir : Byte
  cells : List Bool
  bypass : Bool
  addr : W32
  data : W32
deriving DecidableEq, Repr

def Jtag.reset : Jtag := ⟨0xFF, [], false, 0, 0⟩

/-- A group of 32 weights of a quantised adapter column (R203): scale, weights, group sum. -/
structure AdaptGroup where
  scale : W16
  weights : List Int
  gsum : Int
deriving DecidableEq, Repr

/-- An adaptation job (R198 to R207, R437): cargo, entry, owner, auto-commit, region, frames to capture and captured,
iterations wanted, completed and dropped, stale rows, SYSTIME of its limit, phase (1 capture, 2 iterating, 3 evaluating,
4 awaiting takeover), the last row captured (frame times 65,536 plus row), the losses of ADAPT_DONE, and of a commit the
quantised adapter written (R203). -/
structure Job where
  cargo : Nat
  entry : Nat
  owner : Nat
  auto : Bool
  region : Nat
  black : Nat
  footage : Nat
  captured : Nat
  want : Nat
  done : Nat
  dropped : Nat
  stale : W32
  limit : Nat
  phase : Nat
  pos : Nat
  before : W32
  after : W32
  groups : List AdaptGroup
deriving DecidableEq, Repr

/-- The adapter of a cargo: its generation, active half and quantised groups (R203, R204), where a job of it committed one. -/
structure Adapter where
  cargo : Nat
  generation : Nat
  half : Nat
  groups : List AdaptGroup
deriving DecidableEq, Repr

end Sys2Proof.Machine
end

