-- ==== Sys2Proof/Machine/State.lean ====
section
/-! DEFINITION. The whole state of the device, its value at reset, and the outcomes that are no next state. -/

namespace Sys2Proof.Machine

/-- Ways a command stops although it is legal to send. -/
inductive Fault where
  /-- Raised by a vector instruction in a lane format that the table of R222 does not list for it, and by a VLD or VST that
  goes beyond v31 or beyond local memory (R225; log entries 148, 149). Safe: the machine stops where the spec gives no
  effect. -/
  | illegalVectorForm
deriving DecidableEq, Repr

/-- Ways the model turns a command away. -/
inductive Refusal where
  /-- A command without a meaning yet, by its mnemonic. Safe. -/
  | notModelled (mnemonic : String)
deriving DecidableEq, Repr

/-- The device states (chapter 0, R447), in the order of their codes 0 to 7. -/
inductive DevState where
  | off | boot | configHold | ready | running | degraded | recovery | outOfService
deriving DecidableEq, Repr

/-- The code of a device state in SYS_INFO and GLB_STATE. -/
def DevState.code : DevState → Nat
  | .off => 0
  | .boot => 1
  | .configHold => 2
  | .ready => 3
  | .running => 4
  | .degraded => 5
  | .recovery => 6
  | .outOfService => 7

/-- What TOWPATH holds of the whole device: its state, the reaches powered, index and system size (R487), SYSTIME and the
fraction of its servo (R508), supply and reset (R619 to R624): VIN within range, a VIN over-voltage in force, TOWPATH up (from
VIN or from the hold-up charge), PERST_L asserted. -/
structure Dev where
  state : DevState
  powered : BitVec 10
  index : Byte
  size : Option Nat
  systime : W64
  frac : W32
  vin : Bool
  vinOver : Bool
  towpath : Bool
  perst : Bool
deriving DecidableEq, Repr

/-- The reset point: PERST_L has just been released with VIN within range (R447, R587; log entry 1). -/
def Dev.reset : Dev :=
  { state := .boot, powered := 1, index := 0xFF, size := none, systime := 0, frac := 0, vin := true, vinOver := false,
    towpath := true, perst := false }

/-- The state of the YX4800 and the queue of commands that wait. `fresh` and `epoch` are the model's own: how many free
values and how many undefined memory contents have been drawn (log entry 2). `globalIn`: raises on their way to the global
keeper (R243). `used`: bytes a context has moved in a partition in the present budget period, the
`period`th microsecond (R265). -/
structure State where
  pending : List Instr
  fresh : Nat
  epoch : Nat
  dev : Dev
  cfg : Cfg
  sched : Sched
  clusters : Vector Cluster 4
  globalLocks : Keeper
  globalIn : List (Nat × Nat)
  barges : List Barge
  nextBid : Nat
  cargos : List Cargo
  dram : Mem
  host : Mem
  poison : List Nat
  parts : Vector Part 4
  ctxs : List (Nat × Ctx)
  used : List ((Nat × Fin 4) × Nat)
  period : Nat
  rings : List (Nat × Ring)
  mboxes : Vector Mbox 8
  posts : Nat
  pcie : Pcie
  glb : Glb
  status : StatusSt
  log : LogSt
  img : Img
  aud : Aud
  dsps : Vector Dsp 4
  link : Link
  time : Time
  pwr : Pwr
  casc : Casc
  health : Health
  nor : Mem
  fw : Fw
  trc : Trc
  jtag : Jtag
  jobs : List Job
  adapters : List Adapter
deriving DecidableEq, Repr

/-- Context 0 at boot: class BACKGROUND, a quota of 16384 blocks, an unlimited budget (R409). -/
def Ctx.zero : Ctx :=
  { cls := 2, quota := 16384, budget := 0, budgetSet := 0, setStamp := none, overQuota := false }

/-- The status map as the first publication of the state group leaves it (R472, R474): ST_SIG, ST_MAP_VER, sequence 1, state
BOOT, reach 0, no index, four cores a cluster. -/
def StatusSt.reset : StatusSt :=
  let m := (Mem.empty.putLe 0 2 0x4800).putLe 2 2 0x0100
  let m := ((m.putLe 8 2 1).putLe 10 2 1).putLe 12 2 1
  ⟨((m.putLe 14 2 0xFF).putLe 16 2 0x4444).putLe 22 2 1, false, 1000000⟩

/-- The state at reset (log entry 1). -/
def State.reset : State :=
  { pending := [], fresh := 0, epoch := 0, dev := Dev.reset, cfg := Cfg.reset, sched := Sched.reset,
    clusters := Vector.replicate 4 Cluster.init, globalLocks := Keeper.reset, globalIn := [], barges := [], nextBid := 0,
    cargos := [], dram := Mem.empty, host := Mem.empty, poison := [], parts := Vector.replicate 4 Part.reset,
    ctxs := [(0, Ctx.zero)], used := [], period := 0, rings := [], mboxes := Vector.replicate 8 Mbox.reset, posts := 0,
    pcie := Pcie.reset, glb := Glb.reset, status := StatusSt.reset, log := LogSt.reset, img := Img.reset, aud := Aud.reset,
    dsps := Vector.replicate 4 Dsp.reset, link := Link.reset, time := Time.reset, pwr := Pwr.reset, casc := Casc.reset,
    health := Health.reset, nor := Mem.empty, fw := Fw.reset, trc := Trc.boot, jtag := Jtag.reset, jobs := [],
    adapters := [] }

end Sys2Proof.Machine
end

