-- ==== Sys2Proof/Machine/Ops.lean ====
section
/-! DEFINITION. The operations every family shares: access to parts of the state, check codes, trace packets, the event
log, interrupts, rings, events, and the device state. -/

namespace Sys2Proof.Machine

/-- SYSTIME as a number of nanoseconds. -/
def State.now (s : State) : Nat := s.dev.systime.toNat

/-- Whether a reach is powered (R522). -/
def State.on (s : State) (r : Nat) : Bool := s.dev.powered.getLsbD r

/-- The reach of a cluster (R522). -/
def clusterReach (c : Fin 4) : Nat := 6 + c.val

/-- The power reach of a DSP: DSP0 LISTEN, the others AUDIO. -/
def dspReach (d : Fin 4) : Nat := if d = 0 then 1 else 2

/-- The state with one cluster changed. -/
def State.modCl (s : State) (c : Fin 4) (f : Cluster → Cluster) : State := { s with clusters := vmod s.clusters c f }

/-- The state with one partition's DRAM state changed. -/
def State.modPart (s : State) (p : Fin 4) (f : Part → Part) : State := { s with parts := vmod s.parts p f }

/-- The state with one mailbox changed. -/
def State.modMbox (s : State) (m : Fin 8) (f : Mbox → Mbox) : State := { s with mboxes := vmod s.mboxes m f }

/-- The state with one receiver changed. -/
def State.modRx (s : State) (n : Fin 2) (f : Rx → Rx) : State := { s with img := { s.img with rx := vmod s.img.rx n f } }

/-- The state with one transmitter changed. -/
def State.modTx (s : State) (n : Fin 2) (f : Tx → Tx) : State := { s with img := { s.img with tx := vmod s.img.tx n f } }

/-- The state with one audio port changed. -/
def State.modAud (s : State) (n : Fin 5) (f : Port → Port) : State :=
  { s with aud := { s.aud with port := vmod s.aud.port n f } }

/-- The state with one APLL changed. -/
def State.modApll (s : State) (m : Fin 2) (f : Apll → Apll) : State :=
  { s with aud := { s.aud with apll := vmod s.aud.apll m f } }

/-- The PDM group's keys in force (R358). -/
def State.pdmCfg (s : State) : PortCfg := s.aud.port[(4 : Fin 5)].cfg

/-- The state with one DSP changed. -/
def State.modDsp (s : State) (d : Fin 4) (f : Dsp → Dsp) : State := { s with dsps := vmod s.dsps d f }

/-- The state with one Zorud port changed. -/
def State.modZp (s : State) (p : Fin 4) (f : ZPort → ZPort) : State :=
  { s with link := { s.link with port := vmod s.link.port p f } }

/-- The state with one ring changed. -/
def State.modRing (s : State) (r : Nat) (f : Ring → Ring) : State :=
  { s with rings := s.rings.map (fun e => if e.1 = r then (e.1, f e.2) else e) }

/-- The state with the runs of one number changed. -/
def State.modRun (s : State) (rid : Nat) (f : Run → Run) : State :=
  { s with sched := { s.sched with runs := s.sched.runs.map (fun r => if r.rid = rid then f r else r) } }

/-- The run of a number. -/
def State.run? (s : State) (rid : Nat) : Option Run := s.sched.runs.find? (fun r => r.rid = rid)

/-- The state with one entry's kept values changed. -/
def State.modEntry (s : State) (id : Nat) (f : EntrySt → EntrySt) : State :=
  { s with sched := { s.sched with entries := s.sched.entries.map (fun e => if e.id = id then f e else e) } }

/-- What is kept for an entry. -/
def State.entry? (s : State) (id : Nat) : Option EntrySt := s.sched.entries.find? (fun e => e.id = id)

/-- A key of the committed configuration. -/
def State.key (s : State) (k : Key) : Nat := KeySet.get s.cfg.committed k

/-- Draw a fresh free number (log entry 2). -/
def State.draw (s : State) : Nat × State := (Config.freeNat s.fresh, { s with fresh := s.fresh + 1 })

/-- Take a new epoch for content that becomes undefined (log entry 8). -/
def State.newEpoch (s : State) : Nat × State := (s.epoch, { s with epoch := s.epoch + 1 })

/-- One step of a bitwise CRC, reflected: shift right, fold in the polynomial. -/
def crcBit (poly c : Nat) : Nat := if c % 2 = 1 then (c / 2) ^^^ poly else c / 2

/-- CRC-32C (polynomial 0x1EDC6F41, reflected) of a byte string (RFC 3720; R482, R214, R581). -/
def crc32c (l : List Byte) : Nat :=
  (l.foldl (fun c b => (List.range 8).foldl (fun c _ => crcBit 0x82F63B78 c) (c ^^^ b.toNat)) 0xFFFFFFFF) ^^^ 0xFFFFFFFF

/-- CRC-16 with polynomial 0x1021, initial value 0xFFFF, each byte most significant bit first (R482). -/
def crc16 (l : List Byte) : Nat :=
  l.foldl (fun c b => (List.range 8).foldl
    (fun c _ => if c ≥ 0x8000 then ((c * 2) % 0x10000) ^^^ 0x1021 else (c * 2) % 0x10000) (c ^^^ (b.toNat * 256))) 0xFFFF

/-! ### Interrupts (R461 to R463) -/

/-- The OR of every IMG_RX_ERR and IMG_TX_ERR bit (R461). -/
def State.imgCause (s : State) : Bool :=
  s.img.rx.toList.any (fun r => r.err ≠ 0) || s.img.tx.toList.any (fun t => t.err ≠ 0)

/-- The OR of every AUD_PORT_ERR bit and AUD_VAUX_STATUS.fault (R461). -/
def State.audCause (s : State) : Bool := s.aud.port.toList.any (fun p => p.err ≠ 0) || s.aud.vaux.fault

/-- The contents of GLB_INT_CAUSE (R461). -/
def State.causes (s : State) : W16 :=
  (s.glb.cause &&& 0xF8FF) ||| (if s.link.err ≠ 0 then 0x400 else 0) ||| (if s.audCause then 0x200 else 0) |||
    (if s.imgCause then 0x100 else 0)

/-- The vector of cause i (GLB_INT_VECk). -/
def State.causeVec (s : State) (i : Nat) : Nat := bits ((s.glb.vec.toList.getD (i / 4) 0).toNat) (8 * (i % 4)) 6

/-- P_v of R462 for every vector v. -/
def State.pending64 (s : State) : BitVec 64 :=
  (List.range 16).foldl
    (fun p i => if (s.causes &&& s.glb.enable).getLsbD i then p ||| (1#64 <<< s.causeVec i) else p) 0

/-- Send an MSI-X vector, or set its pending bit while it is masked (R463). -/
def State.sendVec (s : State) (v : Nat) : State :=
  if s.pcie.masked.getLsbD v then { s with pcie := { s.pcie with pend := s.pcie.pend ||| (1#64 <<< v) } }
  else { s with pcie := { s.pcie with sent := v :: s.pcie.sent } }

/-- Send every vector whose P_v has become 1, and remember P (R462). -/
def State.irqSync (s : State) : State :=
  let p := s.pending64
  let s := (List.range 64).foldl (fun s v => if p.getLsbD v && !s.glb.prevP.getLsbD v then s.sendVec v else s) s
  { s with glb := { s.glb with prevP := p } }

/-- Set a cause of GLB_INT_CAUSE (R461). -/
def State.setCause (s : State) (i : Nat) : State :=
  State.irqSync { s with glb := { s.glb with cause := s.glb.cause ||| (1#16 <<< i) } }

/-- Set bits of AUD_PORT_ERR of a port (R360). -/
def State.audErr (s : State) (n : Fin 5) (b : BitVec 7) : State :=
  State.irqSync (s.modAud n (fun p => { p with err := p.err ||| b }))

/-- Set bits of LNK_ERR (R521). -/
def State.lnkErr (s : State) (b : BitVec 15) : State :=
  State.irqSync { s with link := { s.link with err := s.link.err ||| b } }

/-! ### Trace packets (R601 to R608) -/

/-- The 16-byte units a packet takes. -/
def packetUnits (p : List Byte) : Nat := (p.length + 15) / 16

/-- The units a FIFO holds. -/
def fifoUnits (f : List (List Byte)) : Nat := (f.map packetUnits).sum

/-- Whether the sink refuses ordinary packets: not enabled, frozen, or in STOP mode with at most 1 KiB left (R603). -/
def Trc.refuses (t : Trc) : Bool := !t.enable || t.freeze || (t.mode && decide (131072 - t.held ≤ 1024))

/-- A packet header (R604). -/
def packetHeader (ty src units seq : Nat) (data : List Byte) (time : Nat) : List Byte :=
  leBytes 1 ty ++ leBytes 1 src ++ leBytes 1 units ++ leBytes 1 seq ++ padTo 4 data ++ leBytes 8 time

/-- Produce a packet of unit r: the header takes the unit's sequence; `must`: only the sink can drop it (R607). `body`: the
units after the first. -/
def TrcUnit.produce (t : Trc) (u : TrcUnit) (r ty hi : Nat) (data : List Byte) (body : List Byte) (time : Nat)
    (must : Bool) : TrcUnit :=
  let units := 1 + (body.length + 15) / 16
  let pkt := packetHeader ty (r + 16 * hi) units u.seq.toNat data time ++ body
  let u := { u with seq := u.seq + 1, produced := u.produced + 1, sinceOn := u.sinceOn + 1, last := time }
  if must || (decide (fifoUnits u.fifo + units ≤ 256) && !t.refuses) then { u with fifo := u.fifo ++ [pkt] }
  else
    { u with
      lost := some (match u.lost with
        | some (n, t0) => (n + 1, t0)
        | none => (1, time)),
      lostClear := if u.lostClear = BitVec.allOnes 32 then u.lostClear else u.lostClear + 1, lostAll := u.lostAll + 1 }

/-- The state with one trace unit changed. -/
def State.modTrc (s : State) (r : Fin 10) (f : TrcUnit → TrcUnit) : State :=
  { s with trc := { s.trc with unit := vmod s.trc.unit r f } }

/-- An ordinary packet of class bit `cls` of TRC_FILTER_r: produced only while the unit is enabled, the class is, and the
reach is powered (R601, R612). -/
def State.trace (s : State) (r : Fin 10) (cls ty hi : Nat) (data : List Byte) : State :=
  if s.trc.unit[r].filter.getLsbD 31 && s.trc.unit[r].filter.getLsbD cls && s.on r.val then
    s.modTrc r (fun u => u.produce s.trc r.val ty hi data [] s.now false)
  else s

/-- A marker packet (R604). `must`: never dropped by its unit (R607). -/
def State.traceMarker (s : State) (r : Fin 10) (ty : Nat) (data : List Byte) (must : Bool) : State :=
  if s.trc.unit[r].filter.getLsbD 31 && s.on r.val then
    s.modTrc r (fun u => u.produce s.trc r.val ty 0 data [] s.now must)
  else s

/-- The cores of a cluster that are not fenced. -/
def Cluster.healthy (k : Cluster) : Nat := (k.cores.toList.filter (fun c => !c.test && !c.fenced)).length

/-- Bit p: partition p is in reset (R464). -/
def State.inReset (s : State) : Nat := ((List.finRange 4).map (fun p => if s.clusters[p].reset.isSome then 2 ^ p.val else 0)).sum

/-- A SYNC packet of unit r (R604, R605). -/
def State.traceSync (s : State) (r : Fin 10) : State :=
  let u := s.trc.unit[r]
  let cl : Option (Fin 4) := if h : 6 ≤ r.val then some ⟨r.val - 6, by omega⟩ else none
  let b1 : List Byte := [0xFF] ++ leBytes 1 s.dev.state.code ++ leBytes 2 s.trc.epoch.toNat ++ leBytes 4 u.filter.toNat ++
    leBytes 2 s.dev.powered.toNat ++ leBytes 1 ((cl.map (fun c => s.clusters[c].healthy)).getD 0) ++
    leBytes 1 ((cl.map (fun c => s.clusters[c].kvB)).getD 0) ++ leBytes 4 ((cl.map (fun c => s.clusters[c].lastSeq.toNat)).getD 0)
  let b2 : List Byte := [0xFF] ++ leBytes 1 s.pwr.mode ++ zeros 6 ++ leBytes 8 u.produced.toNat
  let b3 : List Byte := [0xFF] ++ zeros 3 ++ leBytes 4 u.lostAll.toNat ++ zeros 8
  if u.filter.getLsbD 31 && s.on r.val then
    s.modTrc r (fun u =>
      { u.produce s.trc r.val 0x01 0 [] (padTo 16 b1 ++ padTo 16 b2 ++ padTo 16 b3) s.now true with lastSync := s.now })
  else s

/-- REACH_ON of unit r with its cause, then SYNC (R604 to R606). -/
def State.traceReachOn (s : State) (r : Fin 10) (cause : Nat) : State :=
  ((s.traceMarker r 0x03 (leBytes 1 cause) true).modTrc r (fun u => { u with sinceOn := 0 })).traceSync r

/-- The LOST packet of unit r, with the SYNC that follows it (R605, R607). -/
def State.traceLost (s : State) (r : Fin 10) : State :=
  match s.trc.unit[r].lost with
  | none => s
  | some (n, t0) =>
    State.traceSync (s.modTrc r (fun u => { u.produce s.trc r.val 0x04 0 (leBytes 4 n) [] t0 true with lost := none })) r

/-- Write one 16-byte unit into the sink at its head (R601, R603). -/
def Trc.put (t : Trc) (b : List Byte) : Trc :=
  let h := t.head + 16
  { t with
    sink := t.sink.writeBytes t.head (padTo 16 b), head := if h = 131072 then 0 else h,
    wraps := if h = 131072 then (t.wraps + 1) % 4096 else t.wraps, held := min 131072 (t.held + 16) }

/-- Whether a packet is a marker (R604). -/
def isMarker (p : List Byte) : Bool := decide ((p.headD 0).toNat ≤ 6)

/-- Whether what stands at the front of a FIFO continues a SYNC whose first unit the sink has taken. -/
def isContinuation (p : List Byte) : Bool := p.headD 0 == 0xFF

/-- The unit the sink serves next: one in the middle of a SYNC, else round-robin among those with a marker in front, else
round-robin (R601). -/
def Trc.pick (t : Trc) : Option (Fin 10) :=
  let order := (List.range 10).map (fun i => Fin.ofNat 10 (t.turn + 1 + i))
  let has (f : List Byte → Bool) (r : Fin 10) : Bool := (t.unit[r].fifo.head?.map f).getD false
  match order.find? (has isContinuation) with
  | some r => some r
  | none =>
    match order.find? (has isMarker) with
    | some r => some r
    | none => order.find? (has (fun _ => true))

/-- The sink takes one unit in a 250 MHz cycle (R601, R603, R604): a SYNC is first brought to a 64-byte boundary with PAD
units; a refused ordinary packet is dropped and counted by its unit; a marker that finds the reserve full is dropped. -/
def Trc.serve (t : Trc) (now : Nat) : Trc :=
  if !t.enable || t.freeze then t else
  match t.pick with
  | none => t
  | some r =>
    match t.unit[r].fifo with
    | [] => t
    | p :: rest =>
      let t := { t with turn := r.val }
      let full := t.mode && decide (131072 - t.held < 16)
      let mark := isMarker p || isContinuation p
      if !mark && t.refuses then
        { t with
          unit := vmod t.unit r (fun u =>
            { u with
              fifo := rest, lostClear := if u.lostClear = BitVec.allOnes 32 then u.lostClear else u.lostClear + 1,
              lostAll := u.lostAll + 1,
              lost := some (match u.lost with
                | some (n, t0) => (n + 1, t0)
                | none => (1, now)) }) }
      else if full then
        { t with
          unit := vmod t.unit r (fun u => { u with fifo := rest }),
          dropped := if t.dropped = BitVec.allOnes 32 then t.dropped else t.dropped + 1 }
      else if p.headD 0 == 0x01 && decide (t.head % 64 ≠ 0) then
        t.put (packetHeader 0x07 r.val 1 0 [] now)
      else
        let left := p.drop 16
        { t.put (p.take 16) with
          unit := vmod t.unit r (fun u => { u with fifo := if left.isEmpty then rest else left :: rest }) }

/-- The sink takes everything a unit holds, as before its reach powers off (R606). -/
def Trc.flush (now : Nat) : Nat → Trc → Trc
  | 0, t => t
  | n + 1, t => Trc.flush now n (t.serve now)

/-! ### Counters (R609) -/

/-- Add to a counter, modulo 2^64. -/
def State.count (s : State) (i n : Nat) : State :=
  let v := ((assoc s.trc.cnt i).getD 0 + n) % 2 ^ 64
  { s with trc := { s.trc with cnt := if v = 0 then assocDel s.trc.cnt i else assocSet s.trc.cnt i v } }

/-! ### The event log (R569 to R571) -/

/-- Write a record of whole lines at the head of the log. -/
def LogSt.put (l : LogSt) (code flags time : Nat) (data : List Byte) (lines : Nat) : LogSt :=
  let rec0 := leBytes 2 code ++ leBytes 1 lines ++ leBytes 1 flags ++ leBytes 4 l.records.toNat ++ leBytes 8 time ++ data
  let e := l.offset.toNat + 64 * lines
  { l with
    mem := l.mem.writeBytes l.offset.toNat (padTo (64 * lines) rec0), offset := BitVec.ofNat 16 e,
    wraps := if e = 65536 then l.wraps + 1 else l.wraps, records := l.records + 1, lastCode := BitVec.ofNat 16 code }

/-- Write a record, after a LOG_PAD where it would pass the end of the log (R570). The writer is busy one 250 MHz cycle a
line (R569). -/
def LogSt.write (l : LogSt) (code flags time now : Nat) (data : List Byte) (lines : Nat) : LogSt :=
  let free := (65536 - l.offset.toNat) / 64
  if free < lines then
    let l := l.put 0x0A12 0 time [] free
    { l.put code flags time data lines with busyUntil := now + 4 * (free + lines) }
  else { l.put code flags time data lines with busyUntil := now + 4 * lines }

/-- An event reaches the log: written, or coalesced while a record is being written (R571). -/
def State.logEvent (s : State) (code flags : Nat) (data : List Byte) (lines : Nat) : State :=
  if s.now < s.log.busyUntil || s.log.coal.isSome then
    { s with
      log := { s.log with
        coal := some (match s.log.coal with
          | some (n, f, _) => (n + 1, f, code)
          | none => (1, code, code)),
        coalTotal := s.log.coalTotal + 1 } }
  else State.setCause { s with log := s.log.write code flags s.now s.now data lines } 12

/-! ### Rings and events (R438 to R446) -/

/-- Entries of a ring that the consumer has not consumed, for a ring the device produces into. -/
def Ring.used (r : Ring) : Nat := (r.dev - r.host).toNat

/-- Whether a ring the device produces into is full. -/
def Ring.full (r : Ring) : Bool := decide (2 ^ r.n ≤ r.used)

/-- The host address of entry i of a ring. -/
def Ring.slot (r : Ring) (i : Nat) : Nat := r.base + 64 * (i % 2 ^ r.n)

/-- The queue manager reaches host memory: CONTROL powered and Bus Master Enable set (R453; log entry 24). -/
def State.qmUp (s : State) : Bool := s.on 3 && s.pcie.busMaster

/-- Write one entry into a ring and advance the device's index; an armed ring sends its vector (R441). -/
def State.ringPut (s : State) (r : Nat) (e : List Byte) : State :=
  match assoc s.rings r with
  | none => s
  | some g =>
    let s := { s with host := s.host.writeBytes (g.slot g.dev.toNat) (padTo 64 e) }
    let s := s.modRing r (fun g => { g with dev := g.dev + 1, arm := false })
    if g.arm && decide (g.vector < 64) then s.sendVec g.vector else s

/-- An event entry (R445). -/
def eventEntry (code ctx where_ time seq : Nat) (log : Bool) (data : List Byte) : List Byte :=
  leBytes 2 code ++ leBytes 2 (b2n log) ++ leBytes 1 ctx ++ leBytes 1 where_ ++ zeros 2 ++ leBytes 8 time ++ leBytes 4 seq ++
    zeros 4 ++ padTo 40 data

/-- The event ring of a context, or of context 0 (R410). -/
def State.eventRing (s : State) (ctx : Nat) : Option (Nat × Ring) :=
  match s.rings.find? (fun e => e.2.kind = 3 && e.2.ctx = ctx) with
  | some e => some e
  | none => s.rings.find? (fun e => e.2.kind = 3 && e.2.ctx = 0)

/-- Write EVENT_LOST into a ring that dropped events, once it has room (R445). -/
def State.eventLost (s : State) (r : Nat) : State :=
  match assoc s.rings r with
  | none => s
  | some g =>
    match g.dropped with
    | none => s
    | some (n, f, l) =>
      if g.full || !s.qmUp then s else
        let s := s.ringPut r (eventEntry 0x0901 g.ctx 0xFF s.now g.seq.toNat false (leBytes 4 n ++ leBytes 2 f ++ leBytes 2 l))
        s.modRing r (fun g => { g with dropped := none, seq := g.seq + 1 })

/-- Send an event entry to an event ring: dropped and counted when the ring is full (R445). -/
def State.ringEvent (s : State) (r code ctx where_ : Nat) (log : Bool) (data : List Byte) : State :=
  let s := s.eventLost r
  match assoc s.rings r with
  | none => s
  | some g =>
    if g.full || !s.qmUp || g.dropped.isSome then
      s.modRing r (fun g =>
        { g with
          seq := g.seq + 1, lost := true, lostCount := g.lostCount + 1,
          dropped := some (match g.dropped with
            | some (n, f, _) => (n + 1, f, code)
            | none => (1, code, code)) })
    else
      let s := s.ringPut r (eventEntry code ctx where_ s.now g.seq.toNat log data)
      s.modRing r (fun g => { g with seq := g.seq + 1 })

/-- An event of a context (R410, R446): to its event ring, or to context 0's; and to the event log when it is marked Log. -/
def State.event (s : State) (code ctx where_ : Nat) (log : Bool) (data : List Byte) : State :=
  let ring := s.eventRing ctx
  let s := if log then s.logEvent code (b2n ring.isSome) data 1 else s
  match ring with
  | none => s
  | some (r, _) => s.ringEvent r code ctx where_ log data

/-- An event that goes to the event log only. -/
def State.logOnly (s : State) (code : Nat) (data : List Byte) : State := s.logEvent code 0 data 1

/-! ### Device state (R447, R473) -/

/-- A field of the state group changed: it is published within 4 µs (R473). -/
def State.groupChanged (s : State) : State := { s with status := { s.status with stateDue := true } }

/-- Device state, power mode or the partitions in reset changed: the state cause is set too (R461, R473). -/
def State.stateChanged (s : State) : State := State.setCause s.groupChanged 11

/-- Move to a device state. -/
def State.setState (s : State) (d : DevState) : State :=
  if s.dev.state = d then s else State.stateChanged { s with dev := { s.dev with state := d } }

/-- The device is RUNNING or DEGRADED. -/
def State.active (s : State) : Bool := s.dev.state = .running || s.dev.state = .degraded

/-- The device is in one of CONFIG_HOLD, READY, RUNNING and DEGRADED (F of R411's table). -/
def State.served (s : State) : Bool :=
  s.dev.state = .configHold || s.dev.state = .ready || s.dev.state = .running || s.dev.state = .degraded

/-- An entry of the timetable that runs is dormant: its cluster's reach is off (R526). -/
def State.dormant (s : State) (id : Nat) : Bool :=
  (s.sched.tt.bind (fun t => t.entries.find? (fun e => e.id = id))).any (fun e => !s.on (clusterReach e.cluster))

/-- A cause of DEGRADED exists (R447): a fenced unit, a partition in reset, a DEGRADE entry at its alternate point, a halted
DSP. Dormant entries and tasks count for nothing (R526). -/
def State.degradedCause (s : State) : Bool :=
  s.clusters.toList.any (fun k => k.reset.isSome || k.cores.toList.any (fun c => c.test || c.fenced)) ||
    s.sched.entries.any (fun e => e.atAlt && !s.dormant e.id) || !s.health.fencedUnits.isEmpty ||
    (List.finRange 4).any (fun d =>
      s.dsps[d].fenced || s.dsps[d].cond = 2 || (s.on (dspReach d) && s.dsps[d].tasks.any (fun t => t.atAlt)))

/-- RUNNING becomes DEGRADED when a cause exists, and DEGRADED becomes RUNNING when none remains (R447, R47). -/
def State.refresh (s : State) : State :=
  if s.dev.state = .running ∧ s.degradedCause then s.setState .degraded
  else if s.dev.state = .degraded ∧ ¬ s.degradedCause then s.setState .running
  else s

/-- Firmware runs and serves (R560): it has started and no restart is in progress. -/
def State.fwUp (s : State) : Bool := s.fw.running && s.health.restart.isNone

/-! ### Time -/

/-- One 250 MHz cycle of SYSTIME (R508): 4 ns plus the carry of the 32-bit fraction to which 4·s is added. -/
def State.cycle (s : State) : State :=
  let f := (s.dev.frac.toNat : Int) + 4 * s.time.steer
  let carry := f / 4294967296
  { s with
    dev := { s.dev with
      systime := BitVec.ofInt 64 ((s.dev.systime.toNat : Int) + 4 + carry), frac := BitVec.ofInt 32 (f % 4294967296) },
    trc := s.trc.serve s.now }

/-- What the block does on an empty queue: while TOWPATH runs, one 250 MHz cycle passes (log entry 3). -/
def State.idle (s : State) : State := if s.dev.towpath then s.cycle else s

/-! ### Byte payload helpers -/

/-- The four bytes of a word. -/
def w32 (v : W32) : List Byte := leBytes 4 v.toNat

/-- Whether every byte of a list is zero. -/
def allZero (l : List Byte) : Bool := l.all (fun b => b == 0)

end Sys2Proof.Machine
end

