-- ==== Sys2Proof/Machine/LinkOps.lean ====
section
/-! DEFINITION. Sending Zorud frames, and locks: raises, waits and releases (R238 to R246, R484, R490, R496). -/

namespace Sys2Proof.Machine

/-- The 64-byte units of receive buffer a frame takes (R484): header, payload and CRC. -/
def frameUnits (f : ZFrame) : Nat := (20 + f.payload.length + 63) / 64

/-- A frame leaves an output: counted, its credit used (R484). -/
def ZPort.send (p : ZPort) (prio1 : Bool) (f : ZFrame) : ZPort :=
  if prio1 then { p with tx := p.tx + 1, credit1 := p.credit1 - frameUnits f, sent := f :: p.sent }
  else { p with tx := p.tx + 1, credit0 := p.credit0 - frameUnits f, sent := f :: p.sent }

/-- Send what waits at an output, oldest first, while the neighbour has buffer for it; `n` bounds the frames looked at. -/
def ZPort.drain (prio1 : Bool) : Nat → ZPort → ZPort
  | 0, p => p
  | n + 1, p =>
    match (if prio1 then p.q1 else p.q0) with
    | [] => p
    | (f, _) :: rest =>
      if frameUnits f ≤ (if prio1 then p.credit1 else p.credit0) then
        ZPort.drain prio1 n ((if prio1 then { p with q1 := rest } else { p with q0 := rest }).send prio1 f)
      else p

/-- A frame comes to the output of a port (R484): sent, or it waits for credit; discarded where the port is down. -/
def State.output (s : State) (p : Fin 4) (prio1 : Bool) (f : ZFrame) : State :=
  if !s.link.port[p].up || !s.on 5 then s.modZp p (fun z => { z with drop := z.drop + 1 })
  else
    s.modZp p (fun z =>
      let z := if prio1 then { z with q1 := z.q1 ++ [(f, s.now)] } else { z with q0 := z.q0 ++ [(f, s.now)] }
      z.drain prio1 ((if prio1 then z.q1 else z.q0).length))

/-- A frame is routed by its destination index (R490). -/
def State.routeFrame (s : State) (prio1 : Bool) (f : ZFrame) : State :=
  let e := (s.link.route.toList.getD (f.dst.toNat % 64) 0xFF).toNat
  if h : e < 4 then s.output ⟨e, h⟩ prio1 f else s.lnkErr 0x200

/-- A frame this device sends to an index (R481, R488, R490). -/
def State.sendFrame (s : State) (ty dst : Nat) (prio1 : Bool) (id seq part : Nat) (payload : List Byte) : State :=
  if s.dev.index = 0xFF then s
  else s.routeFrame prio1
    { type := BitVec.ofNat 8 ty, dst := BitVec.ofNat 8 dst, src := s.dev.index, ttl := BitVec.ofNat 8 s.link.ttl,
      id := BitVec.ofNat 16 id, seq := BitVec.ofNat 32 seq, part := BitVec.ofNat 16 part, payload := payload, crcOk := true,
      stomped := false }

/-! ### Lock references (R27) -/

/-- valid. -/
def refValid (r : W32) : Bool := r.getLsbD 31
/-- scope. -/
def refScope (r : W32) : Nat := bits r.toNat 29 2
/-- device. -/
def refDevice (r : W32) : Nat := bits r.toNat 23 6
/-- cluster. -/
def refCluster (r : W32) : Fin 4 := Fin.ofNat 4 (bits r.toNat 21 2)
/-- lock. -/
def refLock (r : W32) : Nat := bits r.toNat 11 10
/-- count. -/
def refCount (r : W32) : Nat := bits r.toNat 3 8

/-- A keeper: of a cluster, or the global keeper. -/
abbrev KeeperId := Option (Fin 4)

/-- The keeper's state. -/
def State.keeper (s : State) : KeeperId → Keeper
  | some c => s.clusters[c].keeper
  | none => s.globalLocks

/-- The state with a keeper replaced. -/
def State.setKeeper (s : State) (k : KeeperId) (v : Keeper) : State :=
  match k with
  | some c => s.modCl c (fun x => { x with keeper := v })
  | none => { s with globalLocks := v }

/-- The level of a lock. -/
def Keeper.level (k : Keeper) (l : Nat) : Nat := (assoc k.levels l).getD 0

/-- Insert a level in ascending lock order. -/
def levelInsert (l v : Nat) : List (Nat × Nat) → List (Nat × Nat)
  | [] => [(l, v)]
  | (m, w) :: t => if l < m then (l, v) :: (m, w) :: t else if l = m then (l, v) :: t else (m, w) :: levelInsert l v t

/-- The keeper with one level set; levels of 0 are not listed. -/
def Keeper.setLevel (k : Keeper) (l v : Nat) : Keeper :=
  { k with levels := if v = 0 then assocDel k.levels l else levelInsert l v k.levels }

/-- The context of a lock's events: the owner of the cargo that declares it on that cluster, else context 0 (log entry 20). -/
def State.lockOwner (s : State) (k : KeeperId) (l : Nat) : Nat :=
  match k with
  | none => 0
  | some c =>
    match s.cargos.find? (fun g => c ∈ g.clusters && decide (g.lockFirst ≤ l ∧ l < g.lockFirst + g.lockInit.length)) with
    | some g => g.owner
    | none => 0

/-- The "where" byte of a keeper's events. -/
def keeperWhere : KeeperId → Nat
  | some c => c.val
  | none => 0xFF

/-- The cluster a waiter works for, and its share index. -/
def State.waiterAt (s : State) : WaiterId → Option (Fin 4) × Nat
  | .run rid _ => ((s.run? rid).map (fun r => r.entry.cluster), 0)
  | .barge bid => ((s.barges.find? (fun b => b.bid = bid)).map (fun b => b.cluster), 0)
  | .share co _ i => (some co.c, i.val)
  | .replay _ => (none, 0)

/-- The trace unit of a cluster's reach (R601). -/
def clusterUnit (c : Fin 4) : Fin 10 := ⟨6 + c.val, by omega⟩

/-- A wait ended: its LOCK_WAIT packet (result 0 released, 1 timed out, 2 removed by a reset) and its counter (R604,
R609). -/
def State.waitEnded (s : State) (w : Waiter) (result : Nat) : State :=
  match s.waiterAt w.who with
  | (none, _) => s
  | (some c, hi) =>
    let s := s.trace (clusterUnit c) 4 0x21 hi (leBytes 2 w.lock ++ leBytes 1 result)
    if result = 0 then s.count (64 * c.val + 17) 1 else if result = 1 then s.count (64 * c.val + 18) 1 else s

/-- A list of shares with the one of an index changed. -/
def sharesMod (f : Share → Share) (l : List Share) (i : Fin 4) : List Share := l.map (fun h => if h.idx = i then f h else h)

/-- The state with the share on a core changed. -/
def State.modShare (s : State) (co : CoreId) (f : Share → Share) : State :=
  match s.clusters[co.c].cores[co.k].cur with
  | none => s
  | some (rid, i) => s.modRun rid (fun r => { r with shares := sharesMod f r.shares i })

/-- A waiter is released (R239): a run has one wait reference less; a barge may start; a share goes on after its LOCKW; a
replay slot may be written. -/
def State.release (s : State) (w : Waiter) : State :=
  let s := s.waitEnded w 0
  match w.who with
  | .run rid ref => s.modRun rid (fun r => { r with waitsLeft := r.waitsLeft.erase ref })
  | .barge bid => { s with barges := s.barges.map (fun b => if b.bid = bid then { b with waiting := false } else b) }
  | .share _ rid i =>
    s.modRun rid (fun r => { r with shares := sharesMod (fun h => { h with st := .running, pc := h.pc + 2 }) r.shares i })
  | .replay n =>
    { s with
      casc := { s.casc with
        stage := vmod s.casc.stage n (fun t =>
          { t with
            session := t.session.map (fun (x : Session) => { x with credit := true, waiting := false, since := none }) }) } }

/-- The waiters of a lock that can be released now, in order, with the level left: the head while the level reaches its n
(R239). -/
def releasable (lock : Nat) : List Waiter → Nat → List Waiter × Nat
  | [], lv => ([], lv)
  | w :: t, lv =>
    if w.lock = lock then
      if w.n ≤ lv then
        let (r, l) := releasable lock t (lv - w.n)
        (w :: r, l)
      else ([], lv)
    else releasable lock t lv

/-- Release what a lock's level allows. -/
def State.settle (s : State) (k : KeeperId) (lock : Nat) : State :=
  let q := s.keeper k
  let (rel, lv) := releasable lock q.waiters (q.level lock)
  let s := s.setKeeper k { q.setLevel lock lv with waiters := q.waiters.filter (fun w => !decide (w ∈ rel)) }
  rel.foldl State.release s

/-- raise(n) at a keeper (R238, R239): saturating; discarded while the keeper's partition is in reset (R246) or its reach is
off. -/
def State.applyRaise (s : State) (k : KeeperId) (lock n : Nat) : State :=
  let live : Bool := match k with
    | some c => s.clusters[c].reset.isNone && s.on (clusterReach c)
    | none => true
  if !live then s else
  let q := s.keeper k
  let sum := q.level lock + n
  let s := s.setKeeper k (q.setLevel lock (min sum 0xFFFFFFFF))
  let s := if sum > 0xFFFFFFFF then s.event 0x0106 (s.lockOwner k lock) (keeperWhere k) false (leBytes 2 lock) else s
  s.settle k lock

/-- The payload of a RAISE frame (R493, R496). -/
def raisePayload (ref : W32) (count tag : Nat) : List Byte := w32 ref ++ leBytes 4 count ++ leBytes 4 tag ++ zeros 4

/-- A raise reference is raised from a cluster, or from outside the clusters (R243, R488, R496): scope 0 at the own keeper,
scopes 1 and 2 on their way to their keeper, scope 3 as a RAISE frame at priority 0, or locally for the device's own
index. -/
def State.raiseRef (s : State) (own : Option (Fin 4)) (ref : W32) : State :=
  if !refValid ref then s else
  match refScope ref with
  | 0 =>
    match own with
    | some c => s.applyRaise (some c) (refLock ref) (refCount ref)
    | none => s
  | 1 =>
    if own = some (refCluster ref) then s.applyRaise own (refLock ref) (refCount ref)
    else s.modCl (refCluster ref) (fun k => { k with raisesIn := k.raisesIn ++ [(refLock ref, refCount ref)] })
  | 2 => { s with globalIn := s.globalIn ++ [(refLock ref, refCount ref)] }
  | _ =>
    if s.dev.index = 0xFF then s
    else if refDevice ref = s.dev.index.toNat then
      s.modCl (refCluster ref) (fun k => { k with raisesIn := k.raisesIn ++ [(refLock ref, refCount ref)] })
    else s.sendFrame 0x02 (refDevice ref) false 0 0 0 (raisePayload ref 0 0)

/-- The keeper of a wait reference used in a cluster (R28, R243): scope 2 is the global keeper, scope 0 the cluster's. -/
def waitKeeper (c : Fin 4) (ref : W32) : KeeperId := if refScope ref = 2 then none else some c

/-- How a wait begins: released at once, queued, or turned away from a full table (R239, R242). -/
inductive WaitResult where
  | released | queued | full
deriving DecidableEq, Repr

/-- wait_and_lower(n) at a keeper (R239, R240, R242): a full cluster keeper turns every wait away. -/
def State.lockWait (s : State) (k : KeeperId) (lock n expiry : Nat) (who : WaiterId) : State × WaitResult :=
  let q := s.keeper k
  let w : Waiter := ⟨lock, n, expiry, who⟩
  if k.isSome && decide (512 ≤ q.waiters.length) then
    ((s.event 0x0107 (s.lockOwner k lock) (keeperWhere k) false (leBytes 2 lock)).waitEnded w 1, .full)
  else if !(q.waiters.any (fun w => w.lock = lock)) && decide (n ≤ q.level lock) then
    ((s.setKeeper k (q.setLevel lock (q.level lock - n))).waitEnded w 0, .released)
  else (s.setKeeper k { q with waiters := q.waiters ++ [w] }, .queued)

/-- Remove the waiters of a kind from every keeper, without releasing them; the waiters behind them may go on. -/
def State.dropWaiters (s : State) (p : Waiter → Bool) : State :=
  (some 0 :: some 1 :: some 2 :: some 3 :: [none] : List KeeperId).foldl
    (fun s k =>
      let q := s.keeper k
      let locks := (q.waiters.filter p).map (·.lock)
      let s := s.setKeeper k { q with waiters := q.waiters.filter (fun w => !p w) }
      locks.eraseDups.foldl (fun s l => s.settle k l) s) s

end Sys2Proof.Machine
end

