-- ==== Sys2Proof/Machine/MemOps.lean ====
section
/-! DEFINITION. The device address space (R15, R230), regions (R255), protected ranges (R646), poison (R275). -/

namespace Sys2Proof.Machine

/-- What a device address names (R15, R230): DRAM of a partition, cluster memory, the local window, or nothing. -/
inductive Space where
  | dram (p : Fin 4) (a : Nat)
  | clus (c : Fin 4) (off : Nat)
  | loc (off : Nat)
  | none
deriving DecidableEq, Repr

/-- The space of an address. -/
def spaceOf (a : Nat) : Space :=
  if a < 0x800000000 then .dram (Fin.ofNat 4 (a / 0x200000000)) a
  else if 0x100000000000 ≤ a ∧ a < 0x100004000000 then
    .clus (Fin.ofNat 4 ((a - 0x100000000000) / 0x1000000)) ((a - 0x100000000000) % 0x1000000)
  else if 0x110000000000 ≤ a ∧ a < 0x110000400000 then .loc (a - 0x110000000000)
  else .none

/-- The partition an address lies in (R253, R566): the local window lies in none. -/
def partOf (a : Nat) : Option (Fin 4) :=
  match spaceOf a with
  | .dram p _ => some p
  | .clus c _ => some c
  | _ => none

/-- The first device address of a cluster's memory. -/
def clusterBase (c : Fin 4) : Nat := 0x100000000000 + c.val * 0x1000000

/-- The bytes of DRAM a region takes. -/
def Region.len (r : Region) : Nat := r.blocks * 0x200000

/-- Whether a region holds an address. -/
def Region.holds (r : Region) (a : Nat) : Bool := inRange r.base r.len a

/-- The handle of a region of partition p (R431). -/
def Region.handle (r : Region) (p : Fin 4) : Nat := r.gen * 65536 + p.val * 256 + r.slot

/-- The region of a handle, with its partition; none where the handle is stale or malformed (R431). -/
def State.region? (s : State) (h : Nat) : Option (Fin 4 × Region) :=
  let p : Fin 4 := Fin.ofNat 4 (bits h 8 2)
  if bits h 10 6 ≠ 0 then none
  else (s.parts[p].regions.find? (fun r => r.slot = bits h 0 8 && r.gen = bits h 16 16)).map (fun r => (p, r))

/-- The state with one region changed. -/
def State.modRegion (s : State) (p : Fin 4) (slot : Nat) (f : Region → Region) : State :=
  s.modPart p (fun x => { x with regions := x.regions.map (fun r => if r.slot = slot then f r else r) })

/-- The 2 MiB blocks a range touches (R255). -/
def blocksOf (a n : Nat) : List Nat :=
  (List.range ((a % 0x200000 + n + 0x1FFFFF) / 0x200000)).map (fun i => a / 0x200000 * 0x200000 + i * 0x200000)

/-- Whether every byte of a DRAM range lies in a region (R255). -/
def State.inRegions (s : State) (a n : Nat) : Bool :=
  (blocksOf a n).all (fun b =>
    match spaceOf b with
    | .dram p _ => s.parts[p].regions.any (fun r => r.holds b)
    | _ => false)

/-- Blocks a context owns over all partitions (R263). -/
def State.use (s : State) (ctx : Nat) : Nat :=
  (s.parts.toList.map (fun p => ((p.regions.filter (fun r => r.owner = ctx)).map (·.blocks)).sum)).sum

/-- A context that is over its quota leaves that condition when its use allows, with QUOTA_OK (R264). -/
def State.settleQuota (s : State) (ctx : Nat) : State :=
  match assoc s.ctxs ctx with
  | some c =>
    if c.overQuota && decide (s.use ctx ≤ c.quota) then
      State.event { s with ctxs := assocSet s.ctxs ctx { c with overQuota := false } } 0x0305 ctx 0xFF false
        (leBytes 4 (s.use ctx))
    else s
  | none => s

/-- Two ranges share a byte. -/
def overlap (a n b m : Nat) : Bool := decide (a < b + m ∧ b < a + n ∧ 0 < n ∧ 0 < m)

/-- A range of a cluster's memory touches a protected range (R646). -/
def State.protectedIn (s : State) (c : Fin 4) (off n : Nat) : Bool :=
  s.cargos.any (fun g => c ∈ g.clusters && g.prot.any (fun r => overlap off n r.1 r.2))

/-- The line of an address. -/
def lineOf (a : Nat) : Nat := a / 64 * 64

/-- The lines a range touches. -/
def linesOf (a n : Nat) : List Nat := if n = 0 then [] else (List.range ((a % 64 + n + 63) / 64)).map (fun i => lineOf a + 64 * i)

/-- Write bytes except those whose line is in a list. -/
def Mem.writeSkip (m : Mem) (skip : List Nat) (a : Nat) : List Byte → Mem
  | [] => m
  | v :: t => Mem.writeSkip (if lineOf a ∈ skip then m else m.write a v) skip (a + 1) t

/-- A write to DRAM with some lines poisoned (R275): a write over a whole poisoned line clears its poison; a write to part of one
is discarded. Answers the memory, the lines still poisoned, and those written in part. -/
def dramPut (m : Mem) (poison : List Nat) (a : Nat) (data : List Byte) : Mem × List Nat × List Nat :=
  let bad := (linesOf a data.length).filter (fun l => l ∈ poison)
  if bad.isEmpty then (m.writeBytes a data, poison, [])
  else
    let part := bad.filter (fun l => ¬ (a ≤ l ∧ l + 64 ≤ a + data.length))
    (m.writeSkip part a data, poison.filter (fun l => ¬ (l ∈ bad ∧ l ∉ part)), part)

/-- A write to DRAM (R275). Answers also the poisoned lines written in part. -/
def State.dramWrite (s : State) (a : Nat) (data : List Byte) : State × List Nat :=
  let (m, poison, part) := dramPut s.dram s.poison a data
  ({ s with dram := m, poison := poison }, part)

/-- The poisoned lines a DRAM range touches. -/
def State.poisoned (s : State) (a n : Nat) : List Nat := s.poison.filter (fun l => overlap a n l 64)

/-- The state with the local memory of a share index changed. -/
def State.modLocal (s : State) (c : Fin 4) (i : Fin 4) (f : Mem → Mem) : State :=
  s.modCl c (fun k => { k with lmem := vmod k.lmem i f })

/-- Bytes at a device address; `loc` gives the share whose window it is. -/
def State.devRead (s : State) (loc : Option (Fin 4 × Fin 4)) (a n : Nat) : List Byte :=
  match spaceOf a with
  | .dram _ x => s.dram.readBytes x n
  | .clus c x => s.clusters[c].mem.readBytes x n
  | .loc x =>
    match loc with
    | some (c, i) => s.clusters[c].lmem[i].readBytes x n
    | none => zeros n
  | .none => zeros n

/-- Write bytes at a device address. Answers also the poisoned lines written in part. -/
def State.devWrite (s : State) (loc : Option (Fin 4 × Fin 4)) (a : Nat) (data : List Byte) : State × List Nat :=
  match spaceOf a with
  | .dram _ x => s.dramWrite x data
  | .clus c x => (s.modCl c (fun k => { k with mem := k.mem.writeBytes x data }), [])
  | .loc x =>
    match loc with
    | some (c, i) => (s.modLocal c i (fun m => m.writeBytes x data), [])
    | none => (s, [])
  | .none => (s, [])

/-- Bytes of a cluster's memory. -/
def State.clRead (s : State) (c : Fin 4) (off n : Nat) : List Byte := s.clusters[c].mem.readBytes off n

/-- A little-endian number of a cluster's memory. -/
def State.clLe (s : State) (c : Fin 4) (off n : Nat) : Nat := s.clusters[c].mem.le off n

/-- Write bytes of a cluster's memory. -/
def State.clWrite (s : State) (c : Fin 4) (off : Nat) (data : List Byte) : State :=
  s.modCl c (fun k => { k with mem := k.mem.writeBytes off data })

/-- A cluster's memory can be reached (R342): its reach is on and its partition not in reset. -/
def State.clusterUp (s : State) (c : Fin 4) : Bool := s.on (clusterReach c) && s.clusters[c].reset.isNone

/-! ### Audio buffer addresses (R336) -/

/-- A place an audio buffer address names: cluster memory, or X or Y memory of a DSP (byte address there). -/
inductive AudPlace where
  | cluster (c : Fin 4) (off : Nat)
  | dspX (d : Fin 4) (off : Nat)
  | dspY (d : Fin 4) (off : Nat)
  | none
deriving DecidableEq, Repr

/-- The place of an audio buffer address; none where its space is illegal or a reserved bit is set. -/
def audPlace (v : Nat) : AudPlace :=
  let n : Fin 4 := Fin.ofNat 4 (bits v 24 2)
  if bits v 26 4 ≠ 0 then .none else
  match bits v 30 2 with
  | 0 => .cluster n (bits v 0 24)
  | 1 => .dspX n (bits v 0 24)
  | 2 => .dspY n (bits v 0 24)
  | _ => .none

/-- Bytes of the space a place lies in. -/
def AudPlace.size : AudPlace → Nat
  | .cluster _ _ => 0x1000000
  | .dspX _ _ => 0x40000
  | .dspY _ _ => 0x40000
  | .none => 0

/-- Its offset there. -/
def AudPlace.off : AudPlace → Nat
  | .cluster _ o => o
  | .dspX _ o => o
  | .dspY _ o => o
  | .none => 0

/-- A place `n` bytes further on. -/
def AudPlace.plus (n : Nat) : AudPlace → AudPlace
  | .cluster c o => .cluster c (o + n)
  | .dspX d o => .dspX d (o + n)
  | .dspY d o => .dspY d (o + n)
  | .none => .none

/-- Two ranges of audio places share a byte. -/
def AudPlace.meets (a : AudPlace) (n : Nat) (b : AudPlace) (m : Nat) : Bool :=
  match a, b with
  | .cluster c o, .cluster d q => c = d && overlap o n q m
  | .dspX c o, .dspX d q => c = d && overlap o n q m
  | .dspY c o, .dspY d q => c = d && overlap o n q m
  | _, _ => false

/-- Whether the memory can be reached (R342): cluster reach on and partition not in reset; DSP reach on. -/
def State.audUp (s : State) : AudPlace → Bool
  | .cluster c _ => s.clusterUp c
  | .dspX d _ => s.on (dspReach d)
  | .dspY d _ => s.on (dspReach d)
  | .none => false

/-- Read bytes at an audio place. -/
def State.audRead (s : State) (a : AudPlace) (n : Nat) : List Byte :=
  match a with
  | .cluster c o => s.clusters[c].mem.readBytes o n
  | .dspX d o => s.dsps[d].x.readBytes o n
  | .dspY d o => s.dsps[d].y.readBytes o n
  | .none => zeros n

/-- The words with an uncorrectable error after a write of bytes: a write of a whole word clears its error (R367). -/
def healWords (bad : List Nat) (off n : Nat) : List Nat := bad.filter (fun w => ¬ (off ≤ 4 * w ∧ 4 * w + 4 ≤ off + n))

/-- Write bytes at an audio place. -/
def State.audWrite (s : State) (a : AudPlace) (l : List Byte) : State :=
  match a with
  | .cluster c o => s.clWrite c o l
  | .dspX d o => s.modDsp d (fun x => { x with x := x.x.writeBytes o l, badX := healWords x.badX o l.length })
  | .dspY d o => s.modDsp d (fun x => { x with y := x.y.writeBytes o l, badY := healWords x.badY o l.length })
  | .none => s

/-- Whether this device's time is unlocked (R509): a follower that is not locked. -/
def State.timeUnlocked (s : State) : Bool := s.time.role = 2 && !s.time.locked

end Sys2Proof.Machine
end

