-- ==== Sys2Proof/Machine/StreamOps.lean ====
section
/-! DEFINITION. Streams over the Zorud link: receiving parts, finalising units, sending units (R497 to R502). -/

namespace Sys2Proof.Machine

/-- The state with one receive stream changed. -/
def State.modRxs (s : State) (r : Fin 16) (f : RxStream → RxStream) : State :=
  { s with link := { s.link with rxs := vmod s.link.rxs r f } }

/-- The parts of a unit of a stream. -/
def RxStream.total (x : RxStream) : Nat := (x.unitBytes + 255) / 256

/-- The slot of a unit (R498): 64 + unit_bytes, rounded up to 64, each. -/
def RxStream.slotAt (x : RxStream) (u : Nat) : AudPlace :=
  (audPlace x.ring).plus (u % x.k * ((64 + x.unitBytes + 63) / 64 * 64))

/-- The predicted stamp of a unit (R500). -/
def RxStream.predicted (x : RxStream) (u : W32) : Nat := x.base.2 + (u - BitVec.ofNat 32 x.base.1).toNat * x.periodNs

/-- Finalise the unit that awaits it (R499): zeros in every part not received, the receive header, the raise, and the next
unit awaits. -/
def State.finaliseUnit (s : State) (r : Fin 16) : State :=
  let x := s.link.rxs[r]
  let total := x.total
  let slot := x.slotAt x.unit.toNat
  let lost := (List.range total).filter (fun n => n ∉ x.parts)
  let s := lost.foldl (fun s n => s.audWrite (slot.plus (64 + 256 * n)) (zeros (min 256 (x.unitBytes - 256 * n)))) s
  let flags := (if lost.isEmpty then 1 else if lost.length < total then 2 else 4) + 8 * b2n x.unlocked +
    16 * b2n s.timeUnlocked + 32 * b2n (x.resumed && decide (lost.length < total))
  let hdr := leBytes 4 x.unit.toNat ++ leBytes 1 x.src ++ leBytes 1 x.stream ++ leBytes 2 flags ++
    leBytes 8 (x.stamp.getD (x.predicted x.unit)) ++ leBytes 8 s.now ++ leBytes 2 lost.length ++ leBytes 2 total ++ zeros 36
  let s := s.audWrite slot hdr
  let s := s.modRxs r (fun x =>
    { x with
      unit := x.unit + 1, parts := [], unlocked := false, stamp := none,
      resumed := x.resumed && decide (lost.length = total),
      missing := if lost.isEmpty then x.missing else x.missing + 1 })
  match audPlace x.ring with
  | .cluster c _ => s.raiseRef (some c) x.raise
  | _ => s.raiseRef none x.raise

/-- Finalise `n` units in order. -/
def State.finaliseUnits (r : Fin 16) : Nat → State → State
  | 0, s => s
  | n + 1, s => State.finaliseUnits r n (s.finaliseUnit r)

/-- A frame of this device counted as discarded (LNK_LOCAL_DROP). -/
def State.localDrop (s : State) : State := { s with link := { s.link with localDrop := s.link.localDrop + 1 } }

/-- A part of unit f.seq arrives at receive stream r (R498 to R501). -/
def State.streamPart (s : State) (r : Fin 16) (f : ZFrame) : State :=
  let x := s.link.rxs[r]
  if !s.active || !s.audUp (audPlace x.ring) then s.localDrop else
  let s := if x.stalled then
      (s.modRxs r (fun x => { x with stalled := false, resumed := true })).event 0x0705 0 0xFF false
        (leBytes 1 r.val ++ leBytes 1 1 ++ leBytes 4 f.seq.toNat)
    else s
  let s := s.modRxs r (fun x =>
    { x with
      lastFrame := s.now, started := true, unit := if x.started then x.unit else f.seq,
      base := if x.started then x.base else (f.seq.toNat, bits (field f.payload 0 8) 0 63) })
  let x := s.link.rxs[r]
  let diff := (f.seq - x.unit).toNat
  if diff ≥ 0x80000000 then s.modRxs r (fun x => { x with late := x.late + 1 })
  else
    let s := State.finaliseUnits r diff s
    let n := bits f.part.toNat 0 12
    let data := (f.payload.drop 8).take (min 256 (x.unitBytes - 256 * n))
    let stamp := bits (field f.payload 0 8) 0 63
    let s := if n < x.total then s.audWrite ((x.slotAt f.seq.toNat).plus (64 + 256 * n)) data else s
    let s := s.modRxs r (fun x =>
      { x with
        parts := if n ∈ x.parts ∨ x.total ≤ n then x.parts else n :: x.parts, unlocked := bit (field f.payload 0 8) 63,
        stamp := some stamp, base := (f.seq.toNat, stamp) })
    if f.part.getLsbD 15 then s.finaliseUnit r else s

/-- A good STREAM frame for this device goes to every receive stream that takes its source and stream (R498). -/
def State.streamIn (s : State) (f : ZFrame) : State :=
  let rs := (List.finRange 16).filter (fun r =>
    s.link.rxs[r].on && s.link.rxs[r].src = bits f.src.toNat 0 6 && s.link.rxs[r].stream = bits f.id.toNat 0 4)
  if rs.isEmpty then s.localDrop else rs.foldl (fun s r => s.streamPart r f) s

/-- Send one unit to one destination: STREAM frames of 256 data bytes (R497). -/
def State.sendUnit (s : State) (stream dst seq stamp : Nat) (data : List Byte) : State :=
  let total := (data.length + 255) / 256
  (List.range total).foldl
    (fun s n =>
      let part := n + (if n + 1 = total then 0x8000 else 0)
      let payload := leBytes 8 (stamp % 2 ^ 63 + (if s.timeUnlocked then 2 ^ 63 else 0)) ++ (data.drop (256 * n)).take 256
      if dst = s.dev.index.toNat then
        s.streamIn ⟨0x03, BitVec.ofNat 8 dst, s.dev.index, 0, BitVec.ofNat 16 stream, BitVec.ofNat 32 seq,
          BitVec.ofNat 16 part, payload, true, false⟩
      else s.sendFrame 0x03 dst true stream seq part payload)
    s

/-- A transmit stream sends a unit to each destination of its mask, in ascending order; nothing outside RUNNING and DEGRADED,
before an index is assigned, or where the unit's memory cannot be reached (R488, R497). -/
def State.streamSend (s : State) (t : Fin 16) (at_ : AudPlace) (n seq stamp : Nat) : State :=
  let x := s.link.txs[t]
  if !s.active || s.dev.index = 0xFF || !s.audUp at_ then s else
  let data := s.audRead at_ n
  ((List.range 48).filter (fun i => bit x.dests i)).foldl (fun s d => s.sendUnit t.val d seq stamp data) s

/-- The units a completed run sends: BUFFER streams of its entry (R497). -/
def State.bufferStreams (s : State) (entry count stamp : Nat) : State :=
  (List.finRange 16).foldl
    (fun s t =>
      let x := s.link.txs[t]
      if x.kind = 2 ∧ x.source = entry then
        s.streamSend t ((audPlace x.ring).plus (count % 2 ^ 32 % x.k * x.unitBytes)) x.unitBytes (count % 2 ^ 32) stamp
      else s) s

/-- The units a closed input block of a port sends: AUDIO streams of that port (R497). -/
def State.audioStreams (s : State) (port : Nat) (at_ : AudPlace) (n seq stamp : Nat) : State :=
  (List.finRange 16).foldl
    (fun s t =>
      let x := s.link.txs[t]
      if x.kind = 1 ∧ x.source = port then s.streamSend t at_ n seq stamp else s) s

end Sys2Proof.Machine
end

