-- ==== Sys2Proof/Machine/BlockOps.lean ====
section
/-! DEFINITION. The block of bytes a barge moves: its rows, their lines, reading and writing them (R229, R234, R236). -/

namespace Sys2Proof.Machine

/-- The first addresses of the rows of a block. -/
def rowAddrs (base : Nat) (ys zs : Int) (y z : Nat) : List Int :=
  (List.range z).flatMap (fun k => (List.range y).map (fun j => (base : Int) + k * zs + j * ys))

/-- Rows of the source and of the destination. -/
def BDesc.srcRows (d : BDesc) : List Int := rowAddrs d.src d.srcY d.srcZ d.yCount d.zCount
def BDesc.dstRows (d : BDesc) : List Int := rowAddrs d.dst d.dstY d.dstZ d.yCount d.zCount

/-- Cut a byte string at an address into pieces that do not cross a multiple of `u`. -/
def pieces (u a : Nat) (l : List Byte) : List (Nat × List Byte) :=
  if l.isEmpty then []
  else
    (List.range ((a % u + l.length + u - 1) / u)).map (fun i =>
      let lo := max a (a / u * u + i * u)
      let hi := min (a + l.length) (a / u * u + (i + 1) * u)
      (lo, (l.drop (lo - a)).take (hi - lo)))

/-- Bytes from a device address, line by line. -/
def State.readRange (s : State) (loc : Option (Fin 4 × Fin 4)) (a n : Nat) : List Byte :=
  (pieces 64 a (zeros n)).flatMap (fun p => s.devRead loc p.1 p.2.length)

/-- A row of a FILL. -/
def fillRow (n : Nat) (v : W32) : List Byte := ((List.replicate ((n + 3) / 4) (leBytes 4 v.toNat)).flatten).take n

/-- The rows a barge writes: destination address and bytes. -/
def State.bargeRows (s : State) (loc : Option (Fin 4 × Fin 4)) (d : BDesc) : List (Nat × List Byte) :=
  List.zipWith (fun (sa da : Int) =>
    (da.toNat, if d.op = 0x40 then s.readRange loc sa.toNat d.xBytes else fillRow d.xBytes d.fill)) d.srcRows d.dstRows

/-- The window of the share that issued a barge. -/
def Barge.window (b : Barge) : Option (Fin 4 × Fin 4) :=
  match b.by_ with
  | .share _ i co => some (co.c, i)
  | _ => none

/-- Write lines; answers also whether a poisoned line was written in part (R275). -/
def State.writeLines (s : State) (loc : Option (Fin 4 × Fin 4)) (l : List (Nat × List Byte)) : State × Bool :=
  l.foldl (fun (a : State × Bool) p =>
    let (s, bad) := a.1.devWrite loc p.1 p.2
    (s, a.2 || !bad.isEmpty)) (s, false)

/-- A barge that had started is abandoned with some of its lines written, in no defined order (R236): which of them is a
free value (log entry 43). -/
def State.writeSome (s : State) (b : Barge) : State :=
  if !b.started || b.desc.remote then s else
  let (n, s) := s.draw
  let lines := (s.bargeRows b.window b.desc).flatMap (fun r => pieces 64 r.1 r.2)
  (s.writeLines b.window ((lines.zipIdx.filter (fun (p : (Nat × List Byte) × Nat) => bit n p.2)).map (·.1))).1

/-- The rows of a block up to the first byte that fails; `bad`: the offset in a source row where it fails. -/
def cutRows (bad : Int → Option Nat) : List Int → List (Nat × List Byte) → List (Nat × List Byte)
  | a :: as, r :: rs =>
    match bad a with
    | some f => [(r.1, r.2.take f)]
    | none => r :: cutRows bad as rs
  | _, _ => []

/-- The lines of a barge before its first failing source line are written (R236). -/
def State.writeBefore (s : State) (b : Barge) (bad : Int → Option Nat) : State :=
  if b.desc.remote then s
  else (s.writeLines b.window ((cutRows bad b.desc.srcRows (s.bargeRows b.window b.desc)).flatMap (fun r => pieces 64 r.1 r.2))).1

/-- Offset in a source row of the first byte of a poisoned line. -/
def State.rowUe (s : State) (d : BDesc) (a : Int) : Option Nat :=
  match spaceOf a.toNat with
  | .dram _ x =>
    match s.poisoned x d.xBytes with
    | [] => none
    | l :: t => some (t.foldl min l - x)
  | _ => none

end Sys2Proof.Machine
end

