-- ==== Sys2Proof/Machine/RunOps.lean ====
section
/-! DEFINITION. Tick intervals, budgets, overrun records, barges that end, and what the end of a run brings about
(R20, R30, R31, R35, R44, R210, R236, R306, R317, R344). -/

namespace Sys2Proof.Machine

/-! ### Intervals and budgets -/

/-- The nominal interval of a tick source in picoseconds (R20, R413). -/
def State.srcIntervalQ (s : State) (k : Fin 16) : Rat :=
  let t := s.sched.src[k]
  match t.kind with
  | 1 =>
    let x := s.img.rx[Fin.ofNat 2 t.bind].cfg
    (t.count * x.linePs * (if x.layout = 1 then 2 else 1) : Nat)
  | 2 =>
    let fs := if t.bind = 4 then s.pdmCfg.fs else
      (s.aud.apll[Fin.ofNat 2 (s.aud.port[Fin.ofNat 5 t.bind].cfg.apll)]).fs
    ((t.count * 1000000000000 : Nat) : Rat) / (fs : Nat)
  | 3 => (s.img.genPeriod * 1000 : Nat)
  | 4 => (t.periodUs * 1000000 : Nat)
  | _ => 0

/-- The interval truncated to whole picoseconds. -/
def State.srcInterval (s : State) (k : Fin 16) : Nat := (s.srcIntervalQ k).floor.toNat

/-- The run interval of an entry in picoseconds (R29). -/
def State.runInterval (s : State) (e : Entry) : Nat := (s.srcIntervalQ e.source * (e.divide : Nat)).floor.toNat

/-- The loaded cargo of a handle. -/
def State.cargo? (s : State) (h : Nat) : Option Cargo := s.cargos.find? (fun g => g.handle = h)

/-- The entry point an entry uses: main or alternate (R216). -/
def State.point? (s : State) (e : Entry) (alt : Bool) : Option Point :=
  (s.cargo? e.cargo).bind (fun g => g.points.find? (fun p => p.headerOff = (if alt then e.alt else e.point)))

/-- The budget in force with `n` healthy cores (R26, R35). -/
def State.budgetOf (s : State) (e : Entry) (n : Nat) (alt : Bool) : Nat :=
  if alt then
    match s.point? e true with
    | some p => if n = 4 then p.budget4 else p.budget3
    | none => 0
  else if n = 4 then e.budget4 else e.budget3

/-- The utilisation of budgets against run intervals in F_CORE cycles of 800 ps (R30). -/
def utilisation (l : List (Nat × Rat)) : Rat := (l.map (fun x => ((x.1 * 800 : Nat) : Rat) / x.2)).sum

/-- A cluster's three-core utilisation with budget_3 at the main entry points (R31). -/
def State.util3 (s : State) (c : Fin 4) : Rat :=
  match s.sched.tt with
  | none => 0
  | some t =>
    utilisation ((t.entries.filter (fun e => e.cluster = c && e.cls = 0)).map
      (fun e => (e.budget3, s.srcIntervalQ e.source * (e.divide : Nat))))

/-- R31 is in force for a cluster: three cores, and utilisation above 0.95. -/
def State.threeCore (s : State) (c : Fin 4) : Bool :=
  s.clusters[c].healthy = 3 && decide ((95 : Rat) / 100 < s.util3 c)

/-- A run of an entry would use its alternate entry point (R31, R39). -/
def State.useAlt (s : State) (e : Entry) (r31 : Bool) : Bool :=
  decide (e.alt ≠ 0) && (((s.entry? e.id).map (·.atAlt)).getD false || (r31 && decide (e.policy = 1)))

/-- A run would use its alternate entry point: an old one as its entry stood when its timetable was replaced (R49, R52). -/
def State.runAlt (s : State) (r : Run) : Bool :=
  if r.old then decide (r.entry.alt ≠ 0) && (r.degr || (r.r31 && decide (r.entry.policy = 1))) else s.useAlt r.entry r.r31

/-- The policy applied to an overrun (R39, R41, R201): SKIP_NEXT for an adaptation iteration, and for a DEGRADE entry at its
alternate entry point. -/
def Entry.policyAt (e : Entry) (alt : Bool) : Nat := if e.cls = 3 ∨ (e.policy = 1 ∧ alt) then 0 else e.policy

/-- The last overrun of an entry left its run dropped, bypassed or not run: the skipped bit of its word (R44, R429). -/
def State.skipEntry (s : State) (id : Nat) : State := s.modEntry id (fun x => { x with lastOvr := x.lastOvr ||| 0x100 })

/-- A run dropped counts with its adaptation job (R205). -/
def State.jobDrop (s : State) (entry : Nat) : State :=
  { s with jobs := s.jobs.map (fun (j : Job) => if j.entry = entry ∧ j.phase = 2 then { j with dropped := j.dropped + 1 } else j) }

/-- The share of F_CORE cycles per nanosecond, in quarters (R10, R546 level 3). -/
def State.coreRate (s : State) : Nat := if s.pwr.level = 3 then 4 else 5

/-- Elapsed quarter cycles of a run (R35). -/
def State.elapsed4 (s : State) (r : Run) : Nat :=
  r.cyc4 + match r.since with
    | some t => (s.now - t) * s.coreRate
    | none => 0

/-- Count a run's cycles up to now. -/
def State.foldCycles (s : State) (r : Run) : Run :=
  { r with cyc4 := s.elapsed4 r, since := r.since.map (fun _ => s.now) }

/-! ### Overrun records (R44, R45) -/

/-- Change what the runs of one tick contribute to the overrun word. -/
def State.modOvr (s : State) (src : Fin 16) (count : Nat) (f : OvrRec → OvrRec) : State :=
  let l := s.sched.ovr
  let new : OvrRec := ⟨src, count, 0, none, false, false, false, 0, 16, false, false⟩
  { s with
    sched := { s.sched with
      ovr := if l.any (fun o => o.source = src && o.count = count) then
          l.map (fun o => if o.source = src && o.count = count then f o else o)
        else l ++ [f new] } }

/-- The overrun word over ticks of one source (R44). -/
def overrunWord (l : List OvrRec) : Nat :=
  let n := (l.map (·.runs)).sum
  let last := l.foldl (fun (a : Option (Nat × Nat × Nat)) o =>
    match a, o.lastOvr with
    | none, x => x
    | some a, some x => if a.1 ≤ x.1 then some x else some a
    | some a, none => some a) none
  let w := min n 255 + (if l.any (·.skipped) then 0x100 else 0) + (if l.any (·.degraded) then 0x200 else 0)
  match last with
  | some (_, pol, cause) => w + 0x8000 + pol * 0x1000 + cause * 0x400
  | none => w

/-- The records of the ticks `lo` to `hi` of a source. -/
def State.ovrWindow (s : State) (src : Fin 16) (lo hi : Nat) : List OvrRec :=
  s.sched.ovr.filter (fun o => o.source = src && decide (lo ≤ o.count ∧ o.count ≤ hi))

/-- The owner of the running timetable (R410). -/
def State.ttOwner (s : State) : Nat := (s.sched.tt.map (·.owner)).getD 0

/-- Record an overrun (R44, R45): the tick's record, the entry's counter and last word, the OVERRUN event and packet.
`again`: a second record of one run (R42), which counts nothing again. -/
def State.noteOverrun (s : State) (e : Entry) (ctx count pol cause : Nat) (alt again : Bool) : State :=
  let s := s.modOvr e.source count (fun o =>
    { o with lastOvr := some (s.now, pol, cause), runs := if again then o.runs else o.runs + 1 })
  let s := s.modEntry e.id (fun x =>
    { x with
      overruns := if again then x.overruns else x.overruns + 1,
      lastOvr := BitVec.ofNat 16 (0x8001 + pol * 0x1000 + cause * 0x400 + (if alt then 0x200 else 0)) })
  let s := s.event 0x0101 ctx e.cluster.val false
    (leBytes 2 e.id ++ leBytes 4 count ++ leBytes 1 cause ++ leBytes 1 pol)
  let s := s.trace (clusterUnit e.cluster) 1 0x13 0 (leBytes 1 e.id ++ leBytes 1 (cause * 16 + pol) ++ leBytes 2 count)
  if again then s else s.count (64 * e.cluster.val + 20) 1

/-! ### Completions (R444, R445) -/

/-- The completion entry of a submission (R444). -/
def completionEntry (kind status ring index time tag bytes : Nat) : List Byte :=
  leBytes 1 kind ++ leBytes 1 status ++ leBytes 2 ring ++ leBytes 4 index ++ leBytes 8 time ++ leBytes 4 tag ++
    leBytes 4 bytes ++ zeros 40

/-- Write one completion into a ring, or hold it while the ring is full, up to 16; beyond, it is lost (R445, R453). `extra`:
the second entry of a video frame, written first. One due to a destroyed ring is counted as lost (R439). -/
def State.completeTo (s : State) (cr : Nat) (e extra : List Byte) : State :=
  match assoc s.rings cr with
  | none => s
  | some g =>
    if g.kind = 0 then s.modRing cr (fun g => { g with lostCount := g.lostCount + 1 })
    else
    let need := if extra.isEmpty then 1 else 2
    if decide (g.used + need ≤ 2 ^ g.n) && s.qmUp && g.held.isEmpty then
      if extra.isEmpty then s.ringPut cr e
      else
        let s := { s with host := s.host.writeBytes (g.slot (g.dev + 1).toNat) (padTo 64 extra) }
        let s := s.ringPut cr e
        s.modRing cr (fun g => { g with dev := g.dev + 1 })
    else if g.held.length < 16 then s.modRing cr (fun g => { g with held := g.held ++ [e ++ extra] })
    else
      let s := s.modRing cr (fun g => { g with lost := true, lostCount := g.lostCount + 1 })
      s.event 0x0902 g.ctx 0xFF false (leBytes 2 cr ++ leBytes 4 (g.lostCount + 1).toNat)

/-- A submission of ring r completes (R444): an entry in the paired completion ring, under the number that the ring had. -/
def State.complete (s : State) (r kind status index tag bytes : Nat) (extra : List Byte) : State :=
  match assoc s.rings r with
  | none => s
  | some g => s.completeTo g.pair (completionEntry kind status (r % 512) index s.now tag bytes) extra

/-- Write completions held for a ring, oldest first, while it has room (R445). -/
def State.drainHeld (cr : Nat) : Nat → State → State
  | 0, s => s
  | n + 1, s =>
    match assoc s.rings cr with
    | none => s
    | some g =>
      match g.held with
      | [] => s
      | h :: t =>
        let extra := h.drop 64
        if decide (g.used + (if extra.isEmpty then 1 else 2) ≤ 2 ^ g.n) && s.qmUp then
          let s := s.modRing cr (fun g => { g with held := [] })
          let s := s.completeTo cr (h.take 64) extra
          State.drainHeld cr n (s.modRing cr (fun g => { g with held := t }))
        else s

/-! ### Barges that end -/

/-- The owning context of a barge's events (R236, R410). -/
def Barge.owner (b : Barge) : Nat := b.ctx

/-- The barges in a mover's queue; those the sequencer holds back stand outside it (R232). -/
def State.queued (s : State) (m : Mover) : Nat := (s.barges.filter (fun b => b.mover = m && !b.held)).length

/-- Whether a mover takes no more barges (R232): 16 in a local mover, 32 in each of a cluster's four DRAM movers. -/
def State.moverFull (s : State) (m : Mover) : Bool :=
  match m with
  | .loc _ => decide (16 ≤ s.queued m)
  | .dram _ => decide (128 ≤ s.queued m)

/-- A barge is abandoned at issue (R236): nothing is queued; its event, its BARGE_END packet, its counter. -/
def State.bargeRefused (s : State) (ctx : Nat) (c : Fin 4) (code : Nat) (tag : W32) (data : List Byte) : State :=
  let s := s.event code ctx c.val false (w32 tag ++ data)
  let s := s.trace (clusterUnit c) 3 0x20 0 (w32 tag)
  s.count (64 * c.val + 16) 1

/-- A barge of a prefetch list is done with: the run or the entry that waits for it hears whether it succeeded (R228). -/
def State.prefetchGone (s : State) (entry bid : Nat) (ok : Bool) : State :=
  let s := { s with
    sched := { s.sched with
      runs := s.sched.runs.map (fun (r : Run) =>
        if bid ∈ r.pf then { r with pf := r.pf.erase bid, pfBad := r.pfBad || !ok } else r) } }
  s.modEntry entry (fun x =>
    { x with pf := x.pf.map (fun (p : List Nat × Bool) => if bid ∈ p.1 then (p.1.erase bid, p.2 || !ok) else p) })

/-- A barge in its mover's queue begins its wait (R239, R242); a full lock table abandons it. Answers also whether it stands
in the queue. -/
def State.bargeWait (s : State) (b : Barge) : State × Bool :=
  let d := b.desc
  if !refValid d.wait then (s, true)
  else
    let (s, res) := s.lockWait (waitKeeper b.cluster d.wait) (refLock d.wait) (refCount d.wait) (s.now + d.timeout * 1000)
      (.barge b.bid)
    match res with
    | .released =>
      ({ s with barges := s.barges.map (fun (x : Barge) => if x.bid = b.bid then { x with waiting := false } else x) }, true)
    | .queued => (s, true)
    | .full =>
      let s := { s with barges := s.barges.filter (fun x => x.bid ≠ b.bid) }
      (s.bargeRefused b.ctx b.cluster 0x0302 d.tag [], false)

/-- The sequencer puts the prefetch barges it holds back into a mover's queue while that has room, oldest first (R232). -/
def State.refillMover (m : Mover) : Nat → State → State
  | 0, s => s
  | n + 1, s =>
    if s.moverFull m then s
    else
      match s.barges.find? (fun b => b.mover = m && b.held) with
      | none => s
      | some b =>
        let s := { s with barges := s.barges.map (fun (x : Barge) => if x.bid = b.bid then { x with held := false } else x) }
        let (s, ok) := s.bargeWait b
        let s := match ok, b.by_ with
          | false, .prefetch entry _ => s.prefetchGone entry b.bid false
          | _, _ => s
        State.refillMover m n s

/-- A barge leaves its queue; what issued it hears of it: the share's retirement is no longer held back, a prefetch counts, a
ring entry completes with the status. -/
def State.bargeGone (s : State) (b : Barge) (ok : Bool) (status bytes : Nat) : State :=
  let s := { s with barges := s.barges.filter (fun x => x.bid ≠ b.bid) }
  let s := s.trace (clusterUnit b.cluster) 3 0x20 0 (w32 b.desc.tag)
  let s := match b.by_ with
    | .share rid i _ =>
      s.modRun rid (fun r => { r with shares := sharesMod (fun h => { h with barges := h.barges.erase b.bid }) r.shares i })
    | .prefetch entry _ => s.prefetchGone entry b.bid ok
    | .ring r i => s.complete r 1 status i b.desc.tag.toNat bytes []
  s.refillMover b.mover s.barges.length

/-- A barge that does not complete leaves (R236): its event, its raise is not applied; counted in R609. -/
def State.bargeFails (s : State) (b : Barge) (code : Nat) (data : List Byte) : State :=
  let s := s.dropWaiters (fun w => w.who = .barge b.bid)
  let s := if code = 0 then s else s.event code b.owner b.cluster.val false data
  (s.count (64 * b.cluster.val + 16) 1).bargeGone b false 1 0

/-- A barge is abandoned with an event (R236): some of its lines are written if it had started. -/
def State.abandonBarge (s : State) (b : Barge) (code : Nat) (data : List Byte) : State := (s.writeSome b).bargeFails b code data

/-- A source line of a barge returns an uncorrectable error (R236): the lines before it are written; BARGE_ERROR naming src. -/
def State.bargeUe (s : State) (b : Barge) (bad : Int → Option Nat) : State :=
  (s.writeBefore b bad).bargeFails b 0x0303 (w32 b.desc.tag ++ leBytes 1 32)

/-- The barges a stopped share issued are abandoned without an event of their own (R236). -/
def State.abandonShareBarges (s : State) (rid : Nat) : State :=
  (s.barges.filter (fun b =>
    match b.by_ with
    | .share r _ _ => decide (r = rid)
    | _ => false)).foldl (fun s b => s.abandonBarge b 0 []) s

/-! ### What a run's end brings about -/

/-- Whether a producing key names an entry, and which result group it is (R316). -/
def State.resultGroups (s : State) (entry : Nat) : List (Fin 3) := (List.finRange 3).filter (fun g => s.key (.resEntry g) = entry)

/-- Bits per pixel of an output data type (R305). -/
def txBits (dt : Nat) : Nat :=
  match dt with
  | 0x1E => 16
  | 0x1F => 20
  | 0x24 => 24
  | 0x2E => 16
  | _ => 48

/-- Row stride of an output slot (R306). -/
def txStride (c : TxCfg) : Nat := (c.band * txBits c.dt / 8 + 63) / 64 * 64

/-- Offset of slot k of band b of a transmitter (R306). -/
def txSlot (c : TxCfg) (b k : Nat) : Nat := c.slotAddr + (b % 4 * 3 + k) * (64 + c.group * txStride c)

/-- After a completed run of a transmitter's entry, the slots whose header declares frame f and group j in slot j mod 3 are
ready (R306): what each slot declares, as (band, slot, frame, group). -/
def State.txReady (s : State) (n : Fin 2) : State :=
  let t := s.img.tx[n]
  let found := (List.range 16).flatMap (fun b => (List.range 3).filterMap (fun k =>
    let c := Fin.ofNat 4 (b / 4)
    let o := txSlot t.cfg b k
    if s.clusterUp c then some (b, k, s.clLe c o 4, s.clLe c (o + 4) 2) else none))
  s.modTx n (fun t =>
    { t with ready := found ++ t.ready.filter (fun x => !found.any (fun y => y.1 = x.1 && y.2.1 = x.2.1)) })

/-- What answers output blocks (R344): after a completed run the slots whose seq stands in its place are ready; a bypassed run
of tick `count` bypasses block count − A. -/
def State.audDone (s : State) (entry count : Nat) (completed bypassed : Bool) : State :=
  (List.finRange 5).foldl
    (fun s n =>
      let p := s.aud.port[n]
      if !p.running || p.cfg.outMask = 0 || p.cfg.outEntry ≠ entry then s else
      let a := ((s.sched.tt.bind (fun t => t.entries.find? (fun e => e.id = entry))).bind
        (fun e => (s.cargo? e.cargo).map (·.audioA))).getD 0
      let e := (if p.cfg.elem32 then 4 else 2) * (((List.range 32).filter (fun i => bit p.cfg.outMask i)).length)
      let stride := (64 + p.cfg.block * e + 63) / 64 * 64
      let place := audPlace p.cfg.outRing
      let seqs : List W32 := if completed && s.audUp place then
          ((List.range p.cfg.outK).filterMap (fun i =>
            let q := leVal (s.audRead (place.plus (i * stride)) 4)
            if q % p.cfg.outK = i then some (BitVec.ofNat 32 q) else none))
        else []
      s.modAud n (fun p =>
        { p with
          done := seqs ++ p.done.filter (fun q => q ∉ seqs),
          bypassed := if bypassed then BitVec.ofNat 32 (count - a) :: p.bypassed else p.bypassed }))
    s

/-- The job that runs on an entry. -/
def State.job? (s : State) (entry : Nat) : Option Job := s.jobs.find? (fun j => j.entry = entry && (j.phase = 2))

/-- The steps of a run end with it (R78): to be evaluated, or discarded during a firmware restart (R560). -/
def State.endSteps (s : State) (r : Run) (made : Bool) : State :=
  s.modCl r.entry.cluster (fun k =>
    { k with
      slots := k.slots.map (fun (t : ClipSlot) =>
        { t with
          live := if made then t.live.map (fun (x : ClipStep) => if x.rid = r.rid then { x with ended := true } else x)
            else t.live.filter (fun x => x.rid ≠ r.rid) }) })

/-- A run ends: outcome 0 completed, 1 dropped, 2 stopped (R210, R39, R117): its packet, output slots, results, audio
blocks, streams, adaptation counts; the run leaves. -/
def State.runEnd (s : State) (r : Run) (outcome : Nat) (bypassed : Bool) : State :=
  let e := r.entry
  let s := { s with sched := { s.sched with runs := s.sched.runs.filter (fun x => x.rid ≠ r.rid) } }
  let s := s.modCl e.cluster (fun k =>
    { k with
      stripe := k.stripe.map (fun (t : StripeSt) => { t with cur := t.cur.filter (fun x => x.rid ≠ r.rid) }),
      saved := k.saved.filter (fun x => x.rid ≠ r.rid) })
  let s := s.trace (clusterUnit e.cluster) 0 0x12 0 (leBytes 1 e.id ++ leBytes 1 outcome ++ leBytes 2 r.count)
  let s := s.endSteps r s.fwUp
  let s := if outcome = 0 then
      let s := (List.finRange 2).foldl
        (fun s n => if s.img.tx[n].cfg.src ≠ 0 ∧ s.img.tx[n].cfg.entry = e.id then s.txReady n else s) s
      let s := { s with
        img := { s.img with
          results := (s.resultGroups e.id).foldl
            (fun v g => vmod v g (fun x => { x with due := some (b2n r.alt + 2 * b2n r.cause.isSome, e.cluster.val) }))
            s.img.results } }
      let s := s.count (64 * e.cluster.val + 19) 1
      s.bufferStreams e.id r.count r.stamp
    else s
  let s := s.audDone e.id r.count (outcome = 0) bypassed
  { s with
    jobs := s.jobs.map (fun j =>
      if j.entry = e.id ∧ j.phase = 2 then
        if outcome = 0 then { j with done := j.done + 1, phase := if j.done + 1 ≥ j.want then 3 else 2 }
        else { j with dropped := j.dropped + 1 }
      else j) }

/-- RING_REPAIR of a run that repaired rows, when it completes or is stopped (R139). -/
def State.repairEvent (s : State) (r : Run) : State :=
  if r.repaired = 0 then s
  else s.event 0x0104 r.ctx r.entry.cluster.val false (leBytes 2 r.entry.id ++ leBytes 4 r.count ++ leBytes 2 (min r.repaired 65535))

/-- A run's raise references are issued (R210). -/
def State.issueRaises (s : State) (e : Entry) : State := e.raises.foldl (fun s r => s.raiseRef (some e.cluster) r) s

/-- The waits of a run leave the keepers. -/
def State.withdrawRun (s : State) (rid : Nat) : State :=
  s.dropWaiters (fun w =>
    match w.who with
    | .run r _ => decide (r = rid)
    | _ => false)

/-- The cores a run's shares hold become free, and its shares' LOCKW waits leave the keepers. -/
def State.freeCores (s : State) (c : Fin 4) (rid : Nat) : State :=
  let s := s.dropWaiters (fun w =>
    match w.who with
    | .share _ r _ => decide (r = rid)
    | _ => false)
  s.modCl c (fun k =>
    { k with
      cores := k.cores.map (fun x =>
        { x with
          cur := if x.cur.map (·.1) = some rid then none else x.cur,
          susp := x.susp.filter (fun y => y.1 ≠ rid) }) })

end Sys2Proof.Machine
end

