-- ==== Sys2Proof/Machine/MboxOps.lean ====
section
/-! DEFINITION. Mailboxes: replies, error details, the table of commands and its checks (R399 to R412). -/

namespace Sys2Proof.Machine

/-- A reply: status and payload. -/
structure Reply where
  status : Nat
  payload : List Byte
deriving DecidableEq, Repr

/-- A reply of status E_OK. -/
def ok (payload : List Byte) : Reply := ⟨0, payload⟩

/-- The error detail (R407). -/
def errDetail (where_ item : Option Nat) (key : List Byte) : List Byte :=
  leBytes 4 (where_.getD 0xFFFFFFFF) ++ leBytes 4 (item.getD 0xFFFFFFFF) ++ padTo 32 key

/-- An error with its offset, item and key. -/
def err (code : Nat) (where_ : Option Nat := none) (item : Option Nat := none) (key : List Byte := []) : Reply :=
  ⟨code, errDetail where_ item key⟩

/-- The state byte of a mailbox. -/
def Mbox.st (m : Mbox) : Nat := (m.page.read 7).toNat

/-- The state with a mailbox's reply written (R402): payload, length, status and rflags, then DONE; the reply is kept with the
request it answers (R404); the mailbox cause is set. -/
def State.writeReply (s : State) (m : Fin 8) (r : Reply) (replayed : Bool) : State :=
  let s := s.modMbox m (fun b =>
    let key := b.page.readBytes 0 7 ++ (b.taken.map (·.payload)).getD []
    let page := b.page.writeBytes 16 r.payload
    let page := page.putLe 4 2 r.payload.length
    let page := page.putLe 8 2 r.status
    let page := page.putLe 10 1 (b2n replayed)
    { b with page := page.putLe 7 1 3, taken := none, flight := none, kept := some (key, r.status, r.payload) })
  s.setCause m.val

/-- The reply of a command that the mailbox holds taken. -/
def State.reply (s : State) (m : Fin 8) (r : Reply) : State := s.writeReply m r false

/-- Keep a command BUSY until its work is done (R405). -/
def State.fly (s : State) (m : Fin 8) (kind : Nat) (args : List Nat) (reply : List Byte) : State :=
  s.modMbox m (fun b => { b with flight := some ⟨kind, args, reply⟩ })

/-- The mailboxes whose command in flight satisfies a test, in ascending order. -/
def State.flights (s : State) (f : Nat → InFlight → Bool) : List (Fin 8) :=
  (List.finRange 8).filter (fun m =>
    match s.mboxes[m].taken, s.mboxes[m].flight with
    | some t, some x => f t.command x
    | _, _ => false)

/-- Reply to every mailbox of a list. -/
def State.replyAll (s : State) (l : List (Fin 8)) (r : Reply) : State := l.foldl (fun s m => s.reply m r) s

/-- The reply of the command in flight of a mailbox, where it still is the one of this code. -/
def State.replyFor (s : State) (m : Fin 8) (code : Nat) (r : Reply) : State :=
  match s.mboxes[m].taken, s.mboxes[m].flight with
  | some t, some _ => if t.command = code then s.reply m r else s
  | _, _ => s

/-- Commands are served: by firmware, or by the boot ROM in RECOVERY (R401, R588). -/
def State.serving (s : State) : Bool := s.on 3 && (s.fwUp || s.dev.state = .recovery)

/-- What two commands may not act on at the same time (R403). -/
inductive Obj where
  | txn
  | cargo (n : Nat)
  | ctx (n : Nat)
  | region (n : Nat)
  | ring (n : Nat)
  | dsp (n : Nat)
  | port (n : Nat)
  | job (n : Nat)
  | nor
deriving DecidableEq, Repr

/-- The objects a command acts on (R403; log entry 176). REGION_INFO reports an update in flight, so it waits for none. -/
def cmdObjs (t : Taken) : List Obj :=
  let b := field t.payload 0 1
  let ports : List Obj := ((List.range 5).filter (fun n => bit b n)).map .port
  match t.command with
  | 0x0201 => [.txn]
  | 0x0202 => [.txn]
  | 0x0203 => [.txn]
  | 0x0204 => [.txn]
  | 0x0205 => [.txn]
  | 0x0301 => [.region (field t.payload 0 4)]
  | 0x0302 => [.cargo b]
  | 0x0303 => [.cargo b]
  | 0x0304 => [.cargo b]
  | 0x0411 => [.ctx b]
  | 0x0413 => [.region (field t.payload 0 4)]
  | 0x0414 => [.region (field t.payload 0 4)]
  | 0x0420 => if b = 1 then [.ring (field t.payload 4 2)] else []
  | 0x0421 => [.ring (field t.payload 0 4)]
  | 0x0430 => [.ctx b]
  | 0x0431 => [.ctx b]
  | 0x0601 => ports
  | 0x0602 => ports
  | 0x0603 => ports
  | 0x0604 => [.port b]
  | 0x0A01 => [.nor]
  | 0x0A02 => [.nor]
  | 0x0A03 => [.nor]
  | 0x0A04 => [.nor]
  | 0x0A10 => [.nor]
  | 0x0B01 => [.dsp b]
  | 0x0B02 => [.dsp b]
  | 0x0B03 => [.dsp b]
  | 0x0B04 => [.dsp b]
  | 0x0C01 => [.cargo b, .job b]
  | 0x0C02 => [.job b]
  | 0x0C03 => [.job b]
  | _ => []

/-- A command waits its turn (R403): one taken before it acts on an object of its own and is not done. -/
def State.waitsTurn (s : State) (m : Fin 8) (t : Taken) : Bool :=
  (List.finRange 8).any (fun k =>
    decide (s.mboxes[k].order < s.mboxes[m].order) &&
      s.mboxes[k].taken.any (fun u => (cmdObjs u).any (fun o => decide (o ∈ cmdObjs t))))

/-- Run the command that mailbox m holds taken and not yet begun, when it is one of the codes given and its turn (R403). -/
def State.withTaken (s : State) (m : Fin 8) (code : Nat) (f : Taken → State) : State :=
  match s.mboxes[m].taken with
  | some t => if t.command = code ∧ s.mboxes[m].flight = none ∧ s.serving ∧ s.waitsTurn m t = false then f t else s
  | none => s

/-- Run a command whose reply comes at once. -/
def State.answer (s : State) (m : Fin 8) (code : Nat) (f : Taken → State × Reply) : State :=
  s.withTaken m code (fun t => (f t).1.reply m (f t).2)

/-- Run a command whose reply comes at once, when its taken payload is of the kind that the row names. -/
def State.answerIf (s : State) (m : Fin 8) (code : Nat) (test : Nat → Bool) (f : Taken → State × Reply) : State :=
  s.withTaken m code (fun t => if test (field t.payload 0 1) then (f t).1.reply m (f t).2 else s)

/-- Checks made in order: the reply of the first that fails, nothing changed; else what the command does. -/
def State.checked (s : State) (l : List (Bool × Reply)) (f : State → State × Reply) : State × Reply :=
  match l.find? (fun x => x.1) with
  | some x => (s, x.2)
  | none => f s

/-! ### The table of commands (R411, R412) -/

/-- States H, Y, U and D. -/
def maskF : Nat := 0x3C

/-- A row: issuer is context 0 alone, and the states that serve it, bit by state code. -/
def cmdRow (code : Nat) : Option (Bool × Nat) :=
  match code with
  | 0x0101 => some (false, 0xFE)
  | 0x0201 => some (true, maskF)
  | 0x0202 => some (true, maskF)
  | 0x0203 => some (true, maskF)
  | 0x0204 => some (true, maskF)
  | 0x0205 => some (false, maskF)
  | 0x0301 => some (false, maskF)
  | 0x0302 => some (false, maskF)
  | 0x0303 => some (false, maskF)
  | 0x0304 => some (false, maskF)
  | 0x0401 => some (true, 0x08)
  | 0x0402 => some (true, 0x30)
  | 0x0403 => some (true, 0x30)
  | 0x0404 => some (true, 0x30)
  | 0x0405 => some (false, maskF)
  | 0x0410 => some (true, maskF)
  | 0x0411 => some (true, maskF)
  | 0x0412 => some (false, maskF)
  | 0x0413 => some (false, maskF)
  | 0x0414 => some (false, maskF)
  | 0x0415 => some (false, maskF)
  | 0x0420 => some (false, maskF)
  | 0x0421 => some (false, maskF)
  | 0x0430 => some (true, maskF)
  | 0x0431 => some (false, maskF)
  | 0x0501 => some (true, maskF)
  | 0x0601 => some (true, 0x38)
  | 0x0602 => some (true, 0x38)
  | 0x0603 => some (true, 0x38)
  | 0x0604 => some (true, 0x38)
  | 0x0701 => some (true, maskF)
  | 0x0702 => some (true, maskF)
  | 0x0703 => some (true, maskF)
  | 0x0704 => some (true, maskF)
  | 0x0710 => some (true, maskF)
  | 0x0711 => some (true, maskF)
  | 0x0801 => some (true, maskF)
  | 0x0802 => some (true, maskF)
  | 0x0901 => some (true, maskF)
  | 0x0902 => some (true, 0x30)
  | 0x0903 => some (false, 0xBC)
  | 0x0A01 => some (true, 0x7C)
  | 0x0A02 => some (true, maskF)
  | 0x0A03 => some (true, 0x0C)
  | 0x0A04 => some (false, 0x7C)
  | 0x0A10 => some (true, 0x38)
  | 0x0B01 => some (false, maskF)
  | 0x0B02 => some (false, maskF)
  | 0x0B03 => some (false, maskF)
  | 0x0B04 => some (false, maskF)
  | 0x0C01 => some (false, 0x30)
  | 0x0C02 => some (false, 0x30)
  | 0x0C03 => some (false, maskF)
  | _ => none

/-- Bits set in a mask. -/
def popcount (n : Nat) (v : Nat) : Nat := ((List.range n).filter (fun i => bit v i)).length

/-- The payload length a command's layout asks for, from its payload where it has count fields (R412); none where the
payload itself must be read through (CFG_SET) or its op is unknown. -/
def cmdLen (code : Nat) (p : List Byte) : Option Nat :=
  match code with
  | 0x0101 => some 0
  | 0x0201 => some 0
  | 0x0203 => some 0
  | 0x0204 => some 0
  | 0x0205 => some 36
  | 0x0301 => some 16
  | 0x0302 => some 4
  | 0x0303 => some 4
  | 0x0304 => some 8
  | 0x0401 => some 0
  | 0x0402 => some 0
  | 0x0403 => some 8
  | 0x0404 => some (4 + field p 0 2)
  | 0x0405 => some 4
  | 0x0410 => some 12
  | 0x0411 => some 4
  | 0x0412 => some 8
  | 0x0413 => some 4
  | 0x0414 => some 8
  | 0x0415 => some 4
  | 0x0420 => some 16
  | 0x0421 => some 4
  | 0x0430 => some 12
  | 0x0431 => some 4
  | 0x0501 =>
    let k := field p 1 1
    some (if k = 1 ∨ k = 3 ∨ k = 5 ∨ k = 8 ∨ k = 9 then 16 else 16 + field p 12 2)
  | 0x0601 => some 16
  | 0x0602 => some 8
  | 0x0603 => some 8
  | 0x0604 => some (8 + 4 * popcount 32 (field p 4 4))
  | 0x0701 => some 4
  | 0x0702 => some 4
  | 0x0703 =>
    match field p 0 1 with
    | 1 => some (4 + 2 * field p 1 1)
    | 2 => some 24
    | 3 => some 36
    | 4 => some 4
    | _ => none
  | 0x0704 => some 4
  | 0x0710 => some 24
  | 0x0711 => some 0
  | 0x0801 => some 4
  | 0x0802 => some 0
  | 0x0901 => some 16
  | 0x0902 => some 4
  | 0x0903 => some 4
  | 0x0A01 => some (if field p 0 1 = 1 then 16 + field p 8 4 else 16)
  | 0x0A02 => some 0
  | 0x0A03 => some 0
  | 0x0A04 => some 0
  | 0x0A10 => some 8
  | 0x0B01 => some 16
  | 0x0B02 => some 4
  | 0x0B03 => some 4
  | 0x0B04 => some 4
  | 0x0C01 => some 20
  | 0x0C02 => some 4
  | 0x0C03 => some 4
  | _ => none

/-- A context exists (R409). -/
def State.ctxExists (s : State) (c : Nat) : Bool := (assoc s.ctxs c).isSome

/-- The checks made on a post when it is taken: its code, the device state, its context, its issuer, its length (R409, R412;
the order is log entry 30). None: the command executes. -/
def State.gate (s : State) (code ctx len : Nat) (p : List Byte) : Option Reply :=
  match cmdRow code with
  | none => some (err 0x8001)
  | some (zero, states) =>
    if !bit states s.dev.state.code then
      some (err (match s.dev.state with
        | .outOfService => 0x8008
        | .recovery => 0x8001
        | _ => 0x8005))
    else if s.dev.state ≠ .recovery && !s.ctxExists ctx then some (err 0x8003)
    else if s.dev.state ≠ .recovery && zero && decide (ctx ≠ 0) then some (err 0x8004)
    else if len > 4080 then some (err 0x8002)
    else
      match cmdLen code p with
      | some n => if len = n then none else some (err 0x8002)
      | none => none

end Sys2Proof.Machine
end

