-- ==== Sys2Proof/Machine/Operands.lean ====
section
/-! DEFINITION. The number formats of chapter 2: decoding a value of a format, rounding an exact value into one (R57 to
R64), and the integer formats. -/

namespace Sys2Proof.Machine

/-- A floating-point format: exponent bits and fraction bits. -/
structure FFmt where
  eb : Nat
  fb : Nat
deriving DecidableEq, Repr

def fp32 : FFmt := ⟨8, 23⟩
def fp16 : FFmt := ⟨5, 10⟩
def bf16 : FFmt := ⟨8, 7⟩

/-- The exponent bias. -/
def FFmt.bias (f : FFmt) : Nat := 2 ^ (f.eb - 1) - 1

/-- The width in bits. -/
def FFmt.width (f : FFmt) : Nat := 1 + f.eb + f.fb

/-- The encoding of the sign. -/
def FFmt.signBit (f : FFmt) (neg : Bool) : Nat := if neg then 2 ^ (f.eb + f.fb) else 0

/-- Infinity of a sign. -/
def FFmt.infBits (f : FFmt) (neg : Bool) : Nat := f.signBit neg + (2 ^ f.eb - 1) * 2 ^ f.fb

/-- The canonical NaN. -/
def FFmt.nanBits (f : FFmt) : Nat := (2 ^ f.eb - 1) * 2 ^ f.fb + 2 ^ (f.fb - 1)

/-- The largest finite value of a sign. -/
def FFmt.maxBits (f : FFmt) (neg : Bool) : Nat := f.signBit neg + (2 ^ f.eb - 1) * 2 ^ f.fb - 1

/-- The flags of the numeric flag word (R65) that operations set. -/
structure NFlags where
  idn : Bool
  ufl : Bool
  ov : Bool
  inv : Bool
  dz : Bool
  v : Bool
deriving DecidableEq, Repr

/-- No flag. -/
def NFlags.none : NFlags := ⟨false, false, false, false, false, false⟩

/-- Sticky accumulation (R65). -/
def NFlags.or (a b : NFlags) : NFlags :=
  ⟨a.idn || b.idn, a.ufl || b.ufl, a.ov || b.ov, a.inv || b.inv, a.dz || b.dz, a.v || b.v⟩

def NFlags.mkIdn : NFlags := { NFlags.none with idn := true }
def NFlags.mkUfl : NFlags := { NFlags.none with ufl := true }
def NFlags.mkOv : NFlags := { NFlags.none with ov := true }
def NFlags.mkInv : NFlags := { NFlags.none with inv := true }
def NFlags.mkDz : NFlags := { NFlags.none with dz := true }
def NFlags.mkV : NFlags := { NFlags.none with v := true }

/-- The numeric flag word of R65 but for clip_fb. -/
def NFlags.word (f : NFlags) : W16 :=
  BitVec.ofNat 16 (b2n f.idn + 2 * b2n f.ufl + 4 * b2n f.ov + 8 * b2n f.inv + 16 * b2n f.dz + 32 * b2n f.v)

/-- A decoded operand: NaN, an infinity, or the finite value (-1)^neg * m * 2^e; a zero keeps its sign. -/
inductive FVal where
  | nan
  | inf (neg : Bool)
  | fin (neg : Bool) (m : Nat) (e : Int)
deriving DecidableEq, Repr

/-- Decode an encoding; a subnormal is flushed to zero with its sign kept, and IDN is set (R61). -/
def FFmt.decode (f : FFmt) (w : Nat) : FVal × NFlags :=
  let neg := bit w (f.eb + f.fb)
  let ex := bits w f.fb f.eb
  let fr := bits w 0 f.fb
  if ex = 2 ^ f.eb - 1 then (if fr = 0 then (.inf neg, .none) else (.nan, .none))
  else if ex = 0 then (.fin neg 0 0, if fr = 0 then .none else .mkIdn)
  else (.fin neg (2 ^ f.fb + fr) ((ex : Int) - (f.bias + f.fb : Nat)), .none)

/-- Number of significant bits. -/
def bitLen (m : Nat) : Nat := if m = 0 then 0 else Nat.log2 m + 1

/-- Round the exact magnitude m * 2^e (above it by less than 2^e when `m` was cut) toward zero into a format: R59, R60
(clamped with OV at the power of two above the largest finite value), R62 (flushed with UFL). -/
def FFmt.round (f : FFmt) (neg : Bool) (m : Nat) (e : Int) : Nat × NFlags :=
  if m = 0 then (f.signBit neg, .none)
  else
    let k := bitLen m
    let top : Int := (k : Int) - 1 + e
    if top > (f.bias : Int) then (f.maxBits neg, .mkOv)
    else if top < 1 - (f.bias : Int) then (f.signBit neg, .mkUfl)
    else
      let fr := if k > f.fb + 1 then m / 2 ^ (k - (f.fb + 1)) else m * 2 ^ (f.fb + 1 - k)
      (f.signBit neg + (top + f.bias).toNat * 2 ^ f.fb + (fr - 2 ^ f.fb), .none)

/-- The NaN result of R63. -/
def FFmt.nanRes (f : FFmt) : Nat × NFlags := (f.nanBits, .mkInv)

/-- Round a decoded value (R59 to R63), as a conversion does. -/
def FFmt.ofVal (f : FFmt) : FVal → Nat × NFlags
  | .nan => f.nanRes
  | .inf n => (f.infBits n, .none)
  | .fin n m e => f.round n m e

/-- Conversion between floating-point formats. -/
def fcvt (src dst : FFmt) (w : Nat) : Nat × NFlags :=
  let (v, fl) := src.decode w
  let (r, fl2) := dst.ofVal v
  (r, fl.or fl2)

/-- The least and greatest value of a w-bit two's complement integer (R68). -/
def intMin (w : Nat) : Int := -(2 ^ (w - 1) : Nat)
def intMax (w : Nat) : Int := (2 ^ (w - 1) : Nat) - 1

/-- Saturate into w bits; the flag says whether the value was outside. -/
def satInt (w : Nat) (x : Int) : Int × Bool :=
  if x > intMax w then (intMax w, true) else if x < intMin w then (intMin w, true) else (x, false)

/-- Truncation toward zero of m * 2^e. -/
def truncMag (m : Nat) (e : Int) : Nat := if e ≥ 0 then m * 2 ^ e.toNat else m / 2 ^ (-e).toNat

/-- Signed magnitude to an integer. -/
def signed (neg : Bool) (m : Nat) : Int := if neg then -(m : Int) else m

/-- Float to integer of width w (R64): truncates, saturates with V, NaN gives 0 with INV. -/
def fToInt (src : FFmt) (w : Nat) (x : Nat) : Int × NFlags :=
  let (v, fl) := src.decode x
  match v with
  | .nan => (0, fl.or .mkInv)
  | .inf n => (if n then intMin w else intMax w, fl.or .mkV)
  | .fin n m e =>
    let r := satInt w (signed n (truncMag m e))
    (r.1, if r.2 then fl.or .mkV else fl)

/-- Integer to float, rounding toward zero (R64). -/
def intToF (dst : FFmt) (x : Int) : Nat × NFlags := dst.round (decide (x < 0)) x.natAbs 0

/-- Integer square root by bits, from bit `n - 1` down. -/
def isqrtAux : Nat → Nat → Nat → Nat
  | 0, _, r => r
  | n + 1, x, r => if (r + 2 ^ n) * (r + 2 ^ n) ≤ x then isqrtAux n x (r + 2 ^ n) else isqrtAux n x r

/-- The integer square root, rounded down. -/
def isqrt (x : Nat) : Nat := isqrtAux (bitLen x / 2 + 1) x 0

end Sys2Proof.Machine
end

