-- ==== Sys2Proof/Machine/Flags.lean ====
section
/-! DEFINITION. Arithmetic with its flags: floating point rounded toward zero (R59 to R67) and integers (R68, R69). Every
operation answers the result's encoding and the flags it sets. -/

namespace Sys2Proof.Machine

/-- The exact sum of two finite values as an integer and an exponent. -/
def exactSum (n1 : Bool) (m1 : Nat) (e1 : Int) (n2 : Bool) (m2 : Nat) (e2 : Int) : Int × Int :=
  let e := min e1 e2
  (signed n1 (m1 * 2 ^ (e1 - e).toNat) + signed n2 (m2 * 2 ^ (e2 - e).toNat), e)

/-- Addition of decoded operands into a format (R59 to R63). -/
def FFmt.addVal (f : FFmt) (a b : FVal) : Nat × NFlags :=
  match a, b with
  | .nan, _ => f.nanRes
  | _, .nan => f.nanRes
  | .inf x, .inf y => if x = y then (f.infBits x, .none) else f.nanRes
  | .inf x, _ => (f.infBits x, .none)
  | _, .inf y => (f.infBits y, .none)
  | .fin n1 m1 e1, .fin n2 m2 e2 =>
    let s := exactSum n1 m1 e1 n2 m2 e2
    if s.1 = 0 then (f.signBit (m1 == 0 && m2 == 0 && n1 && n2), .none) else f.round (decide (s.1 < 0)) s.1.natAbs s.2

/-- The exact product of decoded operands; an infinity times zero is a NaN. -/
def mulExact (a b : FVal) : FVal :=
  match a, b with
  | .nan, _ => .nan
  | _, .nan => .nan
  | .inf x, .inf y => .inf (x != y)
  | .inf x, .fin n m _ => if m = 0 then .nan else .inf (x != n)
  | .fin n m _, .inf y => if m = 0 then .nan else .inf (n != y)
  | .fin n1 m1 e1, .fin n2 m2 e2 => .fin (n1 != n2) (m1 * m2) (e1 + e2)

/-- The negation of a decoded operand. -/
def FVal.neg : FVal → FVal
  | .nan => .nan
  | .inf n => .inf (!n)
  | .fin n m e => .fin (!n) m e

/-- Division of decoded operands (R63). -/
def FFmt.divVal (f : FFmt) (a b : FVal) : Nat × NFlags :=
  match a, b with
  | .nan, _ => f.nanRes
  | _, .nan => f.nanRes
  | .inf _, .inf _ => f.nanRes
  | .inf x, .fin n _ _ => (f.infBits (x != n), .none)
  | .fin n _ _, .inf y => (f.signBit (n != y), .none)
  | .fin n1 m1 e1, .fin n2 m2 e2 =>
    if m2 = 0 then (if m1 = 0 then f.nanRes else (f.infBits (n1 != n2), .mkDz))
    else f.round (n1 != n2) (m1 * 2 ^ (64 + bitLen m2) / m2) (e1 - e2 - (64 + bitLen m2 : Nat))

/-- The square root of a decoded operand (R63); of a zero of either sign +0 (R62). -/
def FFmt.sqrtVal (f : FFmt) (a : FVal) : Nat × NFlags :=
  match a with
  | .nan => f.nanRes
  | .inf n => if n then f.nanRes else (f.infBits false, .none)
  | .fin n m e =>
    if m = 0 then (f.signBit false, .none)
    else if n then f.nanRes
    else
      let odd := decide (e % 2 = 1)
      let m' := if odd then 2 * m else m
      let e' := if odd then e - 1 else e
      f.round false (isqrt (m' * 2 ^ 64)) (e' / 2 - 32)

/-- The reciprocal square root of a decoded operand (R63). -/
def FFmt.rsqrtVal (f : FFmt) (a : FVal) : Nat × NFlags :=
  match a with
  | .nan => f.nanRes
  | .inf n => if n then f.nanRes else (f.signBit false, .none)
  | .fin n m e =>
    if m = 0 then (f.infBits n, .mkDz)
    else if n then f.nanRes
    else
      let odd := decide (e % 2 = 1)
      let m' := if odd then 2 * m else m
      let e' := if odd then e - 1 else e
      f.round false (isqrt (2 ^ 160 / m')) (-(e' / 2) - 80)

/-- Apply an operation of two decoded operands to two encodings. -/
def FFmt.op2 (f : FFmt) (op : FVal → FVal → Nat × NFlags) (a b : Nat) : Nat × NFlags :=
  let (x, fx) := f.decode a
  let (y, fy) := f.decode b
  let (r, fr) := op x y
  (r, (fx.or fy).or fr)

/-- Apply an operation of one decoded operand to an encoding. -/
def FFmt.op1 (f : FFmt) (op : FVal → Nat × NFlags) (a : Nat) : Nat × NFlags :=
  let (x, fx) := f.decode a
  let (r, fr) := op x
  (r, fx.or fr)

def fadd (f : FFmt) (a b : Nat) : Nat × NFlags := f.op2 f.addVal a b
def fsub (f : FFmt) (a b : Nat) : Nat × NFlags := f.op2 (fun x y => f.addVal x y.neg) a b
def fmul (f : FFmt) (a b : Nat) : Nat × NFlags := f.op2 (fun x y => f.ofVal (mulExact x y)) a b
def fdiv (f : FFmt) (a b : Nat) : Nat × NFlags := f.op2 f.divVal a b
def fsqrt (f : FFmt) (a : Nat) : Nat × NFlags := f.op1 f.sqrtVal a
def frsqrt (f : FFmt) (a : Nat) : Nat × NFlags := f.op1 f.rsqrtVal a

/-- a * b + c, rounded once (R59). -/
def ffma (f : FFmt) (a b c : Nat) : Nat × NFlags :=
  let (x, fx) := f.decode a
  let (y, fy) := f.decode b
  let (z, fz) := f.decode c
  let (r, fr) := f.addVal (mulExact x y) z
  (r, ((fx.or fy).or fz).or fr)

/-- The reciprocal (R63): of a zero, infinity with the operand's sign. -/
def frecip (f : FFmt) (a : Nat) : Nat × NFlags := f.op1 (fun x => f.divVal (.fin false 1 0) x) a

/-- Negation and absolute value (R61, R63, R66). -/
def fneg (f : FFmt) (a : Nat) : Nat × NFlags := f.op1 (fun x => f.ofVal x.neg) a
def fabs (f : FFmt) (a : Nat) : Nat × NFlags :=
  f.op1 (fun x => match x with
    | .nan => f.nanRes
    | .inf _ => (f.infBits false, .none)
    | .fin _ m e => f.round false m e) a

/-- Exact comparison of decoded non-NaN values, with -0 below +0 when `zeros` is set. -/
def FVal.lt (zeroSign : Bool) (a b : FVal) : Bool :=
  match a, b with
  | .nan, _ => false
  | _, .nan => false
  | .inf x, .inf y => x && !y
  | .inf x, _ => x
  | _, .inf y => !y
  | .fin n1 m1 e1, .fin n2 m2 e2 =>
    let s := exactSum n1 m1 e1 (!n2) m2 e2
    if s.1 = 0 then zeroSign && m1 == 0 && m2 == 0 && n1 && !n2 else decide (s.1 < 0)

/-- MIN and MAX (R63): a NaN operand gives the canonical NaN, and -0 lies below +0. -/
def fmin (f : FFmt) (a b : Nat) : Nat × NFlags :=
  f.op2 (fun x y => if x = .nan ∨ y = .nan then f.nanRes else f.ofVal (if FVal.lt true y x then y else x)) a b
def fmax (f : FFmt) (a b : Nat) : Nat × NFlags :=
  f.op2 (fun x y => if x = .nan ∨ y = .nan then f.nanRes else f.ofVal (if FVal.lt true x y then y else x)) a b

/-- The four comparisons of the vector engine. -/
inductive CmpOp where
  | eq | ne | lt | le
deriving DecidableEq, Repr

/-- A floating-point comparison (R63): false with a NaN operand, but not-equal true, with INV. -/
def fcmp (f : FFmt) (op : CmpOp) (a b : Nat) : Bool × NFlags :=
  let (x, fx) := f.decode a
  let (y, fy) := f.decode b
  let fl := fx.or fy
  if x = .nan ∨ y = .nan then (decide (op = .ne), fl.or .mkInv)
  else
    let l := FVal.lt false x y
    let g := FVal.lt false y x
    (match op with
      | .eq => !l && !g
      | .ne => l || g
      | .lt => l
      | .le => !g, fl)

/-- The exact sum of finite values as an integer over 2^e with e the least exponent. -/
def sumExact (l : List FVal) : Int × Int :=
  let e := l.foldl (fun acc v => match v with
    | .fin _ m x => if m = 0 then acc else min acc x
    | _ => acc) 0
  (l.foldl (fun acc v => match v with
    | .fin n m x => if m = 0 then acc else acc + signed n (m * 2 ^ (x - e).toNat)
    | _ => acc) 0, e)

/-- A sum of decoded values formed exactly and rounded once toward zero (R223). -/
def FFmt.sumVals (f : FFmt) (l : List FVal) : Nat × NFlags :=
  if l.any (fun v => v = .nan) then f.nanRes
  else if l.any (fun v => v = .inf false) && l.any (fun v => v = .inf true) then f.nanRes
  else if l.any (fun v => v = .inf false) then (f.infBits false, .none)
  else if l.any (fun v => v = .inf true) then (f.infBits true, .none)
  else
    let s := sumExact l
    if s.1 = 0 then
      (f.signBit (!l.isEmpty && l.all (fun v => match v with
        | .fin n m _ => n && m == 0
        | _ => false)), .none)
    else f.round (decide (s.1 < 0)) s.1.natAbs s.2

/-- An integer result of width w that wraps, V when the exact value lay outside (R68). -/
def wrapInt (w : Nat) (x : Int) : Nat × NFlags := (wrapN w x, if (satInt w x).2 then .mkV else .none)

/-- An integer result of width w that saturates with V. -/
def satRes (w : Nat) (x : Int) : Nat × NFlags :=
  let r := satInt w x
  (wrapN w r.1, if r.2 then .mkV else .none)

/-- Integer division (R68): quotient and remainder, truncating toward zero. -/
def idiv (w : Nat) (a b : Int) : Nat × Nat × NFlags :=
  if b = 0 then (wrapN w (if a ≥ 0 then intMax w else intMin w), wrapN w a, .mkDz)
  else
    let q := satInt w (a.tdiv b)
    (wrapN w q.1, wrapN w (if q.2 then 0 else a.tmod b), if q.2 then .mkV else .none)

/-- The shifts of R69: the count is the second operand as an unsigned number of the lane width. -/
def shlN (w a n : Nat) : Nat := if n ≥ w then 0 else a * 2 ^ n % 2 ^ w
def lsrN (w a n : Nat) : Nat := if n ≥ w then 0 else a % 2 ^ w / 2 ^ n
def asrN (w a n : Nat) : Nat :=
  if n ≥ w then (if sgn w a < 0 then 2 ^ w - 1 else 0) else wrapN w (sgn w a / (2 ^ n : Nat))

/-- NARROW (R68): trunc(a / 2^n) saturated to the destination; a count of 64 or more divides every operand to 0. -/
def narrowInt (dst : Nat) (a : Int) (n : Nat) : Nat × NFlags := satRes dst (a.tdiv (2 ^ min n 64 : Nat))

end Sys2Proof.Machine
end

