-- ==== Sys2Proof/Machine/ExpTab.lean ====
section
/-! DEFINITION. The tables and constants of exp2_u and log2_u (R175): each entry is the exact value rounded toward zero to
FP32. -/

namespace Sys2Proof.Machine

/-- C1 = ln 2 and C2 = (ln 2)^2 / 2 (R175). -/
def expC1 : Nat := 0x3F317217
def expC2 : Nat := 0x3E75FDEF

/-- T[i] = 2^(-i/64) (R175), entries 0 to 31. -/
def tabT0 : List Nat :=
  [0x3F800000, 0x3F7D3E0C, 0x3F7A83B2, 0x3F77D0DF, 0x3F75257D, 0x3F728177, 0x3F6FE4B9, 0x3F6D4F30,
   0x3F6AC0C6, 0x3F68396A, 0x3F65B906, 0x3F633F89, 0x3F60CCDE, 0x3F5E60F4, 0x3F5BFBB7, 0x3F599D15,
   0x3F5744FC, 0x3F54F35A, 0x3F52A81D, 0x3F506333, 0x3F4E248C, 0x3F4BEC14, 0x3F49B9BD, 0x3F478D74,
   0x3F45672A, 0x3F4346CC, 0x3F412C4C, 0x3F3F1799, 0x3F3D08A3, 0x3F3AFF5A, 0x3F38FBAF, 0x3F36FD91]

/-- T[i] = 2^(-i/64) (R175), entries 32 to 63. -/
def tabT1 : List Nat :=
  [0x3F3504F3, 0x3F3311C4, 0x3F3123F5, 0x3F2F3B78, 0x3F2D583E, 0x3F2B7A39, 0x3F29A15A, 0x3F27CD93,
   0x3F25FED6, 0x3F243515, 0x3F227043, 0x3F20B051, 0x3F1EF532, 0x3F1D3ED9, 0x3F1B8D39, 0x3F19E045,
   0x3F1837F0, 0x3F16942D, 0x3F14F4EF, 0x3F135A2B, 0x3F11C3D3, 0x3F1031DC, 0x3F0EA439, 0x3F0D1ADF,
   0x3F0B95C1, 0x3F0A14D5, 0x3F08980E, 0x3F071F61, 0x3F05AAC3, 0x3F043A28, 0x3F02CD86, 0x3F0164D1]

/-- T[i] = 2^(-i/64) (R175). -/
def tabT : List Nat :=
  tabT0 ++ tabT1

/-- LG[j] = log2(1 + j/256) (R175), entries 0 to 31. -/
def tabLG0 : List Nat :=
  [0x00000000, 0x3BB84E23, 0x3C37F285, 0x3C89B188, 0x3CB73CB4, 0x3CE49B1D, 0x3D08E68E, 0x3D1F6984,
   0x3D35D69B, 0x3D4C2DFE, 0x3D626FD5, 0x3D789C4C, 0x3D8759C4, 0x3D925ADB, 0x3D9D517E, 0x3DA83DC1,
   0x3DB31FB7, 0x3DBDF774, 0x3DC8C50B, 0x3DD3888E, 0x3DDE4212, 0x3DE8F1A7, 0x3DF39760, 0x3DFE3350,
   0x3E0462C4, 0x3E09A70D, 0x3E0EE68C, 0x3E14214A, 0x3E19574F, 0x3E1E88A3, 0x3E23B54F, 0x3E28DD5C]

/-- LG[j] = log2(1 + j/256) (R175), entries 32 to 63. -/
def tabLG1 : List Nat :=
  [0x3E2E00D1, 0x3E331FB7, 0x3E383A16, 0x3E3D4FF6, 0x3E42615E, 0x3E476E57, 0x3E4C76E8, 0x3E517B19,
   0x3E567AF1, 0x3E5B7678, 0x3E606DB6, 0x3E6560B1, 0x3E6A4F72, 0x3E6F39FF, 0x3E74205F, 0x3E790299,
   0x3E7DE0B5, 0x3E815D5D, 0x3E83C856, 0x3E86314B, 0x3E88983E, 0x3E8AFD33, 0x3E8D602D, 0x3E8FC12F,
   0x3E92203D, 0x3E947D59, 0x3E96D887, 0x3E9931CB, 0x3E9B8926, 0x3E9DDE9D, 0x3EA03231, 0x3EA283E7]

/-- LG[j] = log2(1 + j/256) (R175), entries 64 to 95. -/
def tabLG2 : List Nat :=
  [0x3EA4D3C2, 0x3EA721C4, 0x3EA96DEF, 0x3EABB848, 0x3EAE00D1, 0x3EB0478D, 0x3EB28C7F, 0x3EB4CFA9,
   0x3EB7110E, 0x3EB950B1, 0x3EBB8E95, 0x3EBDCABD, 0x3EC0052B, 0x3EC23DE1, 0x3EC474E3, 0x3EC6AA33,
   0x3EC8DDD4, 0x3ECB0FC8, 0x3ECD4011, 0x3ECF6EB3, 0x3ED19BB0, 0x3ED3C70A, 0x3ED5F0C3, 0x3ED818DF,
   0x3EDA3F5F, 0x3EDC6446, 0x3EDE8797, 0x3EE0A953, 0x3EE2C97D, 0x3EE4E817, 0x3EE70524, 0x3EE920A6]

/-- LG[j] = log2(1 + j/256) (R175), entries 96 to 127. -/
def tabLG3 : List Nat :=
  [0x3EEB3A9F, 0x3EED5311, 0x3EEF69FE, 0x3EF17F69, 0x3EF39355, 0x3EF5A5C2, 0x3EF7B6B3, 0x3EF9C62B,
   0x3EFBD42B, 0x3EFDE0B5, 0x3EFFEBCC, 0x3F00FAB9, 0x3F01FED4, 0x3F030238, 0x3F0404E7, 0x3F0506E1,
   0x3F060828, 0x3F0708BB, 0x3F08089D, 0x3F0907CE, 0x3F0A064F, 0x3F0B0422, 0x3F0C0146, 0x3F0CFDBD,
   0x3F0DF988, 0x3F0EF4A8, 0x3F0FEF1E, 0x3F10E8EA, 0x3F11E20E, 0x3F12DA8A, 0x3F13D260, 0x3F14C98F]

/-- LG[j] = log2(1 + j/256) (R175), entries 128 to 159. -/
def tabLG4 : List Nat :=
  [0x3F15C01A, 0x3F16B600, 0x3F17AB43, 0x3F189FE4, 0x3F1993E3, 0x3F1A8741, 0x3F1B79FF, 0x3F1C6C1F,
   0x3F1D5D9F, 0x3F1E4E83, 0x3F1F3EC9, 0x3F202E74, 0x3F211D83, 0x3F220BF9, 0x3F22F9D4, 0x3F23E717,
   0x3F24D3C2, 0x3F25BFD5, 0x3F26AB52, 0x3F27963A, 0x3F28808C, 0x3F296A4A, 0x3F2A5374, 0x3F2B3C0B,
   0x3F2C2411, 0x3F2D0B85, 0x3F2DF268, 0x3F2ED8BB, 0x3F2FBE7F, 0x3F30A3B5, 0x3F31885C, 0x3F326C76]

/-- LG[j] = log2(1 + j/256) (R175), entries 160 to 191. -/
def tabLG5 : List Nat :=
  [0x3F335004, 0x3F343306, 0x3F35157C, 0x3F35F769, 0x3F36D8CB, 0x3F37B9A4, 0x3F3899F4, 0x3F3979BD,
   0x3F3A58FE, 0x3F3B37B9, 0x3F3C15ED, 0x3F3CF39D, 0x3F3DD0C7, 0x3F3EAD6E, 0x3F3F8991, 0x3F406531,
   0x3F41404E, 0x3F421AEA, 0x3F42F505, 0x3F43CE9F, 0x3F44A7BA, 0x3F458055, 0x3F465871, 0x3F473010,
   0x3F480730, 0x3F48DDD4, 0x3F49B3FB, 0x3F4A89A6, 0x3F4B5ED6, 0x3F4C338B, 0x3F4D07C6, 0x3F4DDB87]

/-- LG[j] = log2(1 + j/256) (R175), entries 192 to 223. -/
def tabLG6 : List Nat :=
  [0x3F4EAECF, 0x3F4F819F, 0x3F5053F6, 0x3F5125D6, 0x3F51F73F, 0x3F52C832, 0x3F5398AE, 0x3F5468B5,
   0x3F553847, 0x3F560765, 0x3F56D60F, 0x3F57A445, 0x3F587209, 0x3F593F5A, 0x3F5A0C39, 0x3F5AD8A7,
   0x3F5BA4A4, 0x3F5C7031, 0x3F5D3B4D, 0x3F5E05FA, 0x3F5ED038, 0x3F5F9A08, 0x3F60636A, 0x3F612C5E,
   0x3F61F4E5, 0x3F62BCFF, 0x3F6384AD, 0x3F644BEF, 0x3F6512C6, 0x3F65D933, 0x3F669F35, 0x3F6764CC]

/-- LG[j] = log2(1 + j/256) (R175), entries 224 to 255. -/
def tabLG7 : List Nat :=
  [0x3F6829FB, 0x3F68EEC0, 0x3F69B31D, 0x3F6A7712, 0x3F6B3A9F, 0x3F6BFDC4, 0x3F6CC083, 0x3F6D82DB,
   0x3F6E44CD, 0x3F6F0659, 0x3F6FC781, 0x3F708843, 0x3F7148A1, 0x3F72089B, 0x3F72C831, 0x3F738765,
   0x3F744635, 0x3F7504A3, 0x3F75C2AF, 0x3F76805A, 0x3F773DA3, 0x3F77FA8C, 0x3F78B714, 0x3F79733C,
   0x3F7A2F04, 0x3F7AEA6D, 0x3F7BA577, 0x3F7C6023, 0x3F7D1A70, 0x3F7DD460, 0x3F7E8DF2, 0x3F7F4727]

/-- LG[j] = log2(1 + j/256) (R175). -/
def tabLG : List Nat :=
  tabLG0 ++ tabLG1 ++ tabLG2 ++ tabLG3 ++ tabLG4 ++ tabLG5 ++ tabLG6 ++ tabLG7

/-- DG[j] = 1/((1 + j/256) ln 2) (R175), entries 0 to 31. -/
def tabDG0 : List Nat :=
  [0x3FB8AA3B, 0x3FB7F248, 0x3FB73BC3, 0x3FB686A7, 0x3FB5D2EF, 0x3FB52098, 0x3FB46F9D, 0x3FB3BFFB,
   0x3FB311AD, 0x3FB264B0, 0x3FB1B901, 0x3FB10E9A, 0x3FB06579, 0x3FAFBD9A, 0x3FAF16F9, 0x3FAE7193,
   0x3FADCD64, 0x3FAD2A6A, 0x3FAC889F, 0x3FABE802, 0x3FAB488F, 0x3FAAAA43, 0x3FAA0D1A, 0x3FA97112,
   0x3FA8D627, 0x3FA83C56, 0x3FA7A39D, 0x3FA70BF8, 0x3FA67564, 0x3FA5DFDE, 0x3FA54B65, 0x3FA4B7F4]

/-- DG[j] = 1/((1 + j/256) ln 2) (R175), entries 32 to 63. -/
def tabDG1 : List Nat :=
  [0x3FA42589, 0x3FA39422, 0x3FA303BC, 0x3FA27453, 0x3FA1E5E6, 0x3FA15872, 0x3FA0CBF4, 0x3FA0406A,
   0x3F9FB5D2, 0x3F9F2C28, 0x3F9EA36B, 0x3F9E1B98, 0x3F9D94AD, 0x3F9D0EA7, 0x3F9C8985, 0x3F9C0543,
   0x3F9B81E0, 0x3F9AFF5A, 0x3F9A7DAE, 0x3F99FCDB, 0x3F997CDE, 0x3F98FDB4, 0x3F987F5D, 0x3F9801D6,
   0x3F97851C, 0x3F97092F, 0x3F968E0C, 0x3F9613B1, 0x3F959A1C, 0x3F95214C, 0x3F94A93E, 0x3F9431F0]

/-- DG[j] = 1/((1 + j/256) ln 2) (R175), entries 64 to 95. -/
def tabDG2 : List Nat :=
  [0x3F93BB62, 0x3F934591, 0x3F92D07B, 0x3F925C1F, 0x3F91E87A, 0x3F91758C, 0x3F910352, 0x3F9091CB,
   0x3F9020F5, 0x3F8FB0CF, 0x3F8F4157, 0x3F8ED28C, 0x3F8E646B, 0x3F8DF6F3, 0x3F8D8A24, 0x3F8D1DFA,
   0x3F8CB276, 0x3F8C4795, 0x3F8BDD55, 0x3F8B73B6, 0x3F8B0AB7, 0x3F8AA254, 0x3F8A3A8F, 0x3F89D364,
   0x3F896CD2, 0x3F8906D9, 0x3F88A177, 0x3F883CAA, 0x3F87D872, 0x3F8774CC, 0x3F8711B9, 0x3F86AF36]

/-- DG[j] = 1/((1 + j/256) ln 2) (R175), entries 96 to 127. -/
def tabDG3 : List Nat :=
  [0x3F864D42, 0x3F85EBDC, 0x3F858B03, 0x3F852AB6, 0x3F84CAF3, 0x3F846BBA, 0x3F840D09, 0x3F83AEDF,
   0x3F83513B, 0x3F82F41B, 0x3F829780, 0x3F823B67, 0x3F81DFCF, 0x3F8184B8, 0x3F812A20, 0x3F80D007,
   0x3F80766B, 0x3F801D4C, 0x3F7F8950, 0x3F7ED8FC, 0x3F7E299B, 0x3F7D7B2B, 0x3F7CCDA9, 0x3F7C2115,
   0x3F7B756B, 0x3F7ACAAB, 0x3F7A20D2, 0x3F7977DE, 0x3F78CFCE, 0x3F7828A0, 0x3F778251, 0x3F76DCE2]

/-- DG[j] = 1/((1 + j/256) ln 2) (R175), entries 128 to 159. -/
def tabDG4 : List Nat :=
  [0x3F76384E, 0x3F759496, 0x3F74F1B7, 0x3F744FAF, 0x3F73AE7D, 0x3F730E1F, 0x3F726E94, 0x3F71CFDA,
   0x3F7131EF, 0x3F7094D1, 0x3F6FF880, 0x3F6F5CFA, 0x3F6EC23C, 0x3F6E2847, 0x3F6D8F17, 0x3F6CF6AC,
   0x3F6C5F04, 0x3F6BC81D, 0x3F6B31F7, 0x3F6A9C8F, 0x3F6A07E5, 0x3F6973F7, 0x3F68E0C3, 0x3F684E49,
   0x3F67BC86, 0x3F672B7A, 0x3F669B23, 0x3F660B7F, 0x3F657C8F, 0x3F64EE4F, 0x3F6460BF, 0x3F63D3DE]

/-- DG[j] = 1/((1 + j/256) ln 2) (R175), entries 160 to 191. -/
def tabDG5 : List Nat :=
  [0x3F6347AB, 0x3F62BC23, 0x3F623147, 0x3F61A714, 0x3F611D89, 0x3F6094A6, 0x3F600C69, 0x3F5F84D1,
   0x3F5EFDDD, 0x3F5E778B, 0x3F5DF1DA, 0x3F5D6CCA, 0x3F5CE859, 0x3F5C6487, 0x3F5BE151, 0x3F5B5EB7,
   0x3F5ADCB7, 0x3F5A5B52, 0x3F59DA85, 0x3F595A50, 0x3F58DAB1, 0x3F585BA8, 0x3F57DD33, 0x3F575F52,
   0x3F56E203, 0x3F566546, 0x3F55E919, 0x3F556D7C, 0x3F54F26D, 0x3F5477EC, 0x3F53FDF8, 0x3F53848F]

/-- DG[j] = 1/((1 + j/256) ln 2) (R175), entries 192 to 223. -/
def tabDG6 : List Nat :=
  [0x3F530BB1, 0x3F52935D, 0x3F521B91, 0x3F51A44E, 0x3F512D92, 0x3F50B75C, 0x3F5041AB, 0x3F4FCC7F,
   0x3F4F57D6, 0x3F4EE3B0, 0x3F4E700C, 0x3F4DFCE9, 0x3F4D8A46, 0x3F4D1822, 0x3F4CA67D, 0x3F4C3555,
   0x3F4BC4AB, 0x3F4B547C, 0x3F4AE4C9, 0x3F4A7590, 0x3F4A06D1, 0x3F49988A, 0x3F492ABC, 0x3F48BD65,
   0x3F485085, 0x3F47E41B, 0x3F477825, 0x3F470CA5, 0x3F46A197, 0x3F4636FD, 0x3F45CCD5, 0x3F45631E]

/-- DG[j] = 1/((1 + j/256) ln 2) (R175), entries 224 to 255. -/
def tabDG7 : List Nat :=
  [0x3F44F9D8, 0x3F449102, 0x3F44289C, 0x3F43C0A4, 0x3F43591A, 0x3F42F1FE, 0x3F428B4E, 0x3F42250A,
   0x3F41BF31, 0x3F4159C3, 0x3F40F4BF, 0x3F409024, 0x3F402BF2, 0x3F3FC828, 0x3F3F64C6, 0x3F3F01CA,
   0x3F3E9F34, 0x3F3E3D04, 0x3F3DDB39, 0x3F3D79D3, 0x3F3D18D0, 0x3F3CB830, 0x3F3C57F2, 0x3F3BF817,
   0x3F3B989D, 0x3F3B3984, 0x3F3ADACB, 0x3F3A7C72, 0x3F3A1E78, 0x3F39C0DC, 0x3F39639E, 0x3F3906BE]

/-- DG[j] = 1/((1 + j/256) ln 2) (R175). -/
def tabDG : List Nat :=
  tabDG0 ++ tabDG1 ++ tabDG2 ++ tabDG3 ++ tabDG4 ++ tabDG5 ++ tabDG6 ++ tabDG7

end Sys2Proof.Machine
end

