-- ==== Sys2Proof/Machine/MatrixFn.lean ====
section
/-! DEFINITION. The matrix engine's function: operand addresses, row statistics, codes and the reduction (R73 to R109). -/

namespace Sys2Proof.Machine

/-- Read `n` bytes at an operand address (R95) plus an offset: bit 31 selects cluster memory. -/
def opRead (loc clus : Mem) (addr off n : Nat) : Nat :=
  if bit addr 31 then clus.le (bits addr 0 24 + off) n else loc.le (bits addr 0 24 + off) n

/-- The bytes at an operand address. -/
def opBytes (loc clus : Mem) (addr n : Nat) : List Byte :=
  if bit addr 31 then clus.readBytes (bits addr 0 24) n else loc.readBytes (bits addr 0 24) n

/-- A layer descriptor (R94). -/
structure LayerDesc where
  op : Nat
  int4 : Bool
  a16 : Bool
  inF : FFmt
  outF : FFmt
  gCode : Nat
  bias : Bool
  fmtRsv : Bool
  outliers : Nat
  mTile : Nat
  slot : Nat
  m : Nat
  k : Nat
  n : Nat
  act : Nat
  actStride : Nat
  weight : Nat
  weft : Nat
  aux : Nat
  out : Nat
  outStride : Nat
  outlier : List Nat
  rsv : Bool
deriving DecidableEq, Repr

/-- The fields of a layer descriptor's 128 bytes; `rsv` says that a reserved field is non-zero. -/
def LayerDesc.ofBytes (l : List Byte) : LayerDesc :=
  let f := field l 1 1
  let j := field l 2 1
  { op := field l 0 1, int4 := bit f 0, a16 := bit f 1, inF := if bit f 2 then bf16 else fp16,
    outF := if bit f 3 then bf16 else fp16, gCode := bits f 4 2, bias := bit f 6, fmtRsv := bit f 7,
    outliers := j, mTile := field l 3 1, slot := field l 4 2, m := field l 8 4, k := field l 12 2, n := field l 14 2,
    act := field l 16 4, actStride := field l 20 4, weight := field l 24 4, weft := field l 28 4, aux := field l 32 4,
    out := field l 36 4, outStride := field l 40 4, outlier := (List.range j).map (fun i => field l (64 + 2 * i) 2),
    rsv := field l 6 2 != 0 || field l 44 20 != 0 || (List.range (32 - j)).any (fun i => field l (64 + 2 * (j + i)) 2 != 0) }

/-- G of the descriptor (R94). -/
def LayerDesc.g (d : LayerDesc) : Nat := 32 * 2 ^ d.gCode

/-- An element widened to FP32 with its flush flag. -/
def widen (f : FFmt) (x : Nat) : Nat × NFlags := fcvt f fp32 x

/-- Whether an FP32 encoding is a NaN or an infinity. -/
def isNaN32 (x : Nat) : Bool := bits x 23 8 == 255 && bits x 0 23 != 0
def isInf32 (x : Nat) : Bool := bits x 23 8 == 255 && bits x 0 23 == 0
def absBits32 (x : Nat) : Nat := bits x 0 31
def neg32 (x : Nat) : Nat := if bit x 31 then x - 2 ^ 31 else x + 2 ^ 31

/-- The larger and the smaller of two FP32 values that are not NaN. -/
def max32 (a b : Nat) : Nat := (fmax fp32 a b).1
def min32 (a b : Nat) : Nat := (fmin fp32 a b).1
def lt32 (a b : Nat) : Bool := (fcmp fp32 .lt a b).1

/-- Truncation of an FP32 value to the int64 range (R64, R74). -/
def toInt64 (x : Nat) : Int × NFlags := fToInt fp32 64 x

/-- What the row statistics unit makes of a row: codes, scale, zero point, and its clip counts, magnitude and flags. -/
structure RowStats where
  q : List Nat
  s : Nat
  zp : Nat
  total : Nat
  clipped : Nat
  mag : Nat
  flags : NFlags
deriving DecidableEq, Repr

/-- The first pass over a row (R74): (hi, lo, mag, total, clipped, flags). `x`: elements as FP32 with their outlier mark. -/
def rowScan (c : Nat) : List (Nat × Bool) → Nat × Nat × Nat × Nat × Nat × NFlags
  | [] => (0, 0, 0, 0, 0, .none)
  | (x, o) :: t =>
    let (hi, lo, mag, tot, cl, fl) := rowScan c t
    if o then (hi, lo, mag, tot, cl, fl)
    else if isNaN32 x || isInf32 x then (hi, lo, mag, tot + 1, cl + 1, fl.or .mkInv)
    else
      (max32 hi (min32 x c), min32 lo (max32 x (neg32 c)), max32 mag (absBits32 x), tot + 1,
        if lt32 c (absBits32 x) then cl + 1 else cl, fl)

/-- The row statistics unit (R73 to R76, R103): `top` is 255 in A8 modes and 65,535 in A16 modes. Of a degenerate row each
finite element is coded as the pseudocode of R74 has it, and a quotient outside int64 sets V (R64); log entries 153, 154. -/
def rowStats (top : Nat) (c : Nat) (x : List (Nat × Bool)) : RowStats :=
  let (hi, lo, mag, tot, cl, fl) := rowScan c x
  let lo := if lo = 0x80000000 then 0 else lo
  let (range, f1) := fsub fp32 hi lo
  let topF := (intToF fp32 top).1
  let (s0, f2) := fdiv fp32 range topF
  let deg := range == 0 || s0 == 0
  let s := if deg then 0x3F800000 else s0
  let (zq, f3) := fdiv fp32 (neg32 lo) s
  let (z, f4) := toInt64 zq
  let zp := if deg then 0 else min z.toNat top
  let codes := x.map (fun (e, o) =>
    if o || isNaN32 e then (zp, NFlags.none)
    else if isInf32 e then (if bit e 31 then 0 else top, .none)
    else
      let (d, g1) := fdiv fp32 e s
      let (t, g2) := toInt64 d
      let v := (zp : Int) + t
      (if v < 0 then 0 else if v > top then top else v.toNat, g1.or g2))
  let fs := codes.foldl (fun a p => a.or p.2) NFlags.none
  { q := codes.map (·.1), s := s, zp := zp, total := tot, clipped := cl, mag := mag,
    flags := (((fl.or f1).or (if deg then .none else f2)).or (if deg then .none else f3.or f4)).or fs }

/-- Byte offset of the weight of K index `kk` and column `n` in the weight tensor (R98): tiles by N tile, then by pass. -/
def weightOff (d : LayerDesc) (kk n : Nat) : Nat :=
  let nt := n / 128
  let full := if d.int4 then 64 * d.k else 128 * d.k
  nt * full + (if d.int4 then (kk / 2) * 128 else kk * 128) + n % 128

/-- The weight of K index `kk` and column `n` (R58, R70, R98). -/
def weightAt (loc clus : Mem) (d : LayerDesc) (kk n : Nat) : Int :=
  let b := opRead loc clus d.weight (weightOff d kk n) 1
  if d.int4 then sgn 4 (if kk % 2 = 0 then bits b 0 4 else bits b 4 4) else sgn 8 b

/-- The weft entry of K group `g` and column `n` (R99, R100): group sum and group scale. -/
def weftAt (loc clus : Mem) (d : LayerDesc) (g n : Nat) : Int × Nat :=
  let w := opRead loc clus d.weft (((n / 128) * (d.k / d.g) + g) * 512 + 4 * (n % 128)) 4
  (sgn 16 (w / 65536), w % 65536)

/-- A group scale as used (R72): +0 with INV when it is NaN, infinite, subnormal or zero. -/
def scaleUsed (w : Nat) : Nat × NFlags :=
  let ex := bits w 10 5
  if ex = 0 ∨ ex = 31 then (0, .mkInv) else widen fp16 w

/-- The taps (R104): the accumulator after every K group in ascending order. -/
def tapLoop (loc clus : Mem) (d : LayerDesc) (r : RowStats) (n : Nat) : List Nat → Nat × NFlags → Nat × NFlags
  | [], acc => acc
  | g :: gs, (acc, fl) =>
    let ks := (List.range d.g).map (fun i => g * d.g + i)
    let dot : Int := ks.foldl (fun a kk => a + (r.q.getD kk 0 : Int) * weightAt loc clus d kk n) 0
    let (gsum, gsc) := weftAt loc clus d g n
    let dd := dot - (r.zp : Int) * gsum
    let (sc, f0) := scaleUsed gsc
    let (c, f1) := intToF fp32 dd
    let (p, f2) := fmul fp32 c sc
    let (a, f3) := fadd fp32 acc p
    tapLoop loc clus d r n gs (a, (((fl.or f0).or f1).or f2).or f3)

/-- Byte offset of outlier weight row `i` in the auxiliary block (R102). -/
def outlierRowOff (d : LayerDesc) (i : Nat) : Nat :=
  (if d.bias then (4 * d.n + 63) / 64 * 64 else 0) + i * ((2 * d.n + 63) / 64 * 64)

/-- The outlier lane's sum in list order (R104). -/
def outlierSum (loc clus : Mem) (d : LayerDesc) (m n : Nat) : List (Nat × Nat) → Nat × NFlags → Nat × NFlags
  | [], acc => acc
  | (i, kk) :: t, (o, fl) =>
    let (x, f1) := widen d.inF (opRead loc clus d.act (m * d.actStride + 2 * kk) 2)
    let (w, f2) := widen d.inF (opRead loc clus d.aux (outlierRowOff d i + 2 * n) 2)
    let (p, f3) := fmul fp32 x w
    let (s, f4) := fadd fp32 o p
    outlierSum loc clus d m n t (s, (((fl.or f1).or f2).or f3).or f4)

/-- One output element (R104, R107). -/
def matrixElement (loc clus : Mem) (d : LayerDesc) (r : RowStats) (m n : Nat) : Nat × NFlags :=
  let (acc, f1) := tapLoop loc clus d r n (List.range (d.k / d.g)) (0, .none)
  let (y, f2) := fmul fp32 acc r.s
  let (y, f3) :=
    if d.outliers > 0 then
      let (o, g1) := outlierSum loc clus d m n (d.outlier.zipIdx.map (fun p => (p.2, p.1))) (0, .none)
      let (z, g2) := fadd fp32 y o
      (z, g1.or g2)
    else (y, .none)
  let (y, f4) :=
    if d.bias then
      let (b, g1) := widen fp32 (opRead loc clus d.aux (4 * n) 4)
      let (z, g2) := fadd fp32 y b
      (z, g1.or g2)
    else (y, .none)
  let (w, f5) := fcvt fp32 d.outF y
  (w, ((((f1.or f2).or f3).or f4).or f5))

/-- What an engine operation leaves: local memory, flags, and clip counts for its slot. -/
structure EngRes where
  loc : Mem
  flags : NFlags
  total : Nat
  clipped : Nat
  mag : Nat
deriving DecidableEq, Repr

/-- One row's elements, widened and marked as outliers. -/
def rowElems (loc clus : Mem) (d : LayerDesc) (m : Nat) : List (Nat × Bool) × NFlags :=
  let es := (List.range d.k).map (fun kk =>
    let o := d.outlier.contains kk
    let (x, f) := widen d.inF (opRead loc clus d.act (m * d.actStride + 2 * kk) 2)
    ((x, o), if o || isNaN32 x then NFlags.none else f))
  (es.map (·.1), es.foldl (fun a p => a.or p.2) .none)

/-- One row of a layer: its statistics, then its outputs written (R108). -/
def layerRow (loc0 clus : Mem) (c : Nat) (d : LayerDesc) (res : EngRes) (m : Nat) : EngRes :=
  let (es, f0) := rowElems loc0 clus d m
  let r := rowStats (if d.a16 then 65535 else 255) c es
  let outs := (List.range d.n).map (fun n => matrixElement loc0 clus d r m n)
  { loc := res.loc.writeBytes (bits d.out 0 24 + m * d.outStride) (outs.flatMap (fun o => leBytes 2 o.1)),
    flags := outs.foldl (fun a o => a.or o.2) ((res.flags.or f0).or r.flags),
    total := res.total + r.total, clipped := res.clipped + r.clipped, mag := max32 res.mag r.mag }

/-- The columns of an N tile, and the rows of an M tile (R90). -/
def LayerDesc.tileCols (d : LayerDesc) (t : Nat) : List Nat := (List.range 128).map (· + 128 * t) |>.filter (· < d.n)
def LayerDesc.tileRows (d : LayerDesc) (t : Nat) : List Nat := (List.range (16 * d.mTile)).map (· + 16 * d.mTile * t) |>.filter (· < d.m)

/-- N tiles, M tiles and passes of a layer (R90). -/
def LayerDesc.nTiles (d : LayerDesc) : Nat := (d.n + 127) / 128
def LayerDesc.mTiles (d : LayerDesc) : Nat := (d.m + 16 * d.mTile - 1) / (16 * d.mTile)
def LayerDesc.passes (d : LayerDesc) : Nat := (d.k + 127) / 128

/-- What a layer has written when `n` pairs of an M tile and an N tile are complete (R90, R114): the rows of each pair are
written after its last pass. -/
def layerPart (loc clus : Mem) (c : Nat) (d : LayerDesc) (n : Nat) : Mem :=
  (List.range (min n (d.mTiles * d.nTiles))).foldl
    (fun (m : Mem) q =>
      (d.tileRows (q / d.nTiles)).foldl
        (fun (m : Mem) row =>
          let r := rowStats (if d.a16 then 65535 else 255) c (rowElems loc clus d row).1
          m.writeBytes (bits d.out 0 24 + row * d.outStride + 256 * (q % d.nTiles))
            ((d.tileCols (q % d.nTiles)).flatMap (fun col => leBytes 2 (matrixElement loc clus d r row col).1))) m) loc

/-- A weight set that holds a pass (R91): 128 × 128 weights of K positions and columns, and the weft entries of its groups. -/
def weightSet (loc clus : Mem) (d : LayerDesc) (tile pass : Nat) : WeightSet :=
  let ks := (List.range 128).map (· + 128 * pass) |>.filter (· < d.k)
  let gs := (List.range (128 / d.g)).map (· + 128 / d.g * pass) |>.filter (· < d.k / d.g)
  { w := ks.map (fun kk => (d.tileCols tile).map (fun n => weightAt loc clus d kk n)),
    weft := gs.map (fun g => (d.tileCols tile).map (fun n => weftAt loc clus d g n)) }

/-- What the stores of the matrix engine hold after a layer (R91, R92): the active set the last pass, the shadow set the pass
before it; the banks of the code buffer the last two M tiles; those of the accumulator file the last two pairs of tiles. -/
def layerStores (loc clus : Mem) (c : Nat) (d : LayerDesc) (old : MatStore) : MatStore :=
  let stats (row : Nat) : RowStats := rowStats (if d.a16 then 65535 else 255) c (rowElems loc clus d row).1
  let pairs := d.mTiles * d.nTiles
  let loads := pairs * d.passes
  let set (i : Nat) : WeightSet := weightSet loc clus d (i / d.passes % d.nTiles) (i % d.passes)
  let codes (t : Nat) := (d.tileRows t).map (fun row => let r := stats row; (r.q, r.s, r.zp))
  let sums (q : Nat) := (d.tileRows (q / d.nTiles)).map (fun row =>
    (d.tileCols (q % d.nTiles)).map (fun n => (tapLoop loc clus d (stats row) n (List.range (d.k / d.g)) (0, .none)).1))
  let bank {α : Type} (v : Vector α 2) (n : Nat) (f : Nat → α) : Vector α 2 :=
    Vector.ofFn (fun b => if n = 0 ∨ (n = 1 ∧ b.val = 1) then v[b] else f (if (n - 1) % 2 = b.val then n - 1 else n - 2))
  { active := if loads = 0 then old.active else set (loads - 1),
    shadow := if loads = 0 then old.shadow else if loads = 1 then old.active else set (loads - 2),
    codes := bank old.codes d.mTiles codes, acc := bank old.acc pairs sums }

/-- A whole layer for one share (R90, R104): the operands are disjoint from the output range (R97), so every row reads
them as they were at the layer's start. -/
def layerRun (loc clus : Mem) (c : Nat) (d : LayerDesc) : EngRes :=
  (List.range d.m).foldl (layerRow loc clus c d) ⟨loc, .none, 0, 0, 0⟩

end Sys2Proof.Machine
end

