-- ==== Sys2Proof/Machine/AttnFn.lean ====
section
/-! DEFINITION. exp2_u and log2_u, and the attention engine's functions APPEND, ATTEND and ATTEND_BWD (R161 to R197). -/

namespace Sys2Proof.Machine

/-- 2^n scaling of a finite FP32 value, flushed below the smallest normal (R62, R175). -/
def scale2 (x : Nat) (n : Int) : Nat × NFlags :=
  match (fp32.decode x).1 with
  | .fin s m e => fp32.round s m (e + n)
  | v => fp32.ofVal v

/-- An integer as FP32. -/
def f32i (x : Int) : Nat := (intToF fp32 x).1

/-- exp2_u (R175). -/
def exp2u (t0 : Nat) : Nat × NFlags :=
  if isNaN32 t0 then fp32.nanRes
  else
    let t := if lt32 0 t0 then 0 else t0
    if isInf32 t then (0, .none)
    else if lt32 t 0xC2FC0000 then (0, .mkUfl)
    else
      let n := (fToInt fp32 32 t).1
      let f := (fsub fp32 t (f32i n)).1
      let i := (fToInt fp32 32 (fmul fp32 (neg32 f) 0x42800000).1).1.toNat
      let r := (fadd fp32 f (fp32.round false i (-6)).1).1
      let (q1, g1) := fmul fp32 r expC2
      let (p1, g2) := fadd fp32 expC1 q1
      let (q2, g3) := fmul fp32 r p1
      let (p2, g4) := fadd fp32 0x3F800000 q2
      let (q3, g5) := fmul fp32 (tabT.getD i 0) p2
      let (z, g6) := scale2 q3 n
      (z, ((((g1.or g2).or g3).or g4).or g5).or g6)

/-- log2_u of a finite positive normal FP32 value (R175, R224). -/
def log2u (l : Nat) : Nat × NFlags :=
  let e : Int := (bits l 23 8 : Int) - 127
  let fr := bits l 0 23
  let j := fr / 2 ^ 15
  let r := (fp32.round false (fr % 2 ^ 15) (-23)).1
  let (a, g1) := fadd fp32 (f32i e) (tabLG.getD j 0)
  let (b, g2) := fmul fp32 r (tabDG.getD j 0)
  let (c, g3) := fadd fp32 a b
  (c, (g1.or g2).or g3)

/-- The memories an engine operation of a share reaches: DRAM, its own cluster's memory, its local memory, the poisoned DRAM lines
(R274), and the regions of its own partition, outside which no DRAM is reached (R251, R255). -/
structure EngMem where
  c : Fin 4
  dram : Mem
  clus : Mem
  loc : Mem
  poison : List Nat
  regs : List (Nat × Nat)
deriving DecidableEq, Repr

/-- Whether an operation reaches a range of device addresses: its own cluster's memory, or regions of its own partition. -/
def EngMem.reach (m : EngMem) (a n : Nat) : Bool :=
  if a ≥ 0x100000000000 then decide (clusterBase m.c ≤ a ∧ a + n ≤ clusterBase m.c + 0x1000000)
  else (blocksOf a n).all (fun b => m.regs.any (fun r => inRange r.1 r.2 b))

/-- Bytes at a device address: the share's own cluster memory, or DRAM (R15). -/
def EngMem.devLe (m : EngMem) (a n : Nat) : Nat :=
  if a ≥ 0x100000000000 then m.clus.le (a % 0x1000000) n else m.dram.le a n

/-- Write bytes at a device address: nothing beyond its reach, and nothing to part of a poisoned line (R275). -/
def EngMem.devWrite (m : EngMem) (a : Nat) (l : List Byte) : EngMem :=
  if !m.reach a l.length then m
  else if a ≥ 0x100000000000 then { m with clus := m.clus.writeBytes (a % 0x1000000) l }
  else
    let (d, poison, _) := dramPut m.dram m.poison a l
    { m with dram := d, poison := poison }

/-- Write a little-endian value at a device address. -/
def EngMem.devPut (m : EngMem) (a n v : Nat) : EngMem := m.devWrite a (leBytes n v)

/-- Read at an operand address plus an offset. -/
def EngMem.opLe (m : EngMem) (addr off n : Nat) : Nat := opRead m.loc m.clus addr off n

/-- Write at an operand address plus an offset. -/
def EngMem.opPut (m : EngMem) (addr off n v : Nat) : EngMem :=
  if bit addr 31 then { m with clus := m.clus.putLe (bits addr 0 24 + off) n v }
  else { m with loc := m.loc.putLe (bits addr 0 24 + off) n v }

/-- Whether a byte range of device addresses touches a poisoned line. -/
def EngMem.poisoned (m : EngMem) (a n : Nat) : Bool :=
  m.poison.any (fun l => decide (l < a + n ∧ a < l + 64))

/-- A set descriptor (R161). -/
structure SetDesc where
  table : Nat
  pool : Nat
  tableLen : Nat
  tableStride : Nat
  seqs : Nat
  window : Nat
  hkv : Nat
  d : Nat
  fmt : FFmt
  owned : Bool
  frames : Nat
  rsv : Bool
deriving DecidableEq, Repr

def SetDesc.ofBytes (l : List Byte) : SetDesc :=
  let f := field l 34 1
  { table := field l 0 6, pool := field l 8 6, tableLen := field l 16 4, tableStride := field l 20 4,
    seqs := field l 24 4, window := field l 28 4, hkv := field l 32 1, d := 16 * field l 33 1,
    fmt := if bit f 0 then bf16 else fp16, owned := bit f 1, frames := field l 36 4,
    rsv := field l 6 2 != 0 || field l 14 2 != 0 || bits f 2 6 != 0 || field l 35 1 != 0 || field l 40 24 != 0 }

/-- The bytes of a set's table blocks (R163), and whether they lie in DRAM. -/
def SetDesc.tablesLen (d : SetDesc) : Nat := (d.seqs - 1) * d.tableStride + 16 + 4 * d.tableLen
def SetDesc.tablesInDram (d : SetDesc) : Bool := decide (d.table < 0x800000000)

/-- An attention descriptor (R188); the second line is read for ATTEND_BWD only. -/
structure AttnDesc where
  op : Nat
  fmt : Nat
  hq : Nat
  r : Nat
  set : Nat
  seqFirst : Nat
  seqN : Nat
  q : Nat
  qStride : Nat
  out : Nat
  outStride : Nat
  stats : Nat
  smScale : Nat
  maxPages : Nat
  minPages : Nat
  bwdScale : Nat
  seqOff : Nat
  kvhFirst : Nat
  kvhN : Nat
  dO : Nat
  dOStride : Nat
  o : Nat
  oStride : Nat
  gradPool : Nat
  rsv : Bool
deriving DecidableEq, Repr

def AttnDesc.ofBytes (l : List Byte) : AttnDesc :=
  let op := field l 0 1
  let b := op = 0x32
  { op := op, fmt := field l 1 1, hq := field l 2 1, r := field l 3 1, set := field l 4 4, seqFirst := field l 8 4,
    seqN := field l 12 4, q := field l 16 4, qStride := field l 20 4, out := field l 24 4, outStride := field l 28 4,
    stats := field l 32 4, smScale := field l 36 4, maxPages := field l 40 2, minPages := field l 42 2,
    bwdScale := field l 44 4, seqOff := field l 48 4, kvhFirst := field l 52 1, kvhN := field l 53 1,
    dO := if b then field l 64 4 else 0, dOStride := if b then field l 68 4 else 0, o := if b then field l 72 4 else 0,
    oStride := if b then field l 76 4 else 0, gradPool := if b then field l 80 6 else 0,
    rsv := bits (field l 1 1) 6 2 != 0 || field l 54 10 != 0 || (b && (field l 86 2 != 0 || field l 88 40 != 0)) }

/-- The format bits of an attention descriptor. -/
def AttnDesc.qF (a : AttnDesc) : FFmt := if bit a.fmt 0 then bf16 else fp16
def AttnDesc.outF (a : AttnDesc) : FFmt := if bit a.fmt 1 then bf16 else fp16

/-- The address of a page table entry and of a sequence's header (R163). -/
def SetDesc.hdr (st : SetDesc) (s : Nat) : Nat := st.table + s * st.tableStride
def SetDesc.entry (st : SetDesc) (s : Nat) (p : Int) : Nat := st.hdr s + 16 + 4 * (p % (st.tableLen : Int)).toNat

/-- Byte address in a page frame of K or V of a KV head and token slot (R162). -/
def SetDesc.kAddr (st : SetDesc) (frame kvh j : Nat) : Nat :=
  st.pool + frame * (64 * st.d * st.hkv) + (kvh * 16 + j) * st.d * 2
def SetDesc.vAddr (st : SetDesc) (frame kvh j : Nat) : Nat := st.kAddr frame kvh j + 32 * st.d * st.hkv

/-- Whether the page port's reads of a KV head's blocks of a frame meet a poisoned line. -/
def SetDesc.pageUe (st : SetDesc) (m : EngMem) (frame kvh : Nat) : Bool :=
  m.poisoned (st.kAddr frame kvh 0) (32 * st.d) || m.poisoned (st.vAddr frame kvh 0) (32 * st.d)

/-- What an attention operation leaves: memory, flags, events as (code, data bytes), stale rows, and the pages read as (sequence,
page, KV head) (R265). -/
structure AttnRes where
  mem : EngMem
  flags : NFlags
  events : List (Nat × List Byte)
  stale : Nat
  read : List (Nat × Int × Nat)
deriving DecidableEq, Repr

/-- Decoded elements with their flags, from `n` encodings. -/
def decodeAll (f : FFmt) (ws : List Nat) : List FVal × NFlags :=
  let l := ws.map f.decode
  (l.map (·.1), l.foldl (fun a p => a.or p.2) .none)

/-- dot_rtz (R176): every product exact, summed exactly, rounded once. -/
def dotRtz (a b : List FVal) : Nat × NFlags := fp32.sumVals (List.zipWith mulExact a b)

/-- `n` elements of two bytes at a device address. -/
def devElems (m : EngMem) (a n : Nat) : List Nat := (List.range n).map (fun i => m.devLe (a + 2 * i) 2)

/-- `n` elements of two bytes at an operand address. -/
def opElems (m : EngMem) (addr off n : Nat) : List Nat := (List.range n).map (fun i => m.opLe addr (off + 2 * i) 2)

/-- The sequence header's check (R186): reserved field zero, first_live not above P_hi + 1 when W = 0. A table block beyond the
operation's reach, or a header in a poisoned line, counts as a bad header (log entry 168). -/
def seqBad (m : EngMem) (st : SetDesc) (s : Nat) : Bool :=
  let len := m.devLe (st.hdr s) 4
  let fl := m.devLe (st.hdr s + 4) 4
  let pHi1 := if len = 0 then 0 else (len - 1) / 16 + 1
  !m.reach (st.hdr s) (16 + 4 * st.tableLen) || m.poisoned (st.hdr s) 16 ||
    m.devLe (st.hdr s + 12) 4 != 0 || m.devLe (st.hdr s + 8) 4 / 4 != 0 || (st.window == 0 && decide (fl > pHi1))

/-- A windowed sequence's positions have wrapped (R165): the page before page 0 stands in its ring (log entry 169). -/
def wrapped (m : EngMem) (st : SetDesc) (s len : Nat) : Bool :=
  let e := m.devLe (st.entry s (-1)) 4
  decide (0 < st.window) && decide ((len - 1) / 16 + 1 < st.tableLen) && (bit e 31 || decide (bits e 26 5 ≠ 0))

/-- P_lo of R172 for a sequence of the given length; `cut` says that the budget raised it. Once the positions have wrapped, pages
before the wrap count below 0. -/
def pLow (m : EngMem) (st : SetDesc) (s len r e : Nat) : Int × Bool :=
  let pHi : Int := ((len - 1) / 16 : Nat)
  let pos0 : Int := (len : Int) - r
  let old := wrapped m st s len
  let a := pHi - st.tableLen + 1
  let b : Int := if st.window = 0 then m.devLe (st.hdr s + 4) 4
    else if pos0 - st.window + 1 < 0 ∧ old = false then 0 else (pos0 - st.window + 1) / 16
  let base := if old then max a b else max (max a b) 0
  let c : Int := if e > 0 then pHi - e + 1 else 0
  if e = 0 then (base, false) else (max base c, decide (c > base))

/-- The pages a row's walk names, in ascending order, and whether the budget cut them (R172). -/
def walkPages (m : EngMem) (st : SetDesc) (s len r e : Nat) (bad : Bool) : List Int × Bool :=
  if len = 0 ∨ bad then ([], false)
  else
    let (lo, cut) := pLow m st s len r e
    let pHi : Int := ((len - 1) / 16 : Nat)
    ((List.range (pHi - lo + 1).toNat).map (fun (k : Nat) => lo + k), cut)

/-- Whether token slot j of page p is attended by the row at `pos` (R173). A row before position 0 exists once the positions have
wrapped (`old`). -/
def attended (st : SetDesc) (causal old : Bool) (pos p : Int) (j fill : Nat) : Bool :=
  let u : Int := p * 16 + j
  decide (j < fill) && (!causal || decide (u ≤ pos)) && (st.window == 0 || decide (pos - u < st.window)) && (old || decide (0 ≤ pos))

/-- A page table entry's fields (R164): valid, fill, frame. -/
def pteValid (e : Nat) : Bool := bit e 31
def pteFill (e : Nat) : Nat := bits e 26 5
def pteFrame (e : Nat) : Nat := bits e 0 24

/-- Whether a frame lies in the pool and within the operation's reach. -/
def frameOk (m : EngMem) (st : SetDesc) (frame : Nat) : Bool :=
  decide (frame < st.frames) && m.reach (st.kAddr frame 0 0) (64 * st.d * st.hkv)

/-- An entry that is skipped as illegal (R186), and sets INV; one whose frame lies beyond the operation's reach is among them (log
entry 168). -/
def pteIllegal (m : EngMem) (st : SetDesc) (e : Nat) : Bool := decide (pteFill e > 16) || !frameOk m st (pteFrame e)

/-- A page is dropped (R185): its entry's valid bit and the header's page_dropped, one event for the page. -/
def dropPage (st : SetDesc) (setIdx s : Nat) (p : Int) (res : AttnRes) : AttnRes :=
  let m := res.mem
  let ea := st.entry s p
  let m1 := m.devPut ea 4 (m.devLe ea 4 % 2 ^ 31)
  let sa := st.hdr s + 8
  let ev := (0x0204, leBytes 2 setIdx ++ leBytes 4 s ++ leBytes 4 (wrapN 28 p))
  { res with mem := m1.devPut sa 4 (m1.devLe sa 4 ||| 2), events := if ev ∈ res.events then res.events else res.events ++ [ev] }

/-- A page is read for a KV head. -/
def AttnRes.reads (res : AttnRes) (x : Nat × Int × Nat) : AttnRes :=
  { res with read := if x ∈ res.read then res.read else x :: res.read }

/-- Whether a list of inputs holds a NaN or an infinity (R177). -/
def anyBad (l : List FVal) : Bool := l.any (fun v => match v with
  | .fin _ _ _ => false
  | _ => true)

/-- The state of a row's walk: m, l, accumulators, pages, tag, record flags, a NaN or infinite input met (R177), and what the
operation leaves. -/
structure RowWalk where
  m : Nat
  l : Nat
  acc : List Nat
  np : Nat
  tag : Nat
  fl : Nat
  bad : Bool
  res : AttnRes
deriving DecidableEq, Repr

/-- One page of the forward walk (R176, R184, R185); a table entry in a poisoned line drops its page too (R274). -/
def attendPage (st : SetDesc) (setIdx s : Nat) (causal old : Bool) (pos : Int) (kvh : Nat) (q : List FVal) (sm : Nat)
    (w : RowWalk) (p : Int) : RowWalk :=
  let mem := w.res.mem
  let ea := st.entry s p
  let e := mem.devLe ea 4
  let drop : RowWalk := { w with fl := w.fl ||| 2, res := dropPage st setIdx s p w.res }
  if mem.poisoned ea 4 then drop
  else if pteIllegal mem st e then { w with res := { w.res with flags := w.res.flags.or .mkInv } }
  else if !pteValid e then w
  else
    let js := (List.range 16).filter (fun j => attended st causal old pos p j (pteFill e))
    if js.isEmpty then w
    else if st.pageUe mem (pteFrame e) kvh then drop
    else
      let keys := js.map (fun j => decodeAll st.fmt (devElems mem (st.kAddr (pteFrame e) kvh j) st.d))
      let ts := keys.map (fun (k : List FVal × NFlags) =>
        let (d, f1) := dotRtz q k.1
        let (t, f2) := fmul fp32 d sm
        (t, (k.2.or f1).or f2))
      let f0 := ts.foldl (fun a x => a.or x.2) NFlags.none
      let (mp, f1) := ts.foldl (fun (a : Nat × NFlags) x => let r := fmax fp32 a.1 x.1; (r.1, a.2.or r.2)) (0xFF800000, .none)
      let (mn, f2) := fmax fp32 w.m mp
      let (dm, f3) := fsub fp32 w.m mn
      let (a, f4) := exp2u dm
      let ps := ts.map (fun x =>
        let (df, g1) := fsub fp32 x.1 mn
        let (ex, g2) := exp2u df
        let (b, g3) := fcvt fp32 bf16 ex
        (b, (g1.or g2).or g3))
      let f5 := ps.foldl (fun a x => a.or x.2) NFlags.none
      let pv := ps.map (fun x => (bf16.decode x.1).1)
      let (la, f6) := fmul fp32 w.l a
      let (sp, f7) := fp32.sumVals pv
      let (l, f8) := fadd fp32 la sp
      let vs := js.map (fun j => decodeAll st.fmt (devElems mem (st.vAddr (pteFrame e) kvh j) st.d))
      let f9 := vs.foldl (fun a x => a.or x.2) NFlags.none
      let accs := w.acc.zipIdx.map (fun (x, c) =>
        let (xa, g1) := fmul fp32 x a
        let (dv, g2) := dotRtz pv (vs.map (fun (v : List FVal × NFlags) => v.1.getD c (.fin false 0 0)))
        let (r, g3) := fadd fp32 xa dv
        (r, (g1.or g2).or g3))
      let f10 := accs.foldl (fun a x => a.or x.2) NFlags.none
      { m := mn, l := l, acc := accs.map (·.1), np := w.np + 1, tag := (w.tag + e) % 2 ^ 32, fl := w.fl,
        bad := w.bad || keys.any (fun k => anyBad k.1) || vs.any (fun v => anyBad v.1),
        res := { w.res.reads (s, p, kvh) with
          flags := [f0, f1, f2, f3, f4, f5, f6, f7, f8, f9, f10].foldl NFlags.or w.res.flags } }

/-- The page budget E of a descriptor (R194). -/
def pageBudget (a : AttnDesc) (b : Nat) : Nat :=
  if a.maxPages = 0 then 0 else if bit a.fmt 4 then max a.minPages (a.maxPages * b / 16) else a.maxPages

/-- Write the statistics record of a row (R179). -/
def putStats (m : EngMem) (a : AttnDesc) (off mx ls np fl tag : Nat) : EngMem :=
  ((((m.opPut a.stats off 4 mx).opPut a.stats (off + 4) 4 ls).opPut a.stats (off + 8) 2 (min np 65535)).opPut a.stats
    (off + 10) 2 fl).opPut a.stats (off + 12) 4 tag

/-- One row and head of ATTEND (R171 to R179). `si`: sequence index within the descriptor; `hi`: head within it. A NaN or infinite
input makes the whole row canonical NaN (R177; log entry 170). -/
def attendRow (a : AttnDesc) (st : SetDesc) (setIdx b : Nat) (si s : Nat) (bad : Bool) (res : AttnRes) (ih : Nat × Nat) : AttnRes :=
  let i := ih.1
  let hi := ih.2
  let g := a.hq / st.hkv
  let nh := a.kvhN * g
  let h := a.kvhFirst * g + hi
  let mem := res.mem
  let len := mem.devLe (st.hdr s) 4
  let pos : Int := (len : Int) - a.r + i
  let (q, fq) := decodeAll a.qF (opElems mem a.q (si * a.qStride + (i * nh + hi) * st.d * 2) st.d)
  let outOff := si * a.outStride + (i * nh + hi) * st.d * 2
  let so := (si * a.r + i) * a.hq * 16 + hi * 16
  let (pages, cut) := walkPages mem st s len a.r (pageBudget a b) bad
  let w0 : RowWalk := ⟨0xFF800000, 0, List.replicate st.d 0, 0, 0, if cut then 4 else 0, false, res⟩
  let w := pages.foldl (attendPage st setIdx s (bit a.fmt 2) (wrapped mem st s len) pos (h / g) q a.smScale) w0
  let put (outs : List Nat) : EngMem := outs.zipIdx.foldl (fun (m : EngMem) o => m.opPut a.out (outOff + 2 * o.2) 2 o.1) w.res.mem
  let stats (m : EngMem) (mx ls np fl tag : Nat) : EngMem := if bit a.fmt 3 then putStats m a so mx ls np fl tag else m
  if w.np = 0 then { w.res with mem := stats (put (List.replicate st.d 0)) 0xFF800000 0xFF800000 0 (w.fl ||| 1) 0 }
  else if w.bad || anyBad q then
    { w.res with
      mem := stats (put (List.replicate st.d a.outF.nanBits)) fp32.nanBits fp32.nanBits w.np w.fl w.tag,
      flags := (w.res.flags.or fq).or .mkInv }
  else
    let outs := w.acc.map (fun x =>
      let (d, g1) := fdiv fp32 x w.l
      let (o, g2) := fcvt fp32 a.outF d
      (o, g1.or g2))
    let (lg, g1) := log2u w.l
    let (ls, g2) := fadd fp32 w.m lg
    let fl := outs.foldl (fun x o => x.or o.2) (w.res.flags.or fq)
    { w.res with
      mem := stats (put (outs.map (·.1))) w.m ls w.np w.fl w.tag, flags := if bit a.fmt 3 then (fl.or g1).or g2 else fl }

/-- The sequences a descriptor names: (index within the descriptor, sequence) below seq_count (R188, R191). `seqOff` holds
the word an indirect descriptor names, as it was when the operation issued, and 0 for any other descriptor. -/
def attnSeqs (a : AttnDesc) (st : SetDesc) : List (Nat × Nat) :=
  ((List.range a.seqN).map (fun k => (k, a.seqFirst + a.seqOff + k))).filter (fun p => decide (p.2 < st.seqs))

/-- A bad header's effect (R186): INV and KV_SEQ_BAD. -/
def seqBadRes (res : AttnRes) (setIdx s : Nat) : AttnRes :=
  { res with flags := res.flags.or .mkInv, events := res.events ++ [(0x0205, leBytes 2 setIdx ++ leBytes 4 s)] }

/-- ATTEND (R171 to R179). -/
def attendRun (m : EngMem) (a : AttnDesc) (st : SetDesc) (setIdx b : Nat) : AttnRes :=
  let g := a.hq / st.hkv
  (attnSeqs a st).foldl (fun res p =>
    let bad := seqBad res.mem st p.2
    let res := if bad then seqBadRes res setIdx p.2 else res
    ((List.range a.r).flatMap (fun i => (List.range (a.kvhN * g)).map (fun h => (i, h)))).foldl
      (attendRow a st setIdx b p.1 p.2 bad) res) ⟨m, .none, [], 0, []⟩

/-- An element of the source of an APPEND in the set's format (R188): as it stands where the formats are the same, else converted
(log entry 172). -/
def appendElem (src dst : FFmt) (w : Nat) : Nat × NFlags := if src = dst then (w, .none) else fcvt src dst w

/-- Write one token's K and V for the descriptor's heads (R162, R190), each as one write; `so`: offset of the token's source
block. -/
def appendToken (a : AttnDesc) (st : SetDesc) (so frame j : Nat) (x : EngMem × NFlags) : EngMem × NFlags :=
  (List.range a.kvhN).foldl (fun (x : EngMem × NFlags) h =>
    let o := so + h * 4 * st.d
    let put (x : EngMem × NFlags) (off addr : Nat) : EngMem × NFlags :=
      let l := (opElems x.1 a.q off st.d).map (appendElem a.qF st.fmt)
      (x.1.devWrite addr (l.flatMap (fun e => leBytes 2 e.1)), l.foldl (fun f e => f.or e.2) x.2)
    put (put x o (st.kAddr frame (a.kvhFirst + h) j)) (o + 2 * st.d) (st.vAddr frame (a.kvhFirst + h) j)) x

/-- The tokens of one sequence (R167): (result, tokens written, stopped). A token whose page table entry is illegal (R186) or
cannot be read (R274) is skipped (log entry 171). -/
def appendTokens (a : AttnDesc) (st : SetDesc) (setIdx si s len0 : Nat) : List Nat → AttnRes × Nat × Bool → AttnRes × Nat × Bool
  | [], x => x
  | k :: ks, (res, n, stop) =>
    if stop then (res, n, true)
    else
      let u := (len0 + k) % 2 ^ 32
      let p : Nat := u / 16
      let j := u % 16
      let ea := st.entry s p
      let m := res.mem
      let e := m.devLe ea 4
      let free := st.window > 0 ∨ (p : Int) - st.tableLen < m.devLe (st.hdr s + 4) 4
      if j = 0 ∧ ¬ free then
        let sa := st.hdr s + 8
        ({ res with
             mem := m.devPut sa 4 (m.devLe sa 4 ||| 1)
             events := res.events ++ [(0x0203, leBytes 2 setIdx ++ leBytes 4 s)] }, n, true)
      else if m.poisoned ea 4 then appendTokens a st setIdx si s len0 ks (dropPage st setIdx s p res, n, false)
      else if pteIllegal m st (if j = 0 then pteFrame e else e) then
        appendTokens a st setIdx si s len0 ks ({ res with flags := res.flags.or .mkInv }, n, false)
      else
        let m1 := if j = 0 then m.devPut ea 4 (pteFrame e) else m
        let (m2, fl) := appendToken a st (si * a.qStride + k * a.kvhN * 4 * st.d) (pteFrame e) j (m1, res.flags)
        let m3 := m2.devPut ea 4 (2 ^ 31 + (j + 1) * 2 ^ 26 + pteFrame e)
        appendTokens a st setIdx si s len0 ks ({ res with mem := m3, flags := fl }, n + 1, false)

/-- APPEND (R167 to R170, R189). -/
def appendRun (m : EngMem) (a : AttnDesc) (st : SetDesc) (setIdx : Nat) : AttnRes :=
  (attnSeqs a st).foldl (fun res p =>
    if seqBad res.mem st p.2 then seqBadRes res setIdx p.2
    else
      let len := res.mem.devLe (st.hdr p.2) 4
      let (r, n, _) := appendTokens a st setIdx p.1 p.2 len (List.range a.r) (res, 0, false)
      if a.kvhFirst = 0 then { r with mem := r.mem.devPut (st.hdr p.2) 4 ((len + n) % 2 ^ 32) } else r) ⟨m, .none, [], 0, []⟩

/-- The count and tag of the pages a row's walk would use (R182). -/
def walkTag (m : EngMem) (st : SetDesc) (s : Nat) (causal old : Bool) (pos : Int) (pages : List Int) : Nat × Nat :=
  pages.foldl (fun acc p =>
    let e := m.devLe (st.entry s p) 4
    if !m.poisoned (st.entry s p) 4 && pteValid e && !pteIllegal m st e &&
        (List.range 16).any (fun j => attended st causal old pos p j (pteFill e)) then
      (acc.1 + 1, (acc.2 + e) % 2 ^ 32)
    else acc) (0, 0)

/-- The gradient blocks of a KV head of a frame: dK, then dV (R180). -/
def gradAddr (a : AttnDesc) (st : SetDesc) (frame kvh : Nat) : Nat := a.gradPool + frame * (128 * st.d * st.hkv) + kvh * 16 * st.d * 4

/-- Whether the reads of a frame's gradient blocks meet a poisoned line. -/
def gradUe (a : AttnDesc) (st : SetDesc) (m : EngMem) (frame kvh : Nat) : Bool :=
  m.poisoned (gradAddr a st frame kvh) (64 * st.d) || m.poisoned (gradAddr a st frame kvh + 64 * st.d * st.hkv) (64 * st.d)

/-- Add one product into a gradient element of FP32 at a device address. -/
def gradAdd (m : EngMem) (fl : NFlags) (addr x y : Nat) : EngMem × NFlags :=
  let (p, g1) := fmul fp32 x y
  let (r, g2) := fadd fp32 (m.devLe addr 4) p
  (m.devPut addr 4 r, (fl.or g1).or g2)

/-- One attended token of the backward pass (R180). -/
def bwdToken (a : AttnDesc) (st : SetDesc) (frame kvh : Nat) (q dO : List Nat) (qv dOv : List FVal) (ls dd : Nat)
    (acc : EngMem × NFlags × List Nat) (j : Nat) : EngMem × NFlags × List Nat :=
  let (m, fl, dq) := acc
  let kw := devElems m (st.kAddr frame kvh j) st.d
  let (k, fk) := decodeAll st.fmt kw
  let (v, fv) := decodeAll st.fmt (devElems m (st.vAddr frame kvh j) st.d)
  let (d, g1) := dotRtz qv k
  let (t, g2) := fmul fp32 d a.smScale
  let (df, g3) := fsub fp32 t ls
  let (ex, g4) := exp2u df
  let (pb, g5) := fcvt fp32 bf16 ex
  let p := (widen bf16 pb).1
  let (dp, g6) := dotRtz dOv v
  let (dpd, g7) := fsub fp32 dp dd
  let (ds0, g8) := fmul fp32 p dpd
  let (ds, g9) := fmul fp32 ds0 a.bwdScale
  let fl := [fk, fv, g1, g2, g3, g4, g5, g6, g7, g8, g9].foldl NFlags.or fl
  let gk := gradAddr a st frame kvh + j * st.d * 4
  let gv := gk + 64 * st.d * st.hkv
  (List.range st.d).foldl (fun (x : EngMem × NFlags × List Nat) c =>
    let (m, fl, dq) := x
    let (m, fl) := gradAdd m fl (gv + 4 * c) p (widen a.outF (dO.getD c 0)).1
    let (m, fl) := gradAdd m fl (gk + 4 * c) ds (widen a.qF (q.getD c 0)).1
    let (pr, h1) := fmul fp32 ds (widen st.fmt (kw.getD c 0)).1
    let (s, h2) := fadd fp32 (dq.getD c 0) pr
    (m, (fl.or h1).or h2, setAt dq c s)) (m, fl, dq)

/-- One row and head of ATTEND_BWD (R180 to R183). -/
def bwdRow (a : AttnDesc) (st : SetDesc) (setIdx b si s : Nat) (bad : Bool) (res : AttnRes) (ih : Nat × Nat) : AttnRes :=
  let i := ih.1
  let hi := ih.2
  let g := a.hq / st.hkv
  let nh := a.kvhN * g
  let h := a.kvhFirst * g + hi
  let kv : Nat := h / g
  let mem := res.mem
  let len := mem.devLe (st.hdr s) 4
  let pos : Int := (len : Int) - a.r + i
  let so := (si * a.r + i) * a.hq * 16 + hi * 16
  let old := wrapped mem st s len
  let pages := (walkPages mem st s len a.r (pageBudget a b) bad).1
  let dqOff := si * a.outStride + (i * nh + hi) * st.d * 4
  let putDq := fun (m : EngMem) (dq : List Nat) => dq.zipIdx.foldl (fun (m : EngMem) x => m.opPut a.out (dqOff + 4 * x.2) 4 x.1) m
  let zero := List.replicate st.d 0
  let fl := mem.opLe a.stats (so + 10) 2
  if bad ∨ bit fl 0 then { res with mem := putDq mem zero }
  else
    let (n, tag) := walkTag mem st s (bit a.fmt 2) old pos pages
    if min n 65535 ≠ mem.opLe a.stats (so + 8) 2 ∨ tag ≠ mem.opLe a.stats (so + 12) 4 then
      { res with mem := (putDq mem zero).opPut a.stats (so + 10) 2 (fl ||| 8), stale := res.stale + 1 }
    else
      let q := opElems mem a.q (si * a.qStride + (i * nh + hi) * st.d * 2) st.d
      let dO := opElems mem a.dO (si * a.dOStride + (i * nh + hi) * st.d * 2) st.d
      let o := opElems mem a.o (si * a.oStride + (i * nh + hi) * st.d * 2) st.d
      let (qv, f1) := decodeAll a.qF q
      let (dOv, f2) := decodeAll a.outF dO
      let (ov, f3) := decodeAll a.outF o
      let (dd, f4) := dotRtz dOv ov
      let ls := mem.opLe a.stats (so + 4) 4
      let (r, dq) := pages.foldl (fun (x : AttnRes × List Nat) p =>
        let (r, dq) := x
        let m := r.mem
        let e := m.devLe (st.entry s p) 4
        let drop : AttnRes × List Nat :=
          let r := dropPage st setIdx s p r
          ({ r with mem := r.mem.opPut a.stats (so + 10) 2 (r.mem.opLe a.stats (so + 10) 2 ||| 10) }, dq)
        if m.poisoned (st.entry s p) 4 then drop
        else if pteIllegal m st e then ({ r with flags := r.flags.or .mkInv }, dq)
        else if !pteValid e then x
        else
          let js := (List.range 16).filter (fun j => attended st (bit a.fmt 2) old pos p j (pteFill e))
          if js.isEmpty then x
          else if st.pageUe m (pteFrame e) kv || gradUe a st m (pteFrame e) kv then drop
          else
            let (m, fl, dq) := js.foldl (bwdToken a st (pteFrame e) kv q dO qv dOv ls dd) (m, r.flags, dq)
            ({ r.reads (s, p, kv) with mem := m, flags := fl }, dq))
        ({ res with flags := [f1, f2, f3, f4].foldl NFlags.or res.flags }, zero)
      { r with mem := putDq r.mem dq, stale := r.stale + b2n (decide (res.events.length < r.events.length)) }

/-- ATTEND_BWD (R180 to R183). -/
def attendBwdRun (m : EngMem) (a : AttnDesc) (st : SetDesc) (setIdx b : Nat) : AttnRes :=
  let g := a.hq / st.hkv
  (attnSeqs a st).foldl (fun res p =>
    let bad := seqBad res.mem st p.2
    let res := if bad then seqBadRes res setIdx p.2 else res
    ((List.range a.r).flatMap (fun i => (List.range (a.kvhN * g)).map (fun h => (i, h)))).foldl
      (bwdRow a st setIdx b p.1 p.2 bad) res) ⟨m, .none, [], 0, []⟩

end Sys2Proof.Machine
end

