-- ==== Sys2Proof/Machine/CascOps.lean ====
section
/-! DEFINITION. The listening cascade: sessions, replay slots, stage wakes (R535 to R545), and WAKE_L (R532). -/

namespace Sys2Proof.Machine

/-- The state with one cascade stage changed. -/
def State.modStage (s : State) (n : Fin 2) (f : Stage → Stage) : State :=
  { s with casc := { s.casc with stage := vmod s.casc.stage n f } }

/-- The cluster of a stage. -/
def State.stageCluster (s : State) (n : Fin 2) : Fin 4 := Fin.ofNat 4 (s.key (.stage n .cluster))

/-- WAKE_L is asserted in STANDBY and LISTEN while a wake is pending, a result waits, or the controller has itself entered
WATCH, until the link reaches L0 (R532). -/
def State.wakeSync (s : State) : State :=
  if (decide (s.pwr.mode ≤ 1) || s.casc.autoWatch) && decide (s.pcie.link ≠ 0) &&
      (s.casc.stage.toList.any (fun t => t.pending.isSome) || s.casc.result || s.casc.autoWatch) then
    { s with pcie := { s.pcie with wakeL := true } }
  else s

/-- Two wakes of one stage become one that keeps the earlier mark (R541). -/
def mergeWake (old : Option (Nat × W16 × W16)) (w : Nat × W16 × W16) : Option (Nat × W16 × W16) :=
  match old with
  | none => some w
  | some o => if w.1 < o.1 then some w else some o

/-- A wake of stage n + 2 is held as pending (R541). -/
def State.holdWake (s : State) (n : Fin 2) (w : Nat × W16 × W16) : State :=
  (s.modStage n (fun t => { t with pending := mergeWake t.pending w })).wakeSync

/-- A session ends without an answer (R543, R544): CASCADE_ABANDONED; for reason 0 its mark becomes the pending wake. -/
def State.dropSession (s : State) (n : Fin 2) (reason : Nat) : State :=
  match s.casc.stage[n].session with
  | none => s
  | some x =>
    let s := s.modStage n (fun t => { t with session := none })
    let s := s.dropWaiters (fun w => w.who = .replay n)
    let s := s.event 0x0804 0 0xFF false (leBytes 1 (n.val + 2) ++ w32 x.num ++ leBytes 1 reason)
    if reason = 0 then s.holdWake n (x.mark, x.code, x.conf) else s

/-- The sessions of a cluster end as its reach powers down or its partition resets (R544, R566). Answers also whether there
was one. -/
def State.dropSessions (s : State) (c : Fin 4) : State × Bool :=
  (List.finRange 2).foldl
    (fun (s, b) n =>
      if s.casc.stage[n].session.isSome && s.stageCluster n = c then (s.dropSession n 0, true) else (s, b)) (s, false)

/-- Stride of a replay slot (R540, R335): header and one block of T tracks of INT16. -/
def State.replayStride (s : State) : Nat := (64 + s.pdmCfg.block * s.key .cascTracks * 2 + 63) / 64 * 64

/-- A session of a stage starts for a wake (R540, R542): the control line is written, the credit lock is set to K, and
CASCADE_WAKE is written. Nothing starts while the ring holds no record. `held`: the wake had been pending. -/
def State.startSession (s : State) (n : Fin 2) (w : Nat × W16 × W16) (held : Bool) : State :=
  match s.casc.ring with
  | [] => s
  | oldest :: rest =>
    let first := rest.foldl (fun a r => if r.stamp + 2000000000 ≤ w.1 then r else a) oldest
    let pre := (s.casc.ring.filter (fun r => first.stamp ≤ r.stamp && decide (r.stamp < w.1))).length
    let num := s.casc.stage[n].count + 1
    let c := s.stageCluster n
    let s := s.modStage n (fun t =>
      { t with
        count := num, pending := none,
        session := some
          { num := num, mark := w.1, code := w.2.1, conf := w.2.2, next := first.seq, slot := 0, credit := false,
            waiting := false, since := none } })
    let line := w32 num ++ zeros 4 ++ leBytes 8 w.1 ++ w32 first.seq ++ leBytes 4 pre ++ leBytes 2 w.2.1.toNat ++
      leBytes 2 w.2.2.toNat ++ zeros 36
    let s := s.clWrite c (s.key (.stage n .replay)) line
    let credit := BitVec.ofNat 32 (s.key (.stage n .creditLock))
    let s :=
      if refValid credit then
        let k := refCluster credit
        (s.modCl k (fun x => { x with keeper := x.keeper.setLevel (refLock credit) (s.key (.stage n .depth)) })).settle
          (some k) (refLock credit)
      else s
    s.event 0x0802 0 0xFF false
      (leBytes 1 (n.val + 2) ++ w32 num ++ leBytes 8 w.1 ++ leBytes 2 w.2.1.toNat ++ leBytes 1 (b2n held) ++ leBytes 4 pre)

/-- A stage's memory and controller can serve a session now: its cluster is up (R541). -/
def State.stageUp (s : State) (n : Fin 2) : Bool := s.clusterUp (s.stageCluster n)

/-- Write one record into the slot of a session (R540). -/
def State.replayWrite (s : State) (n : Fin 2) (x : Session) (r : RingRec) : State :=
  let k := s.key (.stage n .depth)
  let hdr := w32 r.seq ++ leBytes 1 4 ++ leBytes 1 (s.pdmCfg.block) ++ leBytes 1 (s.key .cascTracks) ++ leBytes 1 0 ++
    leBytes 8 r.stamp ++ leBytes 2 r.flags.toNat ++ zeros 46
  let off := s.key (.stage n .replay) + 64 + x.slot % k * s.replayStride
  let s := s.clWrite (s.stageCluster n) off (hdr ++ r.data)
  let s := s.modStage n (fun t =>
    { t with session := t.session.map (fun y => { y with next := r.seq + 1, slot := x.slot + 1, credit := false, since := none }) })
  let ref := BitVec.ofNat 32 (s.key (.stage n .dataLock))
  if refValid ref then s.modCl (refCluster ref) (fun x => { x with raisesIn := x.raisesIn ++ [(refLock ref, 1)] }) else s

end Sys2Proof.Machine
end

