-- ==== Sys2Proof/Machine/StripeFn.lean ====
section
/-! DEFINITION. The stripe engine: window descriptors, stacks, bands, owed rows, rings and the arithmetic of its operations
(R118 to R160, R647). -/

namespace Sys2Proof.Machine

/-- A window descriptor (R141). -/
structure WinDesc where
  op : Nat
  fmt : Nat
  kh : Nat
  kw : Nat
  sy : Nat
  sx : Nat
  dy : Nat
  dx : Nat
  pt : Nat
  pb : Nat
  pl : Nat
  pr : Nat
  padMode : Nat
  leadL : Nat
  leadR : Nat
  oy : Nat
  ox : Nat
  role : Nat
  c : Nat
  inWidth : Nat
  kOut : Nat
  inAddr : Nat
  inStride : Nat
  inRows : Nat
  outRows : Nat
  outAddr : Nat
  outStride : Nat
  weight : Nat
  scale : Nat
  bias : Nat
  part : Nat
deriving DecidableEq, Repr

/-- The fields of a window descriptor's 64 bytes. -/
def WinDesc.ofBytes (l : List Byte) : WinDesc :=
  { op := field l 0 1, fmt := field l 1 1, kh := field l 2 1, kw := field l 3 1, sy := bits (field l 4 1) 4 4,
    sx := bits (field l 4 1) 0 4, dy := bits (field l 5 1) 4 4, dx := bits (field l 5 1) 0 4,
    pt := bits (field l 6 1) 4 3, pb := bits (field l 6 1) 0 3, pl := bits (field l 7 1) 4 3, pr := bits (field l 7 1) 0 3,
    padMode := field l 8 1, leadL := field l 9 1, leadR := field l 10 1, oy := field l 11 1, ox := field l 12 1,
    role := bits (field l 13 1) 6 2, c := field l 14 2, inWidth := field l 16 2, kOut := field l 18 2,
    inAddr := field l 20 4, inStride := field l 24 4, inRows := field l 28 2, outRows := field l 30 2,
    outAddr := field l 32 4, outStride := field l 36 4, weight := field l 40 4, scale := field l 44 4,
    bias := field l 48 4, part := field l 52 4 }

/-- Input and output formats (R141). -/
def WinDesc.inF (d : WinDesc) : FFmt := if bit d.fmt 0 then bf16 else fp16
def WinDesc.outF (d : WinDesc) : FFmt := if bit d.fmt 1 then bf16 else fp16
/-- acc_in and acc_out. -/
def WinDesc.accIn (d : WinDesc) : Bool := bit d.fmt 4
def WinDesc.accOut (d : WinDesc) : Bool := bit d.fmt 5
/-- INGEST and the windowed operations. -/
def WinDesc.windowed (d : WinDesc) : Bool := decide (0x11 ≤ d.op ∧ d.op ≤ 0x14)

/-- A stack header (R140). -/
structure StackHdr where
  count : Nat
  g : Nat
  slots : Bool
  lam : Nat
  rho : Nat
  h : Nat
  marginL : Nat
  marginR : Nat
  inWidth : Nat
  ringBytes : Nat
  spill : Nat
deriving DecidableEq, Repr

/-- The fields of a stack header. -/
def StackHdr.ofBytes (l : List Byte) : StackHdr :=
  { count := field l 1 1, g := field l 2 1, slots := bit (field l 3 1) 0, lam := field l 4 1, rho := field l 5 1,
    h := field l 6 2, marginL := field l 8 1, marginR := field l 9 1, inWidth := field l 10 2, ringBytes := field l 12 4,
    spill := field l 16 4 }

/-- An operation of a stack: its offset from the header, and its window descriptor; none for a matrix layer. -/
structure StackOp where
  off : Nat
  win : Option WinDesc
deriving DecidableEq, Repr

/-- The operations of a stack, read in order (R140): windows of 64 bytes, layers of 128. -/
def stackOps (rd : Nat → Nat → List Byte) : Nat → Nat → List StackOp
  | 0, _ => []
  | n + 1, off =>
    if field (rd off 1) 0 1 = 1 then ⟨off, none⟩ :: stackOps rd n (off + 128)
    else ⟨off, some (WinDesc.ofBytes (rd off 64))⟩ :: stackOps rd n (off + 64)

/-- A layer with a window: one windowed operation, or the passes of one decomposed kernel (R128, R152), with the stride
products before it. -/
structure WGroup where
  ops : List Nat
  cy : Nat
  cx : Nat
  sy : Nat
  sx : Nat
  pt : Nat
  pb : Nat
  pl : Nat
  pr : Nat
  py : Nat
  px : Nat
deriving DecidableEq, Repr

/-- The rows and columns a pass reaches (R128). -/
def WinDesc.reachY (d : WinDesc) : Nat := d.oy + d.dy * (d.kh - 1) + 1
def WinDesc.reachX (d : WinDesc) : Nat := d.ox + d.dx * (d.kw - 1) + 1

/-- Gather the groups in order; `gs` newest first, `i` the operation's index. -/
def groupsFrom : List StackOp → Nat → Bool → List WGroup → List WGroup
  | [], _, _, gs => gs.reverse
  | o :: t, i, inKernel, gs =>
    match o.win with
    | none => groupsFrom t (i + 1) false gs
    | some d =>
      if !d.windowed then groupsFrom t (i + 1) false gs
      else
        match gs with
        | g :: rest =>
          if inKernel && decide (2 ≤ d.role) then
            groupsFrom t (i + 1) true
              ({ g with ops := g.ops ++ [i], cy := max g.cy d.reachY, cx := max g.cx d.reachX } :: rest)
          else
            groupsFrom t (i + 1) true
              (⟨[i], d.reachY, d.reachX, d.sy, d.sx, d.pt, d.pb, d.pl, d.pr, g.py * g.sy, g.px * g.sx⟩ :: g :: rest)
        | [] =>
          groupsFrom t (i + 1) true [⟨[i], d.reachY, d.reachX, d.sy, d.sx, d.pt, d.pb, d.pl, d.pr, 1, 1⟩]

/-- The groups of a stack. -/
def groupsOf (ops : List StackOp) : List WGroup := groupsFrom ops 0 false []

/-- The halos λ, ρ and H of R128. -/
def halos (gs : List WGroup) : Nat × Nat × Nat :=
  let l := (gs.map (fun g => g.pl * g.px)).sum
  let r := (gs.map (fun g => ((g.cx : Int) - g.pl - g.sx) * g.px)).sum
  let h := (gs.map (fun g => ((g.cy : Int) - g.pt - g.sy) * g.py)).sum
  (l, r.toNat, h.toNat)

/-- The interior leads at each group's input (R131): `a` and `b` are the columns used before it. A right lead that comes out
negative is 0, since the field holds 0 to 32 (log entry 157). -/
def leadsFrom (lam rho : Nat) : List WGroup → Int → Int → List (Nat × Nat)
  | [], _, _ => []
  | g :: t, a, b =>
    (((lam : Int) - a).toNat / g.px, ((rho : Int) - b).toNat / g.px) ::
      leadsFrom lam rho t (a + g.pl * g.px) (b + ((g.cx : Int) - g.pl - g.sx) * g.px)

/-- Output rows or columns of a window (R125), at least 0. -/
def windowOut (n before after span stride : Nat) : Nat :=
  (((n : Int) + before + after - span).tdiv stride + 1).toNat

/-- Columns of a plane of width w that band b owns, when the bands are B wide at the stack input and px columns of it make
one here (R118). -/
def ownedCols (b bw px w : Nat) : Nat × Nat := (b * bw / px, if b < 15 then (b + 1) * bw / px else w)

/-- Columns of a layer's input that band b holds: no left lead in band 0, no right lead in band 15 (R131). -/
def storedCols (b bw px w leadL leadR : Nat) : Nat × Nat :=
  let (lo, hi) := ownedCols b bw px w
  (if b = 0 then 0 else lo - leadL, if b = 15 then w else hi + leadR)

/-- The window descriptor of an operation index. -/
def winOf (ops : List StackOp) (i : Nat) : Option WinDesc := (ops[i]?).bind (·.win)

/-- Columns group k computes in band b: what the next group's ring holds where it feeds that ring, else its owned columns
(R131, R137). -/
def groupOut (ops : List StackOp) (gs : List WGroup) (k b bw : Nat) : Nat × Nat :=
  match gs[k]? with
  | none => (0, 0)
  | some g =>
    let first := (g.ops.head?.bind (winOf ops))
    let last := (g.ops.getLast?.bind (winOf ops))
    let next := (gs[k + 1]?).bind (fun n => (n.ops.head?.bind (winOf ops)).map (fun d => (n, d)))
    let own := ownedCols b bw (g.px * g.sx) (windowOut ((first.map (·.inWidth)).getD 0) g.pl g.pr g.cx g.sx)
    match next, last with
    | some (n, d), some l =>
      if l.outRows ≠ 0 ∧ d.inAddr = l.outAddr then storedCols b bw n.px d.inWidth d.leadL d.leadR else own
    | _, _ => own

/-! ### Rings -/

/-- The input ring and the output ring a descriptor names (R141, R160). -/
def WinDesc.inRing (d : WinDesc) : RingId := ⟨bits d.inAddr 0 24, d.inRows, d.inStride, d.c⟩
def WinDesc.outRing (d : WinDesc) : RingId := ⟨bits d.outAddr 0 24, d.outRows, d.outStride, d.c⟩

/-- The rings a list of windows names. -/
def ringIds (ws : List WinDesc) : List RingId :=
  ws.flatMap (fun d => (if d.inRows = 0 then [] else [d.inRing]) ++ (if d.outRows = 0 then [] else [d.outRing]))

/-- Two rings share a byte of the line buffer. -/
def RingId.meets (a b : RingId) : Bool :=
  decide (a.addr < b.addr + b.size * b.stride ∧ b.addr < a.addr + a.size * a.stride)

/-- The rows a ring holds. -/
def StripeSt.ring (s : StripeSt) (a : RingId) : List RingRow :=
  ((s.rings.find? (fun r => r.id = a)).map (·.rows)).getD []

/-- Put a row into a ring: a row of the same tag is replaced, else the oldest leaves a full ring. Another ring over the same
bytes holds no rows any more. -/
def StripeSt.putRow (s : StripeSt) (a : RingId) (row : RingRow) : StripeSt :=
  let rows := s.ring a
  let new :=
    if rows.any (fun r => r.frame = row.frame && r.row = row.row) then
      rows.map (fun r => if r.frame = row.frame ∧ r.row = row.row then row else r)
    else (rows ++ [row]).drop (rows.length + 1 - max 1 a.size)
  { s with rings := ⟨a, new⟩ :: s.rings.filter (fun r => r.id ≠ a && !r.id.meets a) }

/-- The row a window reads (R139): the row itself, else the nearest held above, else below, else none, with whether it is a
repair. -/
def ringRow (rows : List RingRow) (frame row : Nat) : Option (List Nat) × Bool :=
  let mine := rows.filter (fun r => r.frame = frame % 65536)
  match mine.find? (fun r => r.row = row) with
  | some r => (some r.data, false)
  | none =>
    let above := mine.foldl (fun (a : Option RingRow) r =>
      if r.row < row ∧ (a.all (fun x => x.row < r.row)) then some r else a) none
    let below := mine.foldl (fun (a : Option RingRow) r =>
      if row < r.row ∧ (a.all (fun x => r.row < x.row)) then some r else a) none
    match above, below with
    | some r, _ => (some r.data, true)
    | none, some r => (some r.data, true)
    | none, none => (none, true)

/-! ### Owed rows (R137, R138, R155) -/

/-- A frame's progress at its start, for n groups. -/
def FrameProg.fresh (frame n : Nat) : FrameProg :=
  ⟨frame, false, none, List.replicate (n + 1) none, List.replicate (n + 1) none, List.replicate n none⟩

/-- A frame has ended, with its height when known, else the rows it reached (R138, R155). -/
def FrameProg.finish (f : FrameProg) (h : Option Nat) : FrameProg :=
  { f with
    ended := true,
    height := some (match f.height with
      | some x => x
      | none => match h with
        | some x => if x = 0 then ((f.top.headD none).map (· + 1)).getD 0 else x
        | none => ((f.top.headD none).map (· + 1)).getD 0) }

/-- The height of a frame as a run's tick tells it (R155). -/
def TickInfo.heightOf (t : TickInfo) (frame : Nat) : Option Nat :=
  match t.ended.find? (fun e => e.1 = frame) with
  | some e => some e.2
  | none => if t.frame = frame then t.height else none

/-- The frame before frame f, as the run of frame f completes it; nothing where progress is of frame f or later (R138). -/
def progBefore (cur : FrameProg) (f n : Nat) (t : TickInfo) : List FrameProg :=
  let d := (f + 2 ^ 32 - cur.frame % 2 ^ 32) % 2 ^ 32
  if d = 0 ∨ d ≥ 2 ^ 31 then []
  else
    let prev := if d = 1 then cur else FrameProg.fresh ((f + 2 ^ 32 - 1) % 2 ^ 32) n
    [if prev.ended then prev else prev.finish (t.heightOf prev.frame)]

/-- The frames whose rows a run computes, and whether the last of them takes the run's own rows (R137, R138, R155). `kept`: the
progress kept of the stack, the newest frame last; the frame before the run's own is computed on while it still owes rows. -/
def progFrames (kept : List FrameProg) (n : Nat) (t : TickInfo) : List FrameProg × Bool :=
  let f := t.frame
  let cur := kept.getLast?
  let older := (kept.dropLast).filter (fun x => (x.frame + 1) % 2 ^ 32 = f % 2 ^ 32)
  if t.blank || (t.last && decide (t.rows = 0)) then
    match cur with
    | none => ([], false)
    | some c =>
      let d := (f + 2 ^ 32 - c.frame % 2 ^ 32) % 2 ^ 32
      let close (x : FrameProg) : FrameProg := if x.ended then x else x.finish (t.heightOf f)
      if d = 0 then (older ++ [close c], false)
      else if d < 2 ^ 31 then (progBefore c f n t ++ [close (FrameProg.fresh f n)], false)
      else ([], false)
  else
    match cur with
    | some c =>
      if c.frame = f ∧ t.first = false then (older ++ [c], true)
      else
        let prev := progBefore c f n t
        let new := FrameProg.fresh f n
        let new := if !prev.isEmpty && !t.first then { new with first := List.replicate (n + 1) (some 0) } else new
        (prev ++ [new], true)
    | none => ([FrameProg.fresh f n], true)

/-- Input and output heights of each group as far as known (R125, R137): a group's input height is known once the group
before it has computed its last row. -/
def progHeights (f : FrameProg) : List WGroup → Nat → Option Nat → List (Option Nat × Option Nat)
  | [], _, _ => []
  | g :: t, k, hin =>
    let hout := hin.map (fun h => windowOut h g.pt g.pb g.cy g.sy)
    let next := match hout with
      | some h => if h ≤ ((f.nxt.getD k none).getD 0) then some h else none
      | none => none
    (hin, hout) :: progHeights f t (k + 1) next

/-- The rows group k owes in a frame now, as (first row, count), and the frame's progress with them computed (R137). -/
def progRows (gs : List WGroup) (k : Nat) (f : FrameProg) : (Nat × Nat) × FrameProg :=
  match gs[k]? with
  | none => ((0, 0), f)
  | some g =>
    let hout := ((progHeights f gs 0 (if f.ended then f.height else none)).getD k (none, none)).2
    let first := f.first.getD k none
    match f.nxt.getD k none, first, hout with
    | none, none, none => ((0, 0), f)
    | nx, _, _ =>
      let y := match nx with
        | some y => y
        | none => match first with
          | none => 0
          | some f0 => if f0 = 0 then 0 else (-(((g.cy : Int) - 1 - g.pt - f0) / g.sy)).toNat
      let n := match hout with
        | some h => h - y
        | none => match f.top.getD k none with
          | none => 0
          | some t =>
            let last := ((t : Int) + g.pt - g.cy + 1)
            if last < 0 then 0 else (last / g.sy).toNat + 1 - y
      let f := { f with nxt := setAt f.nxt k (some (y + n)) }
      if n = 0 then ((y, 0), f)
      else
        ((y, n),
          { f with
            top := modAt (fun o => some (max (o.getD 0) (y + n - 1))) f.top (k + 1),
            first := modAt (fun o => some (o.getD y)) f.first (k + 1) })

/-! ### The operations -/

/-- What a stripe operation reads and changes: local and cluster memory, rings and progress, flags, rows repaired. -/
structure StripeRes where
  loc : Mem
  clus : Mem
  st : StripeSt
  fl : NFlags
  fixed : List (Nat × Nat × Nat)

/-- Bytes at a stripe address plus an offset (R142): space 0 local, 1 cluster. -/
def StripeRes.rd (r : StripeRes) (a off n : Nat) : Nat :=
  if bits a 30 2 = 1 then r.clus.le (bits a 0 24 + off) n else r.loc.le (bits a 0 24 + off) n

/-- Write at a stripe address plus an offset. -/
def StripeRes.wr (r : StripeRes) (a off n v : Nat) : StripeRes :=
  if bits a 30 2 = 1 then { r with clus := r.clus.putLe (bits a 0 24 + off) n v }
  else { r with loc := r.loc.putLe (bits a 0 24 + off) n v }

/-- INGEST (R145): `src` gives the byte of the source where the stored columns of row 0 begin, in cluster memory when
`clus`. -/
def ingestRun (r : StripeRes) (d : WinDesc) (clus : Bool) (src cols frame row0 rows : Nat) : StripeRes :=
  (List.range rows).foldl
    (fun r i =>
      let m := if clus then r.clus else r.loc
      let data := (List.range (cols * d.c)).map (fun e => m.le (src + i * d.inStride + 2 * e) 2)
      if d.outRows ≠ 0 then
        { r with st := r.st.putRow d.outRing ⟨frame % 65536, row0 + i, data⟩ }
      else
        (List.range (cols * d.c)).foldl (fun r e => r.wr d.outAddr (i * d.outStride + 2 * e) 2 (data.getD e 0)) r)
    r

/-- Bytes at a stripe address plus a signed offset. -/
def StripeRes.rdI (r : StripeRes) (a : Nat) (off : Int) (n : Nat) : Nat :=
  let o := ((bits a 0 24 : Int) + off).toNat
  if bits a 30 2 = 1 then r.clus.le o n else r.loc.le o n

/-- A row of a window's input: from its ring with repair (R139), or from a buffer that holds the run's input rows from row
`base` upward (log entry 40). -/
def inputRow (r : StripeRes) (d : WinDesc) (k frame row width base : Nat) : Option (List Nat) × StripeRes :=
  if d.inRows ≠ 0 then
    let (data, bad) := ringRow (r.st.ring d.inRing) frame row
    (data, if bad && !decide ((k, frame, row) ∈ r.fixed) then { r with fixed := (k, frame, row) :: r.fixed } else r)
  else
    (some ((List.range (width * d.c)).map (fun e =>
      r.rdI d.inAddr (((row : Int) - base) * d.inStride + 2 * (e : Nat)) 2)), r)

/-- The element of a window position (R123, R126): the pad of the sides it lies beyond, or the input element. `rowsIn`: the
rows already fetched. `slo`: first stored column. -/
def windowElem (d : WinDesc) (rowsIn : List (Nat × Option (List Nat))) (hin : Option Nat) (slo : Nat) (row col : Int)
    (ch : Nat) : Nat :=
  let h := hin.getD 0
  let up := decide (row < 0)
  let dn := hin.isSome && decide ((h : Int) ≤ row)
  let lf := decide (col < 0)
  let rt := decide ((d.inWidth : Int) ≤ col)
  let zero := (up && !bit d.padMode 3) || (dn && !bit d.padMode 2) || (lf && !bit d.padMode 1) || (rt && !bit d.padMode 0)
  if zero then 0
  else
    let y := if up then 0 else if dn then h - 1 else row.toNat
    let x := if lf then 0 else if rt then d.inWidth - 1 else col.toNat
    match assoc rowsIn y with
    | some (some data) => data.getD ((x - slo) * d.c + ch) 0
    | _ => 0

/-- The input row a window position stands on, when it is a row of the plane. -/
def planeRow (d : WinDesc) (hin : Option Nat) (row : Int) : Option Nat :=
  let h := hin.getD 0
  if row < 0 then (if bit d.padMode 3 then some 0 else none)
  else if hin.isSome ∧ (h : Int) ≤ row then (if bit d.padMode 2 ∧ 0 < h then some (h - 1) else none)
  else some row.toNat

/-- The taps of a window in row, then column order. -/
def windowTaps (d : WinDesc) : List (Nat × Nat) :=
  (List.range d.kh).flatMap (fun ty => (List.range d.kw).map (fun tx => (ty, tx)))

/-- The input position of a tap (R124). -/
def tapRow (d : WinDesc) (y ty : Nat) : Int := (y * d.sy : Nat) - (d.pt : Int) + d.oy + d.dy * ty
def tapCol (d : WinDesc) (x tx : Nat) : Int := (x * d.sx : Nat) - (d.pl : Int) + d.ox + d.dx * tx

/-- The DEPTHWISE weight of a tap and channel (R147). -/
def stripeWeight (r : StripeRes) (d : WinDesc) (ty tx ch : Nat) : Int :=
  let e := (ty * d.kw + tx) * d.c + ch
  if bit d.fmt 2 then sgn 4 (r.rd d.weight (e / 2) 1 / (if e % 2 = 1 then 16 else 1) % 16)
  else sgn 8 (r.rd d.weight e 1)

/-- One output element of DEPTHWISE before scale (R147): the FP32 accumulator. -/
def depthwiseAcc (r : StripeRes) (d : WinDesc) (el : Nat → Nat → Nat) (ch acc0 : Nat) : Nat × NFlags :=
  (windowTaps d).foldl
    (fun (a : Nat × NFlags) t =>
      let (v, f1) := widen d.inF (el t.1 t.2)
      let (w, _) := intToF fp32 (stripeWeight r d t.1 t.2 ch)
      let (p, f2) := fmul fp32 v w
      let (s, f3) := fadd fp32 a.1 p
      (s, ((a.2.or f1).or f2).or f3))
    (acc0, NFlags.none)

/-- Scale, bias and conversion of DEPTHWISE (R147). -/
def depthwiseOut (r : StripeRes) (d : WinDesc) (ch acc : Nat) : Nat × NFlags :=
  let (sc, f1) := scaleUsed (r.rd d.scale (2 * ch) 2)
  let (y, f2) := fmul fp32 acc sc
  let (y, f3) := if bit d.fmt 3 then fadd fp32 y (r.rd d.bias (4 * ch) 4) else (y, NFlags.none)
  let (o, f4) := fcvt fp32 d.outF y
  (o, ((f1.or f2).or f3).or f4)

/-- One output element of MAXPOOL or AVGPOOL (R148, R149). -/
def poolOut (d : WinDesc) (el : Nat → Nat → Nat) : Nat × NFlags :=
  let vals := (windowTaps d).map (fun t => widen d.inF (el t.1 t.2))
  let f0 := vals.foldl (fun f v => f.or v.2) NFlags.none
  let (x, f1) :=
    if d.op = 0x13 then
      match vals with
      | [] => (0, NFlags.none)
      | v :: t => t.foldl (fun (a : Nat × NFlags) v => let (m, f) := fmax fp32 a.1 v.1; (m, a.2.or f)) (v.1, NFlags.none)
    else
      let (s, f) := vals.foldl (fun (a : Nat × NFlags) v => let (m, f) := fadd fp32 a.1 v.1; (m, a.2.or f)) (0, NFlags.none)
      let (q, g) := fdiv fp32 s (intToF fp32 ((d.kh * d.kw : Nat) : Int)).1
      (q, f.or g)
  let (o, f2) := fcvt fp32 d.outF x
  (o, (f0.or f1).or f2)

/-- One output row of a windowed operation (R146 to R149, R647). `i`: the row's place among the rows of the run; `cols`: the
columns it computes; `slo`, `wIn`: first and count of the stored input columns; `pst`: stride of a partial row; `base`:
first input row of the run. -/
def windowRow (d : WinDesc) (k frame : Nat) (hin : Option Nat) (cols : Nat × Nat) (slo wIn pst base : Nat) (r : StripeRes)
    (i y : Nat) : StripeRes :=
  let w := cols.2 - cols.1
  let need := ((List.range d.kh).filterMap (fun ty => planeRow d hin (tapRow d y ty))).eraseDups
  let (rowsIn, r) := need.foldl
    (fun (a : List (Nat × Option (List Nat)) × StripeRes) q =>
      let (data, r) := inputRow a.2 d k frame q wIn base
      ((q, data) :: a.1, r)) ([], r)
  let el (x ch : Nat) (ty tx : Nat) : Nat := windowElem d rowsIn hin slo (tapRow d y ty) (tapCol d x tx) ch
  if d.op = 0x11 then
    (List.range w).foldl
      (fun r xi =>
        let off := (i * w + xi) * d.outStride
        let vals := (windowTaps d).flatMap (fun t => (List.range d.c).map (fun ch => el (cols.1 + xi) ch t.1 t.2))
        let vals := if bit d.fmt 6 then vals ++ List.replicate (d.kOut - vals.length) 0 else vals
        (List.range vals.length).foldl (fun r e => r.wr d.outAddr (off + 2 * e) 2 (vals.getD e 0)) r) r
  else
    let outs := (List.range (w * d.c)).map (fun e =>
      let x := cols.1 + e / d.c
      let ch := e % d.c
      if d.op = 0x12 then
        let (acc, f) := depthwiseAcc r d (el x ch) ch (if d.accIn then r.rd d.part (i * pst + 4 * e) 4 else 0)
        if d.accOut then (acc, f)
        else
          let (o, g) := depthwiseOut r d ch acc
          (o, f.or g)
      else poolOut d (el x ch))
    let r := { r with fl := outs.foldl (fun f o => f.or o.2) r.fl }
    if d.op = 0x12 ∧ d.accOut then
      (List.range outs.length).foldl (fun r e => r.wr d.part (i * pst + 4 * e) 4 (outs.getD e (0, NFlags.none)).1) r
    else if d.outRows ≠ 0 then
      { r with st := r.st.putRow d.outRing ⟨frame % 65536, y, outs.map (·.1)⟩ }
    else
      (List.range outs.length).foldl
        (fun r e => r.wr d.outAddr (i * d.outStride + 2 * e) 2 (outs.getD e (0, NFlags.none)).1) r

end Sys2Proof.Machine
end

