-- ==== Sys2Proof/Machine/PartOps.lean ====
section
/-! DEFINITION. What goes down: runs stopped, reaches switched off, partitions reset, escalation (R522 to R530, R548 to
R573). -/

namespace Sys2Proof.Machine

/-! ### Budgets (R265) -/

/-- The budget in force of a context, in bytes a period; none when unlimited. -/
def State.allowance (s : State) (ctx : Nat) : Option Nat :=
  match assoc s.ctxs ctx with
  | some c => if c.budget = 0 then none else some (100 * c.budget)
  | none => none

/-- Let a context's requests, each of a line of 64 bytes, through in a partition as far as the period's budget goes; a request that
would exceed it waits whole. Answers the bytes left over. -/
def State.charge (s : State) (ctx : Nat) (p : Fin 4) (n : Nat) : State × Nat :=
  match s.allowance ctx with
  | none => (s, 0)
  | some a =>
    let used := (assoc s.used (ctx, p)).getD 0
    let go := min n ((a - used) / 64 * 64)
    ({ s with used := assocSet s.used (ctx, p) (used + go) }, n - go)

/-! ### Row ranges (R276 to R278) -/

/-- A DRAM range meets a row range that is being copied to its spare or back. -/
def State.copying (s : State) (a n : Nat) : Bool :=
  s.parts.toList.any (fun p => p.test.any (fun t => t.phase ≠ .testing && overlap a n t.base 0x100000))

/-- An access meets a stack that cannot be reached (R253, R566): DRAM_OFF_ACCESS, once in each such period. -/
def State.offAccess (s : State) (a : Nat) : State :=
  match spaceOf a with
  | .dram p x =>
    if s.clusterUp p || s.parts[p].offSeen then s
    else (s.modPart p (fun q => { q with offSeen := true })).event 0x0306 0 p.val true (leBytes 8 x)
  | _ => s

/-- A host read of a DRAM range of partition p (R253, R274): its completion. -/
def State.hostRead (s : State) (p : Fin 4) (a len : Nat) : State :=
  let bad := s.clusterUp p && !(s.poisoned a len).isEmpty
  let data := if !s.clusterUp p || bad then List.replicate len 0xFF else s.dram.readBytes a len
  { s.offAccess a with pcie := { (s.offAccess a).pcie with bar2Data := data, bar2Ep := bad } }

/-- A host write to a DRAM range of partition p (R253, R275). -/
def State.hostStore (s : State) (p : Fin 4) (a : Nat) (data : List Byte) : State :=
  if !s.clusterUp p then s.offAccess a
  else
    let (s, part) := s.dramWrite a data
    part.foldl (fun (s : State) l => s.event 0x0307 0 p.val true (leBytes 8 l ++ leBytes 1 2)) s

/-- The accesses that a copy held proceed, oldest first (R278). -/
def State.releaseHeld (s : State) (p : Fin 4) : State :=
  s.parts[p].held.foldl
    (fun (s : State) (h : HeldAccess) => if h.write then s.hostStore p h.addr h.data else s.hostRead p h.addr h.len)
    (s.modPart p (fun x => { x with held := [] }))

/-- A range of DRAM becomes undefined. -/
def State.junkDram (s : State) (a n : Nat) : State :=
  let (k, s) := s.newEpoch
  { s with dram := s.dram.junk a n k }

/-! ### Adaptation jobs, tests -/

/-- A job ends and writes ADAPT_DONE (R205): outcome 0 committed, 1 discarded, 2 aborted, 3 time-limited. A job whose commit
awaits its tick wrote it at the commit. -/
def State.jobEnd (s : State) (j : Job) (outcome : Nat) : State :=
  let s := { s with jobs := s.jobs.filter (fun x => x.cargo ≠ j.cargo) }
  if j.phase = 4 then s else
  s.event 0x0207 j.owner 0xFF false
    (leBytes 1 j.cargo ++ leBytes 1 outcome ++ leBytes 4 j.done ++ leBytes 4 j.dropped ++ w32 j.before ++ w32 j.after ++
      w32 j.stale)

/-- A job is aborted by a partition reset or a timetable switch (R207): its master weights and its optimiser state are lost with the
content of its region, unless that is RETAIN. -/
def State.jobAbort (s : State) (j : Job) : State :=
  let s := match s.region? j.region with
    | some (_, g) => if g.retain then s else s.junkDram g.base g.len
    | none => s
  s.jobEnd j 2

/-- The cluster a timetable entry of the running timetable runs on. -/
def State.entryCluster (s : State) (id : Nat) : Option (Fin 4) :=
  (s.sched.tt.bind (fun t => t.entries.find? (fun e => e.id = id))).map (fun e => e.cluster)

/-- The cluster of a unit under test. -/
def TestUnit.cluster : TestUnit → Option (Fin 4)
  | .core co _ _ => some co.c
  | .engine co _ => some co.c
  | .array co => some co.c
  | .clusterRow c _ => some c
  | .clusterBank c _ => some c
  | .dspBlock _ _ => none
  | .zport _ => none

/-- The core a test holds. -/
def TestUnit.core? : TestUnit → Option CoreId
  | .core co _ _ => some co
  | .engine co _ => some co
  | .array co => some co
  | _ => none

/-- The unit code of a SELFTEST event: those of SRAM_UE where that table has the unit, else a free value (log entry 31). -/
def TestUnit.code : TestUnit → Nat
  | .core _ u _ => u
  | .clusterRow _ _ => 2
  | .clusterBank _ _ => 2
  | .dspBlock _ _ => 4
  | .array _ => (Config.unitCode 0).toNat
  | .engine _ _ => (Config.unitCode 1).toNat
  | .zport _ => (Config.unitCode 2).toNat

/-- The instance of a SELFTEST event: the cluster, DSP or port; for a unit of a core, a free value of the test, since no event
returns a core number (R3, R578; log entry 152). -/
def Test.inst (t : Test) : Nat :=
  match t.unit with
  | .clusterRow c _ => c.val
  | .clusterBank c _ => c.val
  | .dspBlock d _ => d.val
  | .zport p => p.val
  | _ => (Config.testInstance t.tid).toNat

/-- The "where" byte of a test's events (R578). -/
def TestUnit.place : TestUnit → Nat
  | .dspBlock d _ => 0x10 + d.val
  | .zport p => 0x10 + p.val
  | u => (u.cluster.map (·.val)).getD 0xFF

/-- Where a unit's spares are counted, and how many there are (R552): kind, instance, index, full number. -/
def TestUnit.spareKey : TestUnit → Option (Nat × Nat × Nat × Nat)
  | .core co u b => some (u, co.c.val * 4 + co.k.val, b, 4)
  | .clusterRow c r => some (2, c.val, r / 256, 8)
  | .clusterBank c b => some (2, c.val, b, 8)
  | .dspBlock d b => some (4, d.val, b / 2048, 4)
  | _ => none

/-- Spares left of a unit. -/
def State.sparesLeft (s : State) (u : TestUnit) : Nat :=
  match u.spareKey with
  | none => 0
  | some (k, i, x, n) =>
    match s.health.spares.find? (fun e => e.1 = k && e.2.1 = i && e.2.2.1 = x) with
    | some e => e.2.2.2
    | none => n

/-- One spare of a unit is used. -/
def State.useSpare (s : State) (u : TestUnit) : State :=
  match u.spareKey with
  | none => s
  | some (k, i, x, _) =>
    let left := s.sparesLeft u - 1
    { s with
      health := { s.health with
        spares := (k, i, x, left) :: s.health.spares.filter (fun e => ¬ (e.1 = k ∧ e.2.1 = i ∧ e.2.2.1 = x)) } }

/-- The SELFTEST event (R553, R578). -/
def State.selftestEvent (s : State) (t : Test) (result us : Nat) : State :=
  s.event 0x0A04 0 t.unit.place true
    (leBytes 1 t.unit.code ++ leBytes 1 t.inst ++ leBytes 1 result ++ leBytes 2 t.trigger ++ leBytes 4 us ++
      leBytes 1 (s.sparesLeft t.unit) ++ leBytes 4 t.zeroed)

/-- A unit is to be tested for an event (R551): a detection merges into a test of the unit that is pending or running. -/
def State.queueTest (s : State) (u : TestUnit) (trigger : Nat) (m : Option (Fin 8)) : State :=
  if s.health.tests.any (fun t => t.unit = u) then s
  else
    { s with
      health := { s.health with
        tests := s.health.tests ++
          [{ tid := s.health.nextTid, unit := u, st := .pending, trigger := trigger, found := s.now, start := none, zeroed := 0,
             mbox := m }],
        nextTid := s.health.nextTid + 1 } }

/-- The tests of a partition end abandoned and wait for its return (R554); a row-range test goes back to its queue, its spare
stays. -/
def State.abandonTests (s : State) (c : Fin 4) : State :=
  let l := s.health.tests.filter (fun t => t.unit.cluster = some c)
  let s := l.foldl (fun (s : State) (t : Test) =>
    s.selftestEvent t 3 (match t.start with
      | some x => (s.now - x) / 1000
      | none => 0)) s
  let s := { s with
    health := { s.health with
      tests := s.health.tests.map (fun (t : Test) =>
        if t.unit.cluster = some c then { t with st := .pending, start := none, found := s.now } else t) } }
  (s.modPart c (fun p =>
    match p.test with
    | some t =>
      { p with
        test := none, queue := t.base :: p.queue, ready := p.ready.filter (fun b => b ≠ t.base), testDue := false,
        kept := (t.base, t.spare) :: p.kept }
    | none => { p with testDue := false })).releaseHeld c

/-! ### What an entry point names -/

/-- Words of the instruction that begins with a word (R217; VLD and VST: log entry 59). -/
def instrWords (w : Nat) : Nat :=
  match bits w 28 4 with
  | 0 => if bits w 24 4 = 3 then 2 else 1
  | 4 => 2
  | 5 => if bit w 23 then 1 else 2
  | 6 => 2
  | 7 => if Config.vectorMemory (bits w 22 6) then 3 else 1
  | _ => 1

/-- The descriptors a program's EXEC instructions name, among the `n` words from an address on. -/
def State.execsOf (s : State) (c : Fin 4) (a : Nat) : Nat → Nat → List Nat
  | 0, _ => []
  | _, 0 => []
  | fuel + 1, n + 1 =>
    let w := s.clLe c a 4
    let k := instrWords w
    let rest := State.execsOf s c (a + 4 * k) fuel (n + 1 - k)
    if bits w 28 4 = 4 then s.clLe c (a + 4) 4 :: rest else rest

/-- The rings a stack names. -/
def State.stackRings (s : State) (c : Fin 4) (hdr : Nat) : List RingId :=
  let rd (off n : Nat) : List Byte := s.clRead c (bits hdr 0 24 + off) n
  ringIds ((stackOps rd (StackHdr.ofBytes (rd 0 64)).count 64).filterMap (·.win))

/-- The stacks of an entry point: the headers its program's EXECs name (R129, R158). -/
def State.pointStacks (s : State) (c : Fin 4) (p : Point) : List Nat :=
  ((s.execsOf c p.programOff (p.programLen / 4) (p.programLen / 4)).filter
    (fun a => decide (s.clLe c (bits a 0 24) 1 = 0x20))).eraseDups

/-- The rings of an entry point. -/
def State.pointRings (s : State) (c : Fin 4) (p : Point) : List RingId := (s.pointStacks c p).flatMap (s.stackRings c)

/-- Rings a share keeps of those it holds. -/
def StripeSt.keepRings (st : StripeSt) (keep : RingId → Bool) : StripeSt := { st with rings := st.rings.filter (fun x => keep x.id) }

/-! ### Runs and clusters that stop -/

/-- The share of a stopped BYPASS run starts its next run as its last completed run left it (R39, log entry 164): the persistent
range, and the rings and progress of the stacks of its entry point. -/
def SavedRun.restore (v : SavedRun) (keepLo keepLen : Nat) (hdrs : List Nat) (rings : List RingId) (k : Cluster) : Cluster :=
  { k with
    lmem := Vector.ofFn (fun i => k.lmem[i].copyFrom v.lmem[i] keepLo keepLen),
    stripe := Vector.ofFn (fun i =>
      let old := v.stripe[i]
      let new := k.stripe[i]
      { new with
        rings := old.rings.filter (fun x => x.id ∈ rings) ++ new.rings.filter (fun x => x.id ∉ rings),
        prog := old.prog.filter (fun x => x.1 ∈ hdrs) ++ new.prog.filter (fun x => x.1 ∉ hdrs) }) }

/-- What a run of policy BYPASS did to the state its entry keeps is undone. -/
def State.restoreSaved (s : State) (r : Run) : State :=
  let c := r.entry.cluster
  match s.clusters[c].saved.find? (fun v => v.rid = r.rid), s.point? r.entry r.alt with
  | some v, some p => s.modCl c (v.restore p.keepLo p.keepLen (s.pointStacks c p) (s.pointRings c p))
  | _, _ => s


/-- A run is stopped for good: its barges and waits go, its cores are free, it never completes (R39, R117, R530); its repairs
are reported, and under BYPASS or FAULT its flags up to the stop (R65, R139). -/
def State.stopRun (s : State) (r : Run) (bypassed : Bool) : State :=
  let s := s.abandonShareBarges r.rid
  let s := s.withdrawRun r.rid
  let s := s.repairEvent r
  let s := if (bypassed || r.faulted) && !r.old then s.modEntry r.entry.id (fun x => { x with numFlags := r.flags }) else s
  let s := if bypassed then s.restoreSaved r else s
  let s := s.freeCores r.entry.cluster r.rid
  let s := s.modOvr r.entry.source r.count (fun o => { o with skipped := true })
  s.runEnd r 2 bypassed

/-- Whether a barge has an end in a partition, or its mover is that cluster's (R236). -/
def Barge.meets (b : Barge) (c : Fin 4) : Bool :=
  b.cluster = c || (b.desc.op = 0x40 && decide (partOf b.desc.src = some c)) ||
    (!b.desc.remote && decide (partOf b.desc.dst = some c))

/-- What ends on a cluster whose partition is reset or whose reach powers off: waiters, barges with BARGE_ABANDONED, those of
its shares among them, runs, sessions, jobs, tests; what entries keep for their next runs (R227, R236, R246, R544, R554, R566). Answers also how many
barges there were and whether a session ended. -/
def State.clusterDown (s : State) (c : Fin 4) : State × Nat × Bool :=
  let s := s.keeper (some c) |>.waiters.foldl (fun s w => s.waitEnded w 2) s
  let s := s.setKeeper (some c) { s.keeper (some c) with waiters := [] }
  let hit := s.barges.filter (fun b => b.meets c)
  let s := (hit.filter (·.held) ++ hit.filter (fun b => !b.held)).foldl
    (fun (s : State) (b : Barge) => s.abandonBarge b 0x0304 (w32 b.desc.tag)) s
  let s := (s.sched.runs.filter (fun r => r.entry.cluster = c)).foldl (fun (s : State) (r : Run) => s.stopRun r false) s
  let ids := ((s.sched.tt.map (fun t => (t.entries.filter (fun e => e.cluster = c)).map (fun e => e.id))).getD [])
  let s := { s with
    sched := { s.sched with
      entries := s.sched.entries.map (fun (e : EntrySt) =>
        if e.id ∈ ids then { e with pf := none, dropNext := false } else e) } }
  let (s, dropped) := s.dropSessions c
  let s := (s.jobs.filter (fun j => s.entryCluster j.entry = some c)).foldl (fun (s : State) (j : Job) => s.jobAbort j) s
  (s.abandonTests c, hit.length, dropped)

/-! ### The logbook (R568) -/

/-- The program word of a share. -/
def programWord (h : Share) : Nat :=
  let st := match h.st with
    | .notStarted => 0
    | .running => 1
    | .inLockw => 2
    | .stalled => 3
    | .retired => 4
    | .stopped => 5
  st * 0x1000000 + min h.barges.length 255 * 0x10000 + min h.pc 0xFFFF

/-- The share whose words the logbook gives for a share index: the one on a core, else one of a run in progress. -/
def State.bookShare (s : State) (c : Fin 4) (i : Fin 4) : Option Share :=
  let runs := s.sched.runs.filter (fun r => r.entry.cluster = c && r.phase = .running)
  let onCore := s.clusters[c].cores.toList.filterMap (fun k => k.cur)
  match onCore.find? (fun x => x.2 = i) with
  | some (rid, _) => (s.run? rid).bind (fun r => r.shares.find? (fun h => h.idx = i))
  | none => runs.head?.bind (fun r => r.shares.find? (fun h => h.idx = i))

/-- The escalation count (R572): resets and restarts begun within the window. -/
def State.escCount (s : State) : Nat :=
  (s.health.begun.filter (fun t => s.now < t + s.health.escWindow * 1000000000)).length

/-- The data of the LOGBOOK record of partition c, after its header's 16 bytes (R568). -/
def State.logbook (s : State) (c : Fin 4) (cause entry seq barges : Nat) (escalated : Bool) : List Byte :=
  let share (i : Fin 4) : List Byte := match s.bookShare c i with
    | some h => leBytes 4 h.words.1 ++ leBytes 4 h.words.2.1 ++ leBytes 4 h.words.2.2 ++ leBytes 4 (programWord h)
    | none => zeros 16
  let runs := s.sched.runs.filter (fun r => r.entry.cluster = c && r.phase ≠ .dropped)
  let entryRec (r : Run) : List Byte :=
    leBytes 2 r.entry.id ++
      leBytes 1 (b2n (r.phase ≠ .pending) + 2 * b2n (r.phase = .pending) + 4 * b2n r.alt + 8 * b2n (r.phase = .waiting)) ++
      [0] ++ leBytes 4 r.count ++ leBytes 4 (s.elapsed4 r / 4) ++
      leBytes 1 ((r.shares.map (fun h => if h.st = .retired then 2 ^ h.idx.val else 0)).sum) ++ zeros 3
  let slots := s.clusters[c].slots
  let clip := leBytes 64 ((slots.map (fun t => if t.inFallback then 2 ^ t.num else 0)).sum)
  let hitRings := ((s.barges.filter (fun b => b.meets c)).filterMap (fun b => match b.by_ with
    | .ring r _ => some r
    | _ => none)).eraseDups
  let evRing := (s.eventRing s.ttOwner).map (·.1)
  let rings := ((hitRings.map (fun r => (r, true))) ++
    (match evRing with
      | some r => [(r, false)]
      | none => [])).take 15
  let ringRec (x : Nat × Bool) : List Byte := match assoc s.rings x.1 with
    | some g => leBytes 2 (x.1 % 512) ++ leBytes 1 (max 1 g.kind) ++ leBytes 1 (b2n x.2) ++ w32 g.host ++ w32 g.dev
    | none => zeros 12
  let ringLines := (List.range ((rings.length + 4) / 5)).flatMap (fun i =>
    padTo 64 (((rings.drop (5 * i)).take 5).flatMap ringRec))
  let q := s.clusters[c].keeper
  let names := (List.range 1024).filter (fun l => decide (q.level l ≠ 0) || q.waiters.any (fun w => w.lock = l))
  let locks := names.take 192
  let lockRec (l : Nat) : List Byte :=
    leBytes 2 l ++ leBytes 2 (q.waiters.filter (fun w => w.lock = l)).length ++ leBytes 4 (q.level l)
  let lockLines := padTo ((locks.length + 7) / 8 * 64) (locks.flatMap lockRec)
  let flags := b2n (decide (names.length > 192)) + 2 * b2n (decide (runs.length > 8)) + 4 * b2n escalated
  leBytes 1 c.val ++ leBytes 1 cause ++ leBytes 2 entry ++ leBytes 4 seq ++ leBytes 1 s.clusters[c].healthy ++
    leBytes 1 s.escCount ++ leBytes 1 (min runs.length 8) ++ leBytes 1 rings.length ++ leBytes 2 locks.length ++
    leBytes 1 flags ++ [0] ++ leBytes 8 s.now ++ leBytes 4 barges ++ zeros 20 ++
    (List.finRange 4).flatMap share ++ padTo 128 ((runs.take 8).flatMap entryRec) ++ clip ++ ringLines ++ lockLines

/-! ### Time and ports of the link -/

/-- A number as saturating INT32 (R521). -/
def int32 (v : Int) : Nat := wrapN 32 (max (-2147483648) (min 2147483647 v))

/-- A follower becomes unlocked (R508, R509) with a cause: TIME_UNLOCK, and LNK_ERR.time_unlock. -/
def State.timeUnlock (s : State) (cause : Nat) : State :=
  if s.time.role = 2 && s.time.locked then
    (State.event { s with time := { s.time with locked := false, first := true } } 0x0708 0 0xFF true
      (leBytes 1 cause ++ leBytes 4 (int32 s.time.theta))).lnkErr 0x800
  else s

/-- A port goes down (R478, R484, R509): what waits at it is discarded; LINK_PORT_DOWN with the
reason, and LNK_ERR.down (bit p). It is to train again after 10 ms. -/
def State.portDown (s : State) (p : Fin 4) (reason : Nat) (event : Bool) : State :=
  let z := s.link.port[p]
  let s := s.modZp p (fun z =>
    { z with
      up := false, lanes := 0, drop := z.drop + BitVec.ofNat 32 (z.q0.length + z.q1.length), q0 := [], q1 := [],
      credit0 := 256, credit1 := 256, retry := s.now + 10000000 })
  let s := if z.up && event then
      (s.event 0x0702 0 (0x10 + p.val) true (leBytes 1 p.val ++ leBytes 1 reason)).lnkErr (1#15 <<< p.val)
    else s
  if z.up && s.time.upstream = p then s.timeUnlock 3 else s

/-! ### Reaches that power off (R522, R529) -/

/-- A packet leaves on CSI-2, where the transmitter has a PHY (R309). -/
def Tx.send (t : Tx) (dt : Nat) (l : List Byte) : Tx := if t.cfg.phy = 0 then t else { t with sent := (dt, l) :: t.sent }

/-- The frame in progress of a transmitter ends: Frame End, IMG_TX_FRAME (R309, R322). -/
def Tx.close (t : Tx) : Tx :=
  match t.inFrame with
  | some f =>
    { t.send 0x01 (leBytes 2 (f % 65535 + 1)) with
      frame := BitVec.ofNat 32 f, inFrame := none, ahead := false, cur := none, lastSent := [], subst := false, buf := none }
  | none => t

/-- A transmitter ends what it sends (R312): Frame End if a frame is open, no metadata, no completion. -/
def State.txHalt (s : State) (n : Fin 2) : State := s.modTx n (fun t => { t.close with groups := [] })

/-- A port as it is while its reach is off: its configuration, and whether it is to start again (R522, R529). -/
def Port.off (p : Port) : Port :=
  { Port.reset with
    cfg := p.cfg, gainIn := List.replicate 32 0x1000, gainOut := List.replicate 32 0x1000,
    startAfter := if (p.running && !p.stopping) || p.startAfter.isSome then some 0 else none }

/-- A DSP as it is while its reach is off: memories and registers lost, image and condition kept (R363). -/
def Dsp.off (d : Dsp) (k : Nat) : Dsp :=
  { Dsp.reset with
    cond := d.cond, owner := d.owner, image := d.image, fenced := d.fenced,
    p := Mem.empty.junk 0 0x20000 k, x := Mem.empty.junk 0 0x40000 (k + 1), y := Mem.empty.junk 0 0x40000 (k + 2),
    tasks := d.tasks.map (fun t => { t with cur := none, pend := none, dropNext := false }) }

/-- The state with a DSP powered off. -/
def State.dspOff (s : State) (d : Fin 4) : State :=
  let k := s.epoch
  State.modDsp { s with epoch := s.epoch + 3 } d (fun x => x.off k)

/-- The I3C transfers queued end cancelled (R433). -/
def State.i3cCancel (s : State) (n : Fin 2) : State :=
  let q := s.img.i3c[n]
  let s := { s with img := { s.img with i3c := vset s.img.i3c n [] } }
  q.foldl (fun s x => s.replyFor x.mbox 0x0501 (ok (leBytes 1 4 ++ zeros 7 ++ leBytes 8 (x.started.getD 0)))) s

/-- What waits for a reference that will never be stamped ends cancelled (R433). -/
def State.i3cUnstamped (s : State) (n : Fin 2) : State :=
  let l := s.img.i3c[n].filter (fun x => x.due.isNone)
  let s := { s with img := { s.img with i3c := vmod s.img.i3c n (fun (q : List I3cXfer) => q.filter (fun x => x.due.isSome)) } }
  l.foldl (fun (s : State) (x : I3cXfer) => s.replyFor x.mbox 0x0501 (ok (leBytes 1 4 ++ zeros 15))) s

/-- The device leaves RUNNING and DEGRADED for another state (R11, R312, R433): outputs stop (a
transmitter at its TX_STOP), transfers whose reference will not come are cancelled. -/
def State.leaveRunning (s : State) (d : DevState) : State :=
  if s.active then ((s.setState d).i3cUnstamped 0).i3cUnstamped 1 else s

/-- The configuration is not in force (R418): no run is made ready, and the device enters CONFIG_HOLD. -/
def State.enterHold (s : State) : State :=
  let s := { s with sched := { s.sched with running := false } }
  if s.dev.state = .ready then s.setState .configHold else s.leaveRunning .configHold

/-- A reach powers off: its trace unit writes what it lost and REACH_OFF and the sink takes all it holds (R606), and what the
reach holds is lost but for what the table of reaches keeps (R522). -/
def State.reachOff (s : State) (r : Fin 10) : State :=
  if !s.on r.val then s else
  let s := s.traceLost r
  let s := s.traceMarker r 0x02 (w32 s.trc.unit[r].sinceOn) true
  let s := { s with trc := Trc.flush s.now (fifoUnits s.trc.unit[r].fifo + 16) s.trc }
  let s := match r with
    | 1 =>
      let s := s.dspOff 0
      let s := s.modAud 4 Port.off
      { s with
        aud := { s.aud with
          vaux := { s.aud.vaux with enabled := false, ramping := false, on := false, fault := false, rampDone := none },
          pdmClk := false, pdmTracking := false, pdmAt := none },
        casc := { s.casc with ring := [], held := none, writing := false } }
    | 2 =>
      let s := ((s.dspOff 1).dspOff 2).dspOff 3
      let s := (((s.modAud 0 Port.off).modAud 1 Port.off).modAud 2 Port.off).modAud 3 Port.off
      let f (a : Apll) : Apll :=
        { Apll.reset with
          started := a.started, fs := a.fs, mode := a.mode, port := a.port, block := a.block, phase := a.phase,
          wclkOut := a.wclkOut }
      ((s.modApll 0 f).modApll 1 f)
    | 3 =>
      { s with mboxes := s.mboxes.map (fun (b : Mbox) => { b with page := Mem.empty, taken := none, flight := none }) }
    | 4 =>
      let s := ((s.txHalt 0).txHalt 1)
      let s := (s.i3cCancel 0).i3cCancel 1
      let rx (x : Rx) : Rx :=
        { Rx.reset with cfg := x.cfg, tables := x.tables, tablesNext := x.tablesNext, black := x.black, blackNext := x.blackNext }
      let tx (t : Tx) : Tx := { Tx.reset with cfg := t.cfg, sent := t.sent }
      { s with
        img := { s.img with
          rx := s.img.rx.map rx, tx := s.img.tx.map tx, ref := 0, refLatch := 0, refTicks := [],
          trig := Vector.replicate 2 ⟨false, []⟩, trigLate := Vector.replicate 2 false, i3cDone := [], frames := Vector.replicate 2 [] } }
    | 5 =>
      let s := (List.finRange 4).foldl (fun (s : State) p => s.portDown p 0 false) s
      let rxs (x : RxStream) : RxStream :=
        { RxStream.off with
          on := x.on, k := x.k, ring := x.ring, unitBytes := x.unitBytes, src := x.src, stream := x.stream,
          periodNs := x.periodNs, dueUs := x.dueUs, raise := x.raise, missing := x.missing, late := x.late }
      { s with link := { s.link with rxs := s.link.rxs.map rxs, trackers := [] } }
    | _ => s
  let s := { s with dev := { s.dev with powered := s.dev.powered &&& ~~~(1#10 <<< r.val) } }
  State.irqSync s.groupChanged

/-- A cluster reach powers off (R529, R530): what runs there ends, and its memories lose their content. Answers also whether
a cascade session ended. -/
def State.clusterOff (s : State) (c : Fin 4) : State × Bool :=
  if !s.on (clusterReach c) then (s, false) else
  let (s, _, dropped) := s.clusterDown c
  let k := s.epoch
  let s := State.modCl { s with epoch := s.epoch + 5 } c (fun x =>
    { x with
      mem := Mem.empty.junk 0 0x1000000 k, lmem := Vector.ofFn (fun i => Mem.empty.junk 0 0x400000 (k + 1 + i.val)),
      bad := Vector.replicate 4 [], stripe := Vector.replicate 4 StripeSt.reset, saved := [], keeper := Keeper.reset, raisesIn := [],
      ranFirst := none, cores := x.cores.map (fun y => { y with cur := none, susp := [], eng := MatStore.reset }), kvB := 16, kvCalm := 0, lastSeq := 0,
      reset := none })
  let s := s.modPart c (fun p => { p with
    offSeen := false, retrain := p.retrain.map (fun (r : Retrain) => { r with state := 0 }), retrainNext := [], scrubState := 0,
    offAt := some s.now })
  (s.reachOff (clusterUnit c), dropped)

/-- Power a reach off, whichever it is. -/
def State.powerOff (s : State) (r : Fin 10) : State :=
  if h : 6 ≤ r.val then (s.clusterOff ⟨r.val - 6, by omega⟩).1 else s.reachOff r

/-! ### Escalation and partition resets -/

/-- Leave service for good, from CONFIG_HOLD, READY, RUNNING or DEGRADED (R447, R573): runs, outputs and ports stop; every reach except TOWPATH, CONTROL and LINK powers off. -/
def State.outOfService (s : State) : State :=
  if s.dev.state = .boot ∨ s.dev.state = .recovery ∨ s.dev.state = .off ∨ s.dev.state = .outOfService then s else
  let s := s.setState .outOfService
  let s := { s with sched := { s.sched with running := false } }
  let s := (s.txHalt 0).txHalt 1
  let s := s.modAud 0 (fun p => { p with running := false, startAfter := none })
  let s := s.modAud 1 (fun p => { p with running := false, startAfter := none })
  let s := s.modAud 2 (fun p => { p with running := false, startAfter := none })
  let s := s.modAud 3 (fun p => { p with running := false, startAfter := none })
  let s := s.modAud 4 (fun p => { p with running := false, startAfter := none })
  [4, 9, 8, 7, 6, 2, 1].foldl State.powerOff s

/-- A reset or restart begins (R572): it counts. Answers also the count with it and whether it escalates. -/
def State.begun (s : State) : State × Nat × Bool :=
  let s := { s with health := { s.health with begun := s.now :: s.health.begun } }
  let n := s.escCount
  (s.groupChanged, n, decide (s.health.escLimit ≤ n))

/-- The ESCALATION record (R572, R578). -/
def State.escalationEvent (s : State) : State :=
  s.event 0x0A09 0 0xFF true (leBytes 1 s.escCount ++ leBytes 2 s.health.escWindow)

/-- The stop phase of a partition reset (R563 to R566, R572). A request for a partition already in reset merges and counts
nothing (R565). `m`: the mailbox of a HEALTH_RESET_PARTITION. -/
def State.partitionStop (s : State) (c : Fin 4) (cause entry seq : Nat) (m : Option (Fin 8)) : State :=
  match s.clusters[c].reset with
  | some _ =>
    match m with
    | some m => s.modCl c (fun k => { k with reset := k.reset.map (fun r => { r with waiters := r.waiters ++ [(m, true)] }) })
    | none => s
  | none =>
    let (s, n, esc) := s.begun
    let bn := (s.barges.filter (fun b => b.meets c)).length
    let book := s.logbook c cause entry seq bn esc
    let s := s.modCl c (fun k =>
      { k with
        reset := some
          { cause := cause, entry := entry, seq := seq, start := s.now, phase := 0,
            waiters := (m.map (fun m => (m, false))).toList, escalated := esc, book := book } })
    let (s, _, _) := s.clusterDown c
    let s := (List.finRange 16).foldl (fun (s : State) k =>
      if s.sched.src[k].kind = 1 && s.sched.src[k].last.isSome then
        s.modOvr k ((s.sched.src[k].next - 1 : W64).toNat) (fun o => { o with partReset := true })
      else s) s
    let s := s.traceMarker (clusterUnit c) 0x05 (leBytes 1 cause) true
    let s := s.event 0x0A06 0 c.val true (leBytes 1 cause ++ leBytes 2 entry ++ leBytes 1 n)
    let s := s.stateChanged.refresh
    if esc then
      let s := match m with
        | some m => s.reply m (err 0x8C03)
        | none => s
      let s := s.modCl c (fun k => { k with reset := k.reset.map (fun r => { r with waiters := [] }) })
      let keep := s.clusters[c].reset
      let s := s.outOfService
      s.modCl c (fun k => { k with reset := keep })
    else s

end Sys2Proof.Machine
end

