-- ==== Sys2Proof/Machine/EngOps.lean ====
section
/-! DEFINITION. Engine operations of a share: their operand ranges and order (R112, R151, R192), and what the completion of a
layer, a stripe operation or an attention operation leaves (R78, R104, R137, R145 to R149, R167 to R183). -/

namespace Sys2Proof.Machine

/-- A range of a share's memories: cluster or local memory, first byte, length. -/
structure Rng where
  clus : Bool
  lo : Nat
  len : Nat
deriving DecidableEq, Repr

/-- Two ranges share a byte. -/
def Rng.meets (a b : Rng) : Bool := a.clus == b.clus && overlap a.lo a.len b.lo b.len

/-- What an operation reads and writes. -/
structure Ranges where
  reads : List Rng
  writes : List Rng
deriving DecidableEq, Repr

/-- A later operation waits for an earlier one (R112): it writes a byte of the earlier one's ranges, or reads or writes a
byte of its output range. -/
def Ranges.blocks (first later : Ranges) : Bool :=
  later.writes.any (fun w => (first.reads ++ first.writes).any w.meets) || later.reads.any (fun r => first.writes.any r.meets)

/-- A range at an operand address (R95). -/
def opRng (addr len : Nat) : Rng := ⟨bit addr 31, bits addr 0 24, len⟩

/-- The ranges of a layer (R97, R112). -/
def LayerDesc.ranges (d : LayerDesc) : Ranges :=
  let nt := (d.n + 127) / 128
  let aux := if d.outliers > 0 then outlierRowOff d (d.outliers - 1) + 2 * d.n else 4 * d.n
  { reads := [opRng d.act ((d.m - 1) * d.actStride + 2 * d.k), opRng d.weight (nt * ((if d.int4 then 64 else 128) * d.k)),
      opRng d.weft (nt * (d.k / d.g) * 512)] ++ (if d.outliers > 0 || d.bias then [opRng d.aux aux] else []),
    writes := [opRng d.out ((d.m - 1) * d.outStride + 2 * d.n)] }

/-- A range at a stripe address (R142); the line buffer is no range of another engine (R151). -/
def stripeRng (addr len : Nat) : List Rng :=
  match bits addr 30 2 with
  | 0 => [⟨false, bits addr 0 24, len⟩]
  | 1 => [⟨true, bits addr 0 24, len⟩]
  | _ => []

/-- The ranges of a stripe operation (R142, R151) that reads `inR` (first row from in_addr, rows) of `wIn` columns of a buffer
and computes n rows of w columns, with partial rows `pst` bytes apart. -/
def WinDesc.ranges (d : WinDesc) (inR : Int × Nat) (wIn n w pst : Nat) : Ranges :=
  if n = 0 then ⟨[], []⟩ else
  let part := stripeRng d.part ((n - 1) * pst + 4 * w * d.c)
  let src : List Rng :=
    if d.inRows ≠ 0 || inR.2 = 0 then []
    else (stripeRng d.inAddr ((inR.2 - 1) * d.inStride + 2 * wIn * d.c)).map
      (fun r => { r with lo := ((r.lo : Int) + inR.1 * d.inStride).toNat })
  let out := if d.op = 0x11 then (n * w - 1) * d.outStride + 2 * d.kOut else (n - 1) * d.outStride + 2 * w * d.c
  { reads := src ++
      (if d.op = 0x12 then
        stripeRng d.weight ((d.kh * d.kw * d.c + 1) / (if bit d.fmt 2 then 2 else 1)) ++ (if d.accIn then part else []) ++
          (if d.accOut then [] else stripeRng d.scale (2 * d.c) ++ (if bit d.fmt 3 then stripeRng d.bias (4 * d.c) else []))
      else []),
    writes := (if d.op = 0x12 && d.accOut then part else if d.outRows = 0 then stripeRng d.outAddr out else []) }

/-- The ranges of an attention operation in a set (R190, R192). -/
def AttnDesc.ranges (a : AttnDesc) (st : SetDesc) : Ranges :=
  let nh := a.kvhN * (a.hq / st.hkv)
  let blk (addr stride b : Nat) : Rng := opRng addr ((a.seqN - 1) * stride + b)
  let row := a.r * nh * st.d
  let stats := opRng a.stats (a.seqN * a.r * a.hq * 16)
  match a.op with
  | 0x30 => { reads := [blk a.q a.qStride (a.r * a.kvhN * 4 * st.d)], writes := [] }
  | 0x31 =>
    { reads := [blk a.q a.qStride (2 * row)],
      writes := blk a.out a.outStride (2 * row) :: (if bit a.fmt 3 then [stats] else []) }
  | _ =>
    { reads := [blk a.q a.qStride (2 * row), blk a.dO a.dOStride (2 * row), blk a.o a.oStride (2 * row), stats],
      writes := [blk a.out a.outStride (4 * row), stats] }

/-- The bytes at an operand address of share index i of cluster c. -/
def State.shareBytes (s : State) (c i : Fin 4) (addr n : Nat) : List Byte :=
  opBytes s.clusters[c].lmem[i] s.clusters[c].mem addr n

/-- The stack header of an operation. -/
def State.stackOf (s : State) (c i : Fin 4) (hdr : Nat) : StackHdr := StackHdr.ofBytes (s.shareBytes c i hdr 64)

/-! ### Stacks -/

/-- The band a share computes (R119). -/
def bandOf (c i : Fin 4) : Nat := 4 * c.val + i.val

/-- The receiver whose row-groups a run takes (R19). -/
def State.runRx (s : State) (r : Run) : Option (Fin 2) :=
  let t := s.sched.src[r.entry.source]
  if t.kind = 1 ∧ s.key (.tick r.entry.source .count) ≠ 0 then some (Fin.ofNat 2 t.bind) else none

/-- Width of a receiver's plane in columns (R296). -/
def RxCfg.plane (x : RxCfg) : Nat := if x.layout = 1 then x.width / 2 else x.width

/-- The band width B of a receiver (R118). -/
def RxCfg.bandW (x : RxCfg) : Nat := if x.band = 0 then 8 * ((x.plane + 127) / 128) else x.band

/-- Band width at the input of a stack of width w in a chain of band width b: the stack before it gives each band its owned
columns, so it is b over the stride product of the stacks before, the least divisor of b that leaves band 15 a column (R118,
R125, R127; log entry 41). -/
def laterBand (b w : Nat) : Nat :=
  match ((List.range b).map (· + 1)).find? (fun q => decide (b % q = 0 ∧ 15 * (b / q) < w)) with
  | some q => b / q
  | none => b

/-- Band width at a stack's input: B for a stack that reads the band slots, that of `laterBand` for a later stack. -/
def State.stackBand (s : State) (r : Run) (h : StackHdr) : Nat :=
  match s.runRx r with
  | some n =>
    let x := s.img.rx[n].cfg
    if h.slots || x.plane = 0 then x.bandW else laterBand x.bandW h.inWidth
  | none => 8 * ((h.inWidth + 127) / 128)

/-- Bytes of a band slot's row, and of the slot, with g rows (R297). -/
def RxCfg.rowStride (x : RxCfg) : Nat :=
  ((x.selvL + x.bandW + x.selvR) * (if x.layout = 1 then 4 else 1) * 2 + 63) / 64 * 64

/-- Cluster memory offset of slot k of share index i's band (R297). -/
def RxCfg.slotOff (x : RxCfg) (i k g : Nat) : Nat := x.slotAddr + (i * x.slots + k) * (g * x.rowStride)

/-- The stack a share is running at an operation: begun at its first operation (R137, R138, R155). -/
def State.stackRun (s : State) (r : Run) (h : Share) (hdr n : Nat) (first : Bool) : StackRun :=
  let st := s.clusters[r.entry.cluster].stripe[h.idx]
  let fresh : StackRun :=
    let (fs, takes) := progFrames ((assoc st.prog hdr).getD []) n r.info
    ⟨hdr, r.rid, fs, takes, [], []⟩
  match st.cur.find? (fun x => x.hdr = hdr && x.rid = r.rid) with
  | some x => if first then fresh else x
  | none => fresh

/-- The rows group k owes in the frames of a run (R137): (frame index, row) in order. -/
def StackRun.owed (x : StackRun) (gs : List WGroup) (k : Nat) : List (Nat × Nat) :=
  x.states.zipIdx.flatMap (fun (p : FrameProg × Nat) =>
    let rows := (progRows gs k p.1).1
    (List.range rows.2).map (fun j => (p.2, rows.1 + j)))

/-- The progress once group k has computed the rows it owes. -/
def StackRun.computed (x : StackRun) (gs : List WGroup) (k : Nat) : StackRun :=
  { x with states := x.states.map (fun f => (progRows gs k f).2), rowsOf := assocSet x.rowsOf k (x.owed gs k) }

/-- The progress after an INGEST of the run's rows. -/
def StackRun.took (x : StackRun) (t : TickInfo) : StackRun :=
  if !x.takes || decide (t.rows = 0) then x
  else
    { x with
      states := x.states.zipIdx.map (fun (p : FrameProg × Nat) =>
        if p.2 + 1 = x.states.length then
          { p.1 with
            top := modAt (fun o => some (max (o.getD 0) (t.row0 + t.rows - 1))) p.1.top 0,
            first := modAt (fun o => some (o.getD t.row0)) p.1.first 0 }
        else p.1) }

/-- The progress at the end of a stack: the frame's last rows make its height known (R155). -/
def StackRun.close (x : StackRun) (t : TickInfo) : StackRun :=
  if !x.takes || !t.last || decide (t.rows = 0) then x
  else
    { x with
      states := x.states.zipIdx.map (fun (p : FrameProg × Nat) =>
        if p.2 + 1 = x.states.length then { p.1 with height := some (t.row0 + t.rows), ended := true } else p.1) }

/-- The progress once operation j of the stack is done: an INGEST takes the run's rows, and the last pass of a group makes its
rows computed, so that every pass of it computes the same rows (R137, R647). -/
def StackRun.after (x : StackRun) (ops : List StackOp) (gs : List WGroup) (t : TickInfo) (j : Nat) : StackRun :=
  let x := match winOf ops j with
    | some d =>
      if d.op = 0x10 then x.took t
      else
        match gs.zipIdx.find? (fun (p : WGroup × Nat) => decide (p.1.ops.getLast? = some j)) with
        | some (_, k) => x.computed gs k
        | none => x
    | none => x
  if j + 1 = ops.length then x.close t else x

/-- Keep a stack run in the share's stripe state. -/
def StripeSt.keep (st : StripeSt) (x : StackRun) : StripeSt :=
  { st with
    cur := x :: st.cur.filter (fun y => !(y.hdr = x.hdr && y.rid = x.rid)),
    prog := if x.states.isEmpty then st.prog else assocSet st.prog x.hdr x.states }

/-- What a stripe operation is about to do: its window, its stack's operations and groups, its own group, the stack run before
it, the columns it computes and those its input stores, the stride of a partial row, the first input row of the run, where an
INGEST reads, and its rows as (frame index, row). -/
structure StripePlan where
  d : WinDesc
  ops : List StackOp
  gs : List WGroup
  k : Option Nat
  x : StackRun
  cols : Nat × Nat
  st : Nat × Nat
  pst : Nat
  base : Nat
  src : Bool × Nat
  rows : List (Nat × Nat)

/-- Input height of group k in a frame of a stack run, as far as known. -/
def StripePlan.hin (p : StripePlan) (k f : Nat) : Option Nat :=
  (p.x.states[f]?).bind (fun f => ((progHeights f p.gs 0 (if f.ended then f.height else none)).getD k (none, none)).1)

/-- The plan of a stripe operation, when operations from `from_` on of its stack have not been done yet. -/
def State.stripePlan (s : State) (r : Run) (h : Share) (o : EngOp) (from_ : Nat) : StripePlan :=
  let c := r.entry.cluster
  let i := h.idx
  let hdr := o.hdr.getD o.addr
  let sh := s.stackOf c i hdr
  let ops := stackOps (fun off n => s.shareBytes c i (hdr + off) n) sh.count 64
  let gs := groupsOf ops
  let d := WinDesc.ofBytes (s.shareBytes c i o.addr 64)
  let t := r.info
  let first := !(ops.zipIdx.any (fun (p : StackOp × Nat) => decide (p.2 < from_) && p.1.win.isSome))
  let x := (List.range (o.index - from_)).foldl (fun (x : StackRun) j => x.after ops gs t (from_ + j))
    (s.stackRun r h hdr gs.length first)
  let b := bandOf c i
  let bw := s.stackBand r sh
  match gs.zipIdx.find? (fun (p : WGroup × Nat) => o.index ∈ p.1.ops) with
  | none =>
    let st := storedCols b bw 1 d.inWidth d.leadL d.leadR
    let own := (ownedCols b bw 1 d.inWidth).1
    let (clus, base, margin) : Bool × Nat × Nat :=
      match sh.slots, s.runRx r with
      | true, some n =>
        let rx := s.img.rx[n].cfg
        (true, rx.slotOff i.val (t.row0 / sh.g % rx.slots) sh.g, rx.selvL)
      | _, _ => (bits d.inAddr 30 2 = 1, bits d.inAddr 0 24, sh.marginL)
    { d := d, ops := ops, gs := gs, k := none, x := x, cols := st, st := st, pst := 0, base := t.row0,
      src := (clus, base + (st.1 + margin - own) * d.c * 2),
      rows := (List.range (if x.takes && d.op = 0x10 then t.rows else 0)).map (fun j => (0, t.row0 + j)) }
  | some (g, k) =>
    let mid := groupOut ops gs k 1 bw
    { d := d, ops := ops, gs := gs, k := some k, x := x, cols := groupOut ops gs k b bw,
      st := storedCols b bw g.px d.inWidth d.leadL d.leadR, pst := ((mid.2 - mid.1) * d.c * 4 + 63) / 64 * 64,
      base := if k = 0 then t.row0 else ((((assoc x.rowsOf (k - 1)).getD []).head?).map (·.2)).getD 0, src := (false, 0),
      rows := x.owed gs k }

/-- The ranges of a planned stripe operation (R151): exactly the rows it computes and the columns of its band. -/
def StripePlan.ranges (p : StripePlan) : Ranges :=
  let n := p.rows.length
  match p.k with
  | none =>
    let w := p.st.2 - p.st.1
    { p.d.ranges (0, 0) w n w 0 with reads := if n = 0 then [] else [⟨p.src.1, p.src.2, (n - 1) * p.d.inStride + 2 * w * p.d.c⟩] }
  | some k =>
    let need := p.rows.flatMap (fun q => (List.range p.d.kh).filterMap (fun ty => planeRow p.d (p.hin k q.1) (tapRow p.d q.2 ty)))
    let lo := need.foldl min (need.headD 0)
    let hi := need.foldl max 0
    p.d.ranges ((lo : Int) - p.base, if need.isEmpty then 0 else hi + 1 - lo) (p.st.2 - p.st.1) n (p.cols.2 - p.cols.1) p.pst

/-! ### Order -/

/-- The first operation of an operation's stack that is not done yet. -/
def Share.stackFrom (h : Share) (o : EngOp) : Nat :=
  h.ops.foldl (fun m p => if p.hdr = o.hdr ∧ p.seq - p.index = o.seq - o.index then min m p.index else m) o.index

/-- The operand ranges of an issued operation of a run's share. -/
def State.opRanges (s : State) (r : Run) (h : Share) (o : EngOp) : Ranges :=
  let c := r.entry.cluster
  match o.kind with
  | .matrix => (LayerDesc.ofBytes (s.shareBytes c h.idx o.addr 128)).ranges
  | .stripe => (s.stripePlan r h o (h.stackFrom o)).ranges
  | .attn =>
    let a := AttnDesc.ofBytes (s.shareBytes c h.idx o.addr 128)
    a.ranges (SetDesc.ofBytes (s.shareBytes c h.idx a.set 64))

/-- An operation waits for an earlier one of its share: of its own engine, an APPEND, or one whose ranges block it (R112,
R151, R192). -/
def State.opBlocked (s : State) (r : Run) (h : Share) (o : EngOp) : Bool :=
  h.ops.any (fun p => decide (p.seq < o.seq) &&
    (decide (p.kind = o.kind) || p.op = 0x30 || (s.opRanges r h p).blocks (s.opRanges r h o)))

/-- A range of local memory is blocked by operations issued and not completed (R225, R233): their issue numbers. -/
def State.localBlockers (s : State) (r : Run) (h : Share) (x : Ranges) : List Nat :=
  (h.ops.filter (fun p => (s.opRanges r h p).blocks x)).map (·.seq)

/-- The run and share on a core. -/
def State.shareOn (s : State) (co : CoreId) : Option (Run × Share) :=
  match s.clusters[co.c].cores[co.k].cur with
  | none => none
  | some (rid, i) => (s.run? rid).bind (fun r => (r.shares.find? (fun h => h.idx = i)).map (fun h => (r, h)))

/-- The engine status word of an engine (R568): the operation it holds, or the last one. -/
def State.engineWord (s : State) (r : Run) (h : Share) (k : EngKind) (old : Nat) : Nat :=
  match h.ops.find? (fun o => o.kind = k) with
  | some o => 2 ^ 31 + (if s.opBlocked r h o then 2 ^ 30 else 0) + o.op * 65536 + min o.index 65535
  | none => old % 2 ^ 24

/-- Bring the engine status words of the share on a core up to date. -/
def State.syncWords (s : State) (co : CoreId) : State :=
  match s.shareOn co with
  | none => s
  | some (r, _) =>
    s.modShare co (fun h =>
      { h with
        words := (s.engineWord r h .matrix h.words.1, s.engineWord r h .stripe h.words.2.1,
          s.engineWord r h .attn h.words.2.2) })

/-- The oldest operation of an engine of the share on a core, when it can run and its descriptor has one of the ops given. -/
def State.readyOp (s : State) (co : CoreId) (k : EngKind) (ops : List Nat) : Option (Run × Share × EngOp) :=
  match s.shareOn co with
  | none => none
  | some (r, h) =>
    match h.ops.find? (fun o => o.kind = k) with
    | some o =>
      if h.st ≠ .stopped && decide (o.op ∈ ops) && !s.opBlocked r h o && s.clusterUp co.c then some (r, h, o) else none
    | none => none

/-- The oldest operation of an engine completes: it leaves, and the run gathers its flags (R65). With a layer goes the parity
error met in a pass of it (R117). -/
def State.opDone (s : State) (co : CoreId) (r : Run) (o : EngOp) (flags : W16) : State :=
  let s := s.modShare co (fun h =>
    { h with ops := h.ops.filter (fun x => x.seq ≠ o.seq), parity := if o.kind = .matrix then none else h.parity })
  let s := s.modRun r.rid (fun r => { r with flags := r.flags ||| flags })
  s.syncWords co

/-! ### Layers and clip slots -/

/-- A clip slot of a cargo on a cluster. -/
def State.slot? (s : State) (c : Fin 4) (cargo slot : Nat) : Option ClipSlot :=
  s.clusters[c].slots.find? (fun t => t.cargo = cargo && t.slot = slot)

/-- The state with one clip slot changed. -/
def State.modSlot (s : State) (c : Fin 4) (cargo slot : Nat) (f : ClipSlot → ClipSlot) : State :=
  s.modCl c (fun k => { k with slots := k.slots.map (fun t => if t.cargo = cargo ∧ t.slot = slot then f t else t) })

/-- A 48-bit count that saturates (R79). -/
def sat48 (n : Nat) : Nat := min n (2 ^ 48 - 1)

/-- The step that a layer of a run makes in its slot, while it is in progress (R78). -/
def ClipSlot.stepOf (t : ClipSlot) (rid addr : Nat) : Option ClipStep :=
  t.live.find? (fun x => x.rid = rid && x.addr = addr && !x.ended)

/-- The ceiling that a layer of a run meets, and whether it is a fallback ceiling: that of its step, which never changes within
it; of a new step the one in force (R81, R202). -/
def ClipSlot.ceilingOf (t : ClipSlot) (rid addr : Nat) : W32 × Bool :=
  ((t.stepOf rid addr).map (fun x => (x.ceiling, x.fb))).getD (t.ceiling, t.fbNow)

/-- A layer may not begin a step of an unlinked slot while one waits for its evaluation (R80, R81). -/
def ClipSlot.holds (t : ClipSlot) (rid addr : Nat) : Bool :=
  !t.linked && t.live.any (·.ended) && (t.stepOf rid addr).isNone

/-- A layer's counts join the step it makes of its slot (R78, R79, R202: not in runs of class ADAPT). -/
def State.clipAdd (s : State) (r : Run) (addr slot : Nat) (res : EngRes) : State :=
  if r.entry.cls = 3 then s else
  s.modSlot r.entry.cluster r.entry.cargo slot (fun t =>
    let x : ClipStep := (t.stepOf r.rid addr).getD
      { rid := r.rid, addr := addr, source := r.entry.source, count := r.count, ceiling := t.ceiling, fb := t.fbNow, clipped := 0,
        total := 0, stepMax := 0, ended := false }
    let y : ClipStep :=
      { x with
        clipped := sat48 (x.clipped + res.clipped), total := sat48 (x.total + res.total),
        stepMax := BitVec.ofNat 32 (max32 x.stepMax.toNat res.mag) }
    { t with live := if (t.stepOf r.rid addr).isSome then t.live.map (fun z => if z = x then y else z) else t.live ++ [y] })

/-- Which layer a watcher follows: the cluster memory offset of its descriptor (R610). -/
def State.watched (s : State) (w : Fin 8) : Option (Fin 4 × Nat × Nat) :=
  let v := s.trc.lw[w].toNat
  if !bit v 31 then none
  else (s.cargo? (bits v 16 8)).bind (fun g => (g.layers[bits v 0 16]?).map (fun o => (Fin.ofNat 4 (bits v 24 2), g.handle, o)))

/-- Watchers gather the flags of a layer of a step (R610); bit 16 tells that the layer was executed. -/
def State.watchFlags (s : State) (r : Run) (addr : Nat) (flags : W16) : State :=
  if r.entry.cls = 3 then s else
  { s with
    trc := { s.trc with
      lwFlags := Vector.ofFn (fun w =>
        if s.watched w = some (r.entry.cluster, r.entry.cargo, bits addr 0 24) then s.trc.lwFlags[w] ||| 65536 ||| flags.toNat
        else s.trc.lwFlags[w]) } }

/-- A matrix layer of the share on a core runs to its end (R104, R109), once the step it begins may begin (R80): its output rows,
the counts of its clip slot, the flags, with clip_fb where its own slot has a fallback ceiling in force (R65; log entry 160), the MAC counters (R609), and what the engine's own stores hold after it (R91, R92). -/
def State.runLayer (s : State) (co : CoreId) (r : Run) (h : Share) (o : EngOp) : State :=
  let c := co.c
  let d := LayerDesc.ofBytes (s.shareBytes c h.idx o.addr 128)
  let slot := s.slot? c r.entry.cargo d.slot
  if r.entry.cls ≠ 3 && slot.any (fun t => t.holds r.rid o.addr) then s else
  let (cw, fb) := (slot.map (fun t => t.ceilingOf r.rid o.addr)).getD (0x7F800000, false)
  let ceil := cw.toNat
  let res := layerRun s.clusters[c].lmem[h.idx] s.clusters[c].mem ceil d
  let fl := res.flags.word ||| (if fb then 0x40 else 0)
  let eng := layerStores s.clusters[c].lmem[h.idx] s.clusters[c].mem ceil d s.clusters[c].cores[co.k].eng
  let s := s.modLocal c h.idx (fun _ => res.loc)
  let s := s.modCl c (fun x => { x with cores := vmod x.cores co.k (fun y => { y with eng := eng }) })
  let s := s.clipAdd r o.addr d.slot res
  let s := s.watchFlags r o.addr res.flags.word
  let s := s.count (64 * c.val + b2n d.a16) (d.m * d.n * d.k)
  s.opDone co r o fl

/-- What a planned stripe operation of share h computes (R145 to R149): the memories and the ring state it leaves, its flags, the rows
repaired so far in the run. -/
def State.stripeRes (s : State) (c : Fin 4) (r : Run) (h : Share) (p : StripePlan) : StripeRes :=
  let cl := s.clusters[c]
  let i := h.idx
  let res0 : StripeRes := ⟨cl.lmem[i], cl.mem, cl.stripe[i], NFlags.none, p.x.fixed⟩
  let w := p.st.2 - p.st.1
  match p.k with
  | none => ingestRun res0 p.d p.src.1 p.src.2 w r.info.frame r.info.row0 p.rows.length
  | some k =>
    p.rows.zipIdx.foldl
      (fun (a : StripeRes) (q : (Nat × Nat) × Nat) =>
        let frame := ((p.x.states[q.1.1]?).map (·.frame)).getD 0
        windowRow p.d k frame (p.hin k q.1.1) p.cols p.st.1 w p.pst p.base a q.2 q.1.2) res0

/-- A stripe operation of the share on a core runs to its end (R145 to R149, R151): what it writes, its flags, and rows
repaired, which the frame's metadata count at once (R139). -/
def State.runStripe (s : State) (co : CoreId) (r : Run) (h : Share) (o : EngOp) : State :=
  let c := co.c
  let i := h.idx
  let p := s.stripePlan r h o o.index
  let res := s.stripeRes c r h p
  let fixed := res.fixed.length - p.x.fixed.length
  let x := { p.x.after p.ops p.gs r.info o.index with fixed := res.fixed }
  let s := s.modCl c (fun k =>
    { k with mem := res.clus, lmem := vset k.lmem i res.loc, stripe := vset k.stripe i (res.st.keep x) })
  let s := if fixed = 0 then s
    else
      let s := s.modRun r.rid (fun r => { r with repaired := r.repaired + fixed })
      s.modOvr r.entry.source r.count (fun o => { o with repair := o.repair + fixed })
  (s.count (64 * c.val + 21) fixed).opDone co r o res.fl.word

/-! ### Attention -/

/-- The set index of an attention event: the place of the set descriptor in its cargo's table of them, a free value where the
table has none like it (log entry 42). -/
def State.setIndex (s : State) (r : Run) (d : List Byte) : Nat × State :=
  match (s.cargo? r.entry.cargo).bind (fun g => (List.range g.setCount).find? (fun k =>
      s.dram.readBytes (g.base + g.setsOff + 64 * k) 64 = d)) with
  | some k => (k, s)
  | none => s.draw

/-- The memories an attention operation of share index i of cluster c reaches (R251, R255). -/
def State.engMem (s : State) (c i : Fin 4) : EngMem :=
  ⟨c, s.dram, s.clusters[c].mem, s.clusters[c].lmem[i], s.poison, s.parts[c].regions.map (fun r => (r.base, r.len))⟩

/-- The DRAM of a set, and of a descriptor's gradients, as ranges. -/
def AttnDesc.dram (a : AttnDesc) (st : SetDesc) : List (Nat × Nat) :=
  (st.table, st.tablesLen) :: (st.pool, st.frames * (64 * st.d * st.hkv)) ::
    (if a.op = 0x32 then [(a.gradPool, st.frames * (128 * st.d * st.hkv))] else [])

/-- An attention operation of the share on a core runs to its end (R167 to R183, R193): memory, flags, events. One that may meet a
row range being copied waits (R278; log entry 174), and so does one of a class below TICK whose page reads exceed its context's
budget in the period, until the periods that follow have let them through (R265). -/
def State.runAttn (s : State) (co : CoreId) (r : Run) (h : Share) (o : EngOp) : State :=
  let c := co.c
  let a0 := AttnDesc.ofBytes (s.shareBytes c h.idx o.addr 128)
  let a := { a0 with seqOff := o.seqOff }
  let d := s.shareBytes c h.idx a.set 64
  let st := SetDesc.ofBytes d
  if (a.dram st).any (fun x => s.copying x.1 x.2) then s else
  let m := s.engMem c h.idx
  let (set, s1) := s.setIndex r d
  let b := s.clusters[c].kvB
  let res := match o.op with
    | 0x30 => appendRun m a st set
    | 0x31 => attendRun m a st set b
    | _ => attendBwdRun m a st set b
  let (s2, left) := match o.owed with
    | some n => (s1, n)
    | none => if r.entry.cls = 0 then (s1, 0) else s1.charge r.ctx c (64 * st.d * res.read.length)
  if left ≠ 0 then
    if o.owed.isSome then s
    else s2.modShare co (fun h =>
      { h with ops := h.ops.map (fun (x : EngOp) => if x.seq = o.seq then { x with owed := some left } else x) })
  else
  let s := { s2 with dram := res.mem.dram, poison := res.mem.poison }
  let s := s.modCl c (fun k => { k with mem := res.mem.clus, lmem := vset k.lmem h.idx res.mem.loc })
  let s := res.events.foldl (fun (s : State) (e : Nat × List Byte) => s.event e.1 r.ctx c.val false e.2) s
  let s := { s with
    jobs := s.jobs.map (fun (j : Job) =>
      if j.entry = r.entry.id ∧ j.phase = 2 then { j with stale := j.stale + BitVec.ofNat 32 res.stale } else j) }
  s.opDone co r o res.flags.word

/-- The attention operations that wait for a budget period go on (R265), oldest run first. -/
def State.payOps (s : State) : State :=
  s.sched.runs.foldl (fun (s : State) (r : Run) =>
    r.shares.foldl (fun (s : State) (h : Share) =>
      h.ops.foldl (fun (s : State) (o : EngOp) =>
        match o.owed with
        | none => s
        | some n =>
          let (s, left) := s.charge r.ctx r.entry.cluster n
          s.modRun r.rid (fun r =>
            { r with
              shares := r.shares.map (fun (x : Share) =>
                if x.idx = h.idx then
                  { x with ops := x.ops.map (fun (y : EngOp) => if y.seq = o.seq then { y with owed := some left } else y) }
                else x) })) s) s) s

/-! ### Issue (R217) -/

/-- The engine of an op. -/
def engineOf (op : Nat) : EngKind := if op = 0x01 then .matrix else if 0x30 ≤ op then .attn else .stripe

/-- The operations an EXEC issues: a layer, the operations of a stack, an attention operation. -/
def State.issued (s : State) (c : Fin 4) (h : Share) (addr : Nat) : List EngOp :=
  let i := h.idx
  let op := field (s.shareBytes c i addr 1) 0 1
  if op = 0x20 then
    let ops := stackOps (fun off n => s.shareBytes c i (addr + off) n) (s.stackOf c i addr).count 64
    ops.zipIdx.map (fun (p : StackOp × Nat) =>
      let o := (p.1.win.map (·.op)).getD 1
      ⟨h.opSeq + p.2, engineOf o, o, addr + p.1.off, some addr, p.2, 0, none⟩)
  else
    let a := AttnDesc.ofBytes (s.shareBytes c i addr 128)
    let off := if decide (0x30 ≤ op) && bit a.fmt 5 then leVal (s.shareBytes c i a.seqOff 4) else 0
    [⟨h.opSeq, engineOf op, op, addr, none, h.execs, off, none⟩]

end Sys2Proof.Machine
end

