-- ==== Sys2Proof/Machine/BargeOps.lean ====
section
/-! DEFINITION. Barges: reading and checking a descriptor, issue, the block of bytes moved, budgets, start, completion
(R229 to R237, R253, R265, R444, R488, R493). -/

namespace Sys2Proof.Machine

/-- Whether a lock reference is one of R27: not valid, or its reserved bits clear and its lock, device and count in range. -/
def refLegal (r : W32) : Bool :=
  !refValid r ||
    (decide (bits r.toNat 0 3 = 0) && decide (1 ≤ refCount r) && (refScope r ≠ 2 || decide (refLock r < 256)) &&
      (refScope r ≠ 3 || decide (refDevice r < 48)))

/-- Whether a reference may be waited on (R28). -/
def waitLegal (r : W32) : Bool := refLegal r && (!refValid r || refScope r = 0 || refScope r = 2)

/-- The fields of a barge descriptor (R229). -/
def BDesc.ofBytes (l : List Byte) : BDesc :=
  { op := field l 0 1, ctl := field l 1 1, timeout := field l 2 2, xBytes := field l 4 4, yCount := field l 8 2,
    zCount := field l 10 2, srcY := sgn 32 (field l 12 4), srcZ := sgn 32 (field l 16 4), dstY := sgn 32 (field l 20 4),
    dstZ := sgn 32 (field l 24 4), wait := BitVec.ofNat 32 (field l 28 4), src := bits (field l 32 8) 0 48,
    dst := bits (field l 40 8) 0 48, raise := BitVec.ofNat 32 (field l 48 4), fill := BitVec.ofNat 32 (field l 52 4),
    tag := BitVec.ofNat 32 (field l 56 4), remote := bit (field l 40 8) 63, dev := bits (field l 40 8) 48 6 }

/-- The class a descriptor asks for. -/
def BDesc.cls (d : BDesc) : Nat := bits d.ctl 0 2

/-- The offset of the first field that breaks R229, whatever the addresses name. -/
def bargeFormat (l : List Byte) : Option Nat :=
  let d := BDesc.ofBytes l
  let odd (v : Int) : Bool := decide (v % 2 ≠ 0)
  if d.op ≠ 0x40 ∧ d.op ≠ 0x41 then some 0
  else if bits d.ctl 3 5 ≠ 0 then some 1
  else if refValid d.wait ∧ d.timeout = 0 then some 2
  else if d.xBytes < 2 ∨ 16777216 < d.xBytes ∨ d.xBytes % 2 = 1 then some 4
  else if d.yCount = 0 then some 8
  else if d.zCount = 0 then some 10
  else if odd d.srcY then some 12
  else if odd d.srcZ then some 16
  else if odd d.dstY then some 20
  else if odd d.dstZ then some 24
  else if !waitLegal d.wait then some 28
  else if d.op = 0x40 ∧ (bits (field l 32 8) 48 16 ≠ 0 ∨ d.src % 2 = 1) then some 32
  else if bits (field l 40 8) 54 9 ≠ 0 ∨ d.dst % 2 = 1 ∨ (d.remote ∧ 48 ≤ d.dev) then some 40
  else if !refLegal d.raise then some 48
  else if d.op = 0x40 ∧ d.fill ≠ 0 then some 52
  else if field l 60 4 ≠ 0 then some 60
  else none

/-- Whether a row lies in one space that a barge may address (R230); `window`: it may use the local window. -/
def rowKind (window : Bool) (n : Nat) (a : Int) : Bool :=
  decide (0 ≤ a) &&
    (match spaceOf a.toNat, spaceOf (a.toNat + n - 1) with
      | .dram _ _, .dram _ _ => true
      | .clus _ _, .clus _ _ => true
      | .loc _, .loc _ => window
      | _, _ => false)

/-- A row of this device that a barge may address (R230, R255): DRAM only within regions. -/
def State.rowLegal (s : State) (window : Bool) (n : Nat) (a : Int) : Bool :=
  rowKind window n a &&
    (match spaceOf a.toNat with
      | .dram _ _ => s.inRegions a.toNat n
      | _ => true)

/-- The partitions a row touches. -/
def rowParts (n : Nat) (a : Int) : List (Fin 4) := (partOf a.toNat).toList ++ (partOf (a.toNat + n - 1)).toList

/-- Whether a destination row touches a protected range (R646). -/
def State.rowProtected (s : State) (n : Nat) (a : Int) : Bool :=
  match spaceOf a.toNat with
  | .clus c off => s.protectedIn c off n
  | _ => false

/-- A DRAM row whose partition's cluster reach is off (R253). -/
def State.rowOff (s : State) (n : Nat) (a : Int) : Bool := (rowParts n a).any (fun p => !s.on (clusterReach p))

/-- The offset of the first field of a descriptor that breaks a rule at issue (R229, R230, R253, R488, R646), with the
descriptor. A remote barge to the device's own index is carried out locally, its raise at the keeper its cluster names
(R488). -/
def State.bargeCheck (s : State) (window : Bool) (l : List Byte) : Option Nat × BDesc :=
  let d0 := BDesc.ofBytes l
  let mine := d0.remote && d0.dev = s.dev.index.toNat
  let d :=
    if mine then
      { d0 with remote := false, raise := if refValid d0.raise then (d0.raise &&& 0x9FFFFFFF) ||| 0x20000000 else d0.raise }
    else d0
  let bad : Option Nat :=
    match bargeFormat l with
    | some f => some f
    | none =>
      if d.op = 0x40 && !d.srcRows.all (s.rowLegal window d.xBytes) then some 32
      else if d.op = 0x40 && d.srcRows.any (s.rowOff d.xBytes) then some 32
      else if d.remote then (if s.dev.index = 0xFF || !d.dstRows.all (rowKind window d.xBytes) then some 40 else none)
      else if !d.dstRows.all (s.rowLegal window d.xBytes) then some 40
      else if d.dstRows.any (s.rowOff d.xBytes) then some 40
      else if d.dstRows.any (s.rowProtected d.xBytes) then some 40
      else none
  (bad, d)

/-- The partitions of a barge's ends. -/
def BDesc.parts (d : BDesc) : List (Fin 4) :=
  (if d.op = 0x40 then d.srcRows.flatMap (rowParts d.xBytes) else []) ++
    (if d.remote then [] else d.dstRows.flatMap (rowParts d.xBytes))

/-! ### Budgets (R265) -/

/-- Bytes of DRAM traffic of a barge in a partition: the lines its rows touch. -/
def BDesc.traffic (d : BDesc) (p : Fin 4) : Nat :=
  let dram (a : Int) : Bool := match spaceOf a.toNat with
    | .dram q _ => q = p
    | _ => false
  64 * ((((if d.op = 0x40 then d.srcRows.filter dram else []) ++ (if d.remote then [] else d.dstRows.filter dram)).map
    (fun a => (linesOf a.toNat d.xBytes).length)).sum)

/-- What a barge still owes after the present period, of the amounts given. -/
def State.pay (s : State) (b : Barge) (owed : List (Fin 4 × Nat)) : State :=
  let (s, left) := owed.foldl
    (fun (a : State × List (Fin 4 × Nat)) o =>
      let (s, n) := a.1.charge b.ctx o.1 o.2
      (s, if n = 0 then a.2 else a.2 ++ [(o.1, n)])) (s, [])
  { s with barges := s.barges.map (fun x => if x.bid = b.bid then { x with owed := left } else x) }

/-! ### Issue -/

/-- A barge turned away at issue for its field f may have met such a stack (R253). -/
def State.offNote (s : State) (d : BDesc) (f : Nat) : State :=
  match (if f = 32 then d.srcRows else if f = 40 then d.dstRows else []).find? (s.rowOff d.xBytes) with
  | some a => s.offAccess a.toNat
  | none => s

/-- A checked descriptor enters a mover's queue, and begins its wait (R232, R239, R242); a prefetch barge that finds the queue
full is held back by the sequencer. Answers its number while it stands. -/
def State.enqueue (s : State) (by_ : BargeBy) (mover : Mover) (c : Fin 4) (ctx cls : Nat) (d : BDesc) (after : List Nat) :
    State × Option Nat :=
  let bid := s.nextBid
  let held := s.moverFull mover
  let b : Barge := ⟨bid, by_, mover, d, ctx, cls, c, after, refValid d.wait, false, held, [], none⟩
  let s := { s with barges := s.barges ++ [b], nextBid := bid + 1 }
  if held then (s, some bid)
  else
    let (s, ok) := s.bargeWait b
    (s, if ok then some bid else none)

/-- Whether an address lies in the local window. -/
def inWindow (a : Nat) : Bool := match spaceOf a with
  | .loc _ => true
  | _ => false

/-- The mover of a share's barge (R231). -/
def BDesc.mover (d : BDesc) (co : CoreId) : Mover :=
  if (d.op = 0x40 && inWindow d.src) || (!d.remote && inWindow d.dst) then .loc co else .dram co.c

/-- The local ranges of a barge, for R233. -/
def BDesc.localRanges (d : BDesc) : Ranges :=
  let row (a : Int) : List Rng := match spaceOf a.toNat with
    | .loc x => [⟨false, x, d.xBytes⟩]
    | _ => []
  { reads := if d.op = 0x40 then d.srcRows.flatMap row else [], writes := if d.remote then [] else d.dstRows.flatMap row }

/-- A share issues the barge of a descriptor; `after`: pc beyond the instruction. A full queue stalls the share. -/
def State.shareBarge (s : State) (co : CoreId) (r : Run) (h : Share) (l : List Byte) (after : Nat) : State :=
  let (bad, d) := s.bargeCheck true l
  let go (s : State) : State := s.modShare co (fun h => { h with pc := after, st := .running })
  match bad with
  | some f => go ((s.offNote d f).bargeRefused r.ctx co.c 0x0303 d.tag (leBytes 1 f))
  | none =>
    if d.parts.any (fun p => s.clusters[p].reset.isSome) then go (s.bargeRefused r.ctx co.c 0x0304 d.tag [])
    else if s.moverFull (d.mover co) then s.modShare co (fun h => { h with st := .stalled })
    else
      let (s, bid) := s.enqueue (.share r.rid h.idx co) (d.mover co) co.c r.ctx (max d.cls r.entry.cls) d
        (s.localBlockers r h d.localRanges)
      go (match bid with
        | some b => s.modShare co (fun h => { h with barges := b :: h.barges })
        | none => s)

/-- The sequencer issues an entry's prefetch list (R227, R228): the barges' numbers, and whether one of them failed. -/
def State.prefetch (s : State) (e : Entry) (alt : Bool) (rid : Option Nat) : State × List Nat × Bool :=
  match s.point? e alt with
  | none => (s, [], false)
  | some p =>
    let ctx := s.ttOwner
    (List.range p.prefetchN).foldl
      (fun (a : State × List Nat × Bool) i =>
        let (s, l, failed) := a
        let bytes := s.clRead e.cluster (p.prefetchAddr + 64 * i) 64
        let (bad, d) := s.bargeCheck false bytes
        let dram (x : Int) : Bool := match spaceOf x.toNat with
          | .dram _ _ => true
          | _ => false
        let own (x : Int) : Bool := match spaceOf x.toNat with
          | .clus c _ => c = e.cluster
          | _ => false
        let bad := match bad with
          | some f => some f
          | none =>
            if d.op ≠ 0x40 then some 0
            else if !d.srcRows.all dram then some 32
            else if d.remote || !d.dstRows.all own then some 40
            else none
        match bad with
        | some f => ((s.offNote d f).bargeRefused ctx e.cluster 0x0303 d.tag (leBytes 1 f), l, true)
        | none =>
          if d.parts.any (fun p => s.clusters[p].reset.isSome) then (s.bargeRefused ctx e.cluster 0x0304 d.tag [], l, true)
          else
            let (s, bid) := s.enqueue (.prefetch e.id rid) (.dram e.cluster) e.cluster ctx e.cls d []
            match bid with
            | some b => (s, l ++ [b], failed)
            | none => (s, l, true))
      (s, [], false)

/-! ### Start and completion -/

/-- A barge of a ring starts after the earlier ones of its ring (R444). -/
def State.ringFirst (s : State) (b : Barge) : Bool :=
  match b.by_ with
  | .ring r _ =>
    !(s.barges.any (fun x => decide (x.bid < b.bid) && !x.started &&
      (match x.by_ with
        | .ring q _ => decide (q = r)
        | _ => false)))
  | _ => true

/-- A barge's rows meet a row range that is being copied (R278): its accesses wait. -/
def State.bargeHeld (s : State) (d : BDesc) : Bool :=
  ((if d.op = 0x40 then d.srcRows else []) ++ (if d.remote then [] else d.dstRows)).any (fun a => s.copying a.toNat d.xBytes)

/-- Whether a barge may start: its wait is satisfied, no access of it is held, and the operations of its share that it follows have completed. -/
def State.bargeReady (s : State) (b : Barge) : Bool :=
  let ops : List Nat := match b.by_ with
    | .share rid i _ =>
      (((s.run? rid).bind (fun r => r.shares.find? (fun h => h.idx = i))).map (fun h => h.ops.map (·.seq))).getD []
    | _ => []
  !b.waiting && !b.started && !b.held && !s.bargeHeld b.desc && s.clusterUp b.cluster && !b.afterOps.any (fun o => decide (o ∈ ops)) && s.ringFirst b

/-- The poisoned lines a barge's source touches. -/
def State.sourceUe (s : State) (d : BDesc) : Bool :=
  d.op = 0x40 && d.srcRows.any (fun a =>
    match spaceOf a.toNat with
    | .dram _ x => !(s.poisoned x d.xBytes).isEmpty
    | _ => false)

/-- The DATA frames of a remote barge (R493): 256-byte pieces of its rows, at the barge's class. -/
def State.sendData (s : State) (b : Barge) : State :=
  let id := s.link.xferId.toNat
  let s := { s with link := { s.link with xferId := s.link.xferId + 1 } }
  let frames := (s.bargeRows b.window b.desc).flatMap (fun r => pieces 256 r.1 r.2)
  let s := frames.zipIdx.foldl
    (fun (s : State) (p : (Nat × List Byte) × Nat) =>
      s.sendFrame 0x01 b.desc.dev false id p.2 (b.cls * 0x2000) (leBytes 8 p.1.1 ++ p.1.2)) s
  { s with barges := s.barges.map (fun x => if x.bid = b.bid then { x with frames := some (id, frames.length) } else x) }

/-- A barge starts (R233): an uncorrectable source line abandons it; a budget may hold its traffic back; a remote barge sends
its DATA frames. -/
def State.startBarge (s : State) (b : Barge) : State :=
  let b : Barge := { b with started := true }
  let s := { s with barges := s.barges.map (fun (x : Barge) => if x.bid = b.bid then b else x) }
  if s.sourceUe b.desc then s.bargeUe b (s.rowUe b.desc)
  else
    let owed := ((List.finRange 4).map (fun p => (p, b.desc.traffic p))).filter (fun (o : Fin 4 × Nat) => decide (o.2 ≠ 0))
    let s := if b.cls = 0 then s else s.pay b owed
    if b.desc.remote then s.sendData b else s

/-- The bytes a barge moves. -/
def BDesc.bytes (d : BDesc) : Nat := d.xBytes * d.yCount * d.zCount

/-- A barge completes (R234, R237, R493): its bytes are written, or its RAISE frame is sent; its raise, its event, and what
issued it hears of it. -/
def State.finishBarge (s : State) (b : Barge) : State :=
  let d := b.desc
  let done (s : State) : State :=
    let s := if bit d.ctl 2 then s.event 0x0301 b.owner b.cluster.val false (w32 d.tag) else s
    (s.count (64 * b.cluster.val + 15) d.bytes).bargeGone b true 0 d.bytes
  if d.remote then
    match b.frames with
    | some (id, n) =>
      done (s.sendFrame 0x02 d.dev true id 0 0 (raisePayload d.raise n d.tag.toNat))
    | none => done s
  else if s.sourceUe d then s.bargeUe b (s.rowUe d)
  else
    let lines := (s.bargeRows b.window d).flatMap (fun r => pieces 64 r.1 r.2)
    let (s, part) := s.writeLines b.window lines
    if part then s.abandonBarge b 0x0303 (w32 d.tag ++ leBytes 1 40)
    else done (s.raiseRef (some b.cluster) d.raise)

/-- The number of a barge. -/
def State.barge? (s : State) (bid : Nat) : Option Barge := s.barges.find? (fun b => b.bid = bid)

end Sys2Proof.Machine
end

