-- ==== Sys2Proof/Machine/SchedOps.lean ====
section
/-! DEFINITION. The sequencers: ticks, runs made ready, started, placed on cores, late, dropped, stopped and completed (R19 to
R52, R195, R204, R208 to R212, R317, R551, R552). -/

namespace Sys2Proof.Machine

/-! ### The status port (R473) -/

/-- Publish a group of eight words at `base` with six data words: the next sequence number in its tail and head. -/
def State.publish (s : State) (base : Nat) (data : List Nat) : State :=
  let m := s.status.map
  let q := (m.le (2 * base) 2 + 1) % 65536
  let m := m.putLe (2 * (base + 7)) 2 q
  let m := data.zipIdx.foldl (fun (m : Mem) (d : Nat × Nat) => m.putLe (2 * (base + 1 + d.2)) 2 d.1) m
  { s with status := { s.status with map := m.putLe (2 * base) 2 q } }

/-- The place of a 32-bit cluster memory address key below 0x400_0000: cluster and offset. -/
def clusterAddr (v : Nat) : Fin 4 × Nat := (Fin.ofNat 4 (v / 0x1000000), v % 0x1000000)

/-- The data words of result group g from its record, with the dev word (R316, R472). -/
def resultWords (g : Fin 3) (dev : Nat) (l : List Byte) : List Nat :=
  let w (i : Nat) : Nat := field l (2 * i) 2
  if g = 2 then [dev, w 0, w 1, w 2, w 3, 0] else [dev, w 0, w 1, w 2, w 3, w 4]

/-- Publish what waits in the result groups whose producing entry runs on source k (R317, R474). -/
def State.publishResults (s : State) (k : Fin 16) : State :=
  (List.finRange 3).foldl
    (fun s g =>
      let e := (s.sched.tt.bind (fun t => t.entries.find? (fun e => e.id = s.key (.resEntry g) && e.source = k)))
      let base := 0x20 + 8 * g.val
      let r := s.img.results[g]
      match e with
      | none => s
      | some _ =>
        let s := { s with img := { s.img with results := vset s.img.results g ⟨none, false⟩ } }
        if r.changed then (s.publish base [0, 0, 0, 0, 0, 0]).setCause 15
        else
          match r.due with
          | some (dev, _) =>
            let (c, o) := clusterAddr (s.key (.resAddr g))
            if s.clusterUp c then (s.publish base (resultWords g (0x8000 + dev) (s.clRead c o 16))).setCause 15 else s
          | none => s) s

/-! ### Runs -/

/-- Runs of an entry of the running timetable. -/
def State.runsOf (s : State) (id : Nat) : List Run := s.sched.runs.filter (fun r => r.entry.id = id && !r.old)

/-- A run is in progress (R33). -/
def Run.current (r : Run) : Bool := r.phase = .waiting || r.phase = .running

/-- The cluster goes down for a mode change: its runs are stopped and nothing starts (R529). -/
def State.quiescing (s : State) (c : Fin 4) : Bool :=
  (s.pwr.change.map (fun m => decide (clusterUnit c ∈ m.down))).getD false

/-- SYSTIME lies beyond a stamp by more than some picoseconds, in a later cycle. -/
def State.beyond (s : State) (stamp ps : Nat) : Bool := decide (stamp * 1000 + ps < s.now * 1000)

/-- Put a run into the sequencer. -/
def State.addRun (s : State) (e : Entry) (count : Nat) (info : TickInfo) (phase : RunPhase) : State × Run :=
  let r : Run :=
    { rid := s.sched.nextRid, entry := e, ctx := s.ttOwner, old := false, count := count, stamp := s.now,
      iv := s.runInterval e, r31 := s.threeCore e.cluster, phase := phase, alt := false, budget := 0, ticks := 0, lastSel := 0,
      passed := 0, cause := none, faulted := false, noRaise := false, waitsLeft := [], pf := [], pfBad := false, start := none,
      cyc4 := 0, since := none, flags := 0, info := info, repaired := 0, stopped := false, full := false,
      degr := false, shares := [] }
  ({ s with sched := { s.sched with runs := s.sched.runs ++ [r], nextRid := s.sched.nextRid + 1 } }, r)

/-- Whether a run of an entry waits for anything before it starts (R28, R228). -/
def State.waitsFor (s : State) (r : Run) : Bool :=
  r.entry.waits.any refValid || ((s.point? r.entry (s.runAlt r)).any (fun p => decide (p.prefetchN ≠ 0)))

/-- A run begins to wait for its locks and its prefetch barges (R28, R227, R228): the prefetch list is the one issued for it,
or is issued now. A wait that its keeper turns away (R242), or that begins after the run's lock-wait timeout (R35), has timed
out at once. -/
def State.beginRun (s : State) (rid : Nat) : State :=
  match s.run? rid with
  | none => s
  | some r =>
    let e := r.entry
    let kept := if r.old then none else (s.entry? e.id).bind (fun x => x.pf)
    let (s, pf, bad) := match kept with
      | some p => (s, p.1, p.2)
      | none => s.prefetch e (s.runAlt r) (some rid)
    let s := if r.old then s else s.modEntry e.id (fun x => { x with pf := none })
    let late := s.waitsFor r && s.beyond r.stamp (e.timeout * 1000000)
    let s := s.modRun rid (fun r => { r with phase := .waiting, pf := pf, pfBad := bad, full := late })
    if late then s
    else
      (e.waits.zipIdx).foldl
        (fun (s : State) (w : W32 × Nat) =>
          if !refValid w.1 then s else
          let (s, res) := s.lockWait (waitKeeper e.cluster w.1) (refLock w.1) (refCount w.1) (r.stamp + e.timeout * 1000)
            (.run rid w.2)
          match res with
          | .released => s
          | .queued => s.modRun rid (fun r => { r with waitsLeft := r.waitsLeft ++ [w.2] })
          | .full => s.modRun rid (fun r => { r with waitsLeft := r.waitsLeft ++ [w.2], full := true })) s

/-- What follows when no run of an entry is in progress any more: the pending run begins, or the next run's prefetch list is
issued (R33, R227). -/
def State.advance (s : State) (e : Entry) (pf : Bool) : State :=
  let l := s.runsOf e.id
  if l.any Run.current then s
  else
    match l.find? (fun r => r.phase = .pending) with
    | some p => s.beginRun p.rid
    | none =>
      if pf && s.sched.running && ((s.entry? e.id).any (fun x => x.pf.isNone)) && s.clusterUp e.cluster then
        let (s, l, bad) := s.prefetch e (s.useAlt e (s.threeCore e.cluster)) none
        s.modEntry e.id (fun x => { x with pf := some (l, bad) })
      else s

/-- What follows when an old run is in progress no more: its entry's old pending run begins, and finishes under the old
timetable (R49). -/
def State.advanceOld (s : State) (e : Entry) : State :=
  let l := s.sched.runs.filter (fun r => r.old && decide (r.entry = e))
  if l.any Run.current then s
  else
    match l.find? (fun r => r.phase = .pending) with
    | some p => s.beginRun p.rid
    | none => s

/-- The entry of a run goes on after it (R33, R49, R227). -/
def State.goOn (s : State) (r : Run) (pf : Bool) : State := if r.old then s.advanceOld r.entry else s.advance r.entry pf

/-- A dropped run's deadline (R39, R122, R227): its raises, its end, the next prefetch. -/
def State.droppedDeadline (s : State) (r : Run) : State :=
  let s := if r.noRaise then s else s.issueRaises r.entry
  (s.runEnd r 1 false).goOn r true

/-- A run is dropped (R39, R44): it waits for its deadline, or ends at once when that has passed. -/
def State.dropRun (s : State) (r : Run) : State :=
  let s := s.withdrawRun r.rid
  let s := s.modOvr r.entry.source r.count (fun o => { o with skipped := true })
  let s := if r.cause.isSome && !r.old then s.skipEntry r.entry.id else s
  let s := s.modRun r.rid (fun r => { r with phase := .dropped, waitsLeft := [], pf := [], full := false })
  let s := if r.passed > 0 then s.droppedDeadline r else s
  if r.current then s.goOn r false else s

/-- An old run or one of the running timetable: whether its entry's later runs can still be affected (R51). -/
def Run.live (r : Run) : Bool := !r.old

/-- How far the layer in progress of the share on a core has come when it stops (R114): its output is written for the pairs of
an M tile and an N tile whose passes are complete. -/
def State.partLayer (s : State) (co : CoreId) (r : Run) (h : Share) (pairs : Nat) : State :=
  match h.ops.find? (fun o => o.kind = .matrix) with
  | none => s
  | some o =>
    if s.opBlocked r h o then s else
    let d := LayerDesc.ofBytes (s.shareBytes co.c h.idx o.addr 128)
    let ceil := ((s.slot? co.c r.entry.cargo d.slot).map (fun t => t.ceiling.toNat)).getD 0x7F800000
    s.modCl co.c (fun k => { k with lmem := vset k.lmem h.idx (layerPart k.lmem[h.idx] k.mem ceil d pairs) })

/-- The layers that a run's shares have in progress stop somewhere: how far each has come is a free value (log entry 162). -/
def State.partLayers (s : State) (r : Run) : State :=
  (List.finRange 4).foldl
    (fun s k =>
      let co : CoreId := ⟨r.entry.cluster, k⟩
      match s.shareOn co with
      | some (q, h) =>
        if q.rid = r.rid then
          let (n, s) := s.draw
          s.partLayer co r h n
        else s
      | none => s) s

/-- A run is stopped for good without its raises (R117), and the entry goes on. -/
def State.abandonRun (s : State) (r : Run) : State := ((s.partLayers r).stopRun r false).goOn r true

/-- A run is stopped under BYPASS (R39, R241): its output is replaced, its raises are issued unless one of its shares was
stopped (R117). -/
def State.bypassRun (s : State) (r : Run) : State :=
  let s := s.withdrawRun r.rid
  let s := if r.old then s else s.skipEntry r.entry.id
  let s := s.stopRun r true
  let s := if r.stopped then s else s.issueRaises r.entry
  s.goOn r true

/-- The next run of an entry is dropped (R39): its pending run, or the next one made ready. -/
def State.dropNextRun (s : State) (e : Entry) : State :=
  match (s.runsOf e.id).find? (fun r => r.phase = .pending) with
  | some p => s.dropRun p
  | none => s.modEntry e.id (fun x => { x with dropNext := true })

/-- A run is in overrun for its first cause (R35, R39, R41, R45, R51): 0 BUDGET, 1 DEADLINE, 2 LOCK_TIMEOUT. -/
def State.overrunRun (s : State) (r : Run) (cause : Nat) : State :=
  let e := r.entry
  let unstarted := cause = 2 && r.phase ≠ .running
  let alt := r.alt || (r.phase ≠ .running && s.runAlt r)
  let pol := e.policyAt alt
  let s := s.noteOverrun e r.ctx r.count (pol + 1) cause alt false
  let s := s.modRun r.rid (fun r => { r with cause := some cause, faulted := r.faulted || pol = 3 })
  match pol with
  | 3 => s.partitionStop e.cluster 0 e.id r.count none
  | 2 =>
    if cause = 0 then s
    else
      match s.run? r.rid with
      | some r => s.bypassRun r
      | none => s
  | 1 =>
    let s := if r.old then s else s.modEntry e.id (fun x => { x with atAlt := true })
    let s := if unstarted then (match s.run? r.rid with
      | some r => s.dropRun r
      | none => s) else s
    s.refresh
  | _ =>
    if unstarted then (match s.run? r.rid with
      | some r => s.dropRun r
      | none => s)
    else if r.old then s
    else s.dropNextRun e

/-- A run completes (R34, R35, R65, R139, R210): a late budget is still an overrun; its repairs, its flags, its raises. -/
def State.completeRun (s : State) (r0 : Run) : State :=
  let r := s.foldCycles r0
  let s := s.modRun r.rid (fun _ => r)
  let s := if r.cause.isNone && decide (r.budget * 4 < r.cyc4) then s.overrunRun r 0 else s
  match s.run? r.rid with
  | none => s
  | some r =>
    let s := s.repairEvent r
    let s := if r.old then s
      else s.modEntry r.entry.id (fun x => { x with numFlags := r.flags, lastSeq := BitVec.ofNat 32 r.count })
    let s := if r.faulted then s else s.issueRaises r.entry
    let s := s.freeCores r.entry.cluster r.rid
    (s.runEnd r 0 false).goOn r true

/-- Runs whose waits timed out at once are in overrun (R35, R242); a run counted already is dropped (R39). -/
def State.settleFull : Nat → State → State
  | 0, s => s
  | n + 1, s =>
    match s.sched.runs.find? (fun r => r.full && r.phase = .waiting) with
    | none => s
    | some r =>
      let s := (s.modRun r.rid (fun r => { r with full := false })).withdrawRun r.rid
      let r := { r with full := false }
      State.settleFull n (if r.cause.isSome then s.dropRun r else s.overrunRun r 2)

/-! ### Deadlines (R34, R36, R42) -/

/-- The run's own deadline has passed. -/
def State.due1 (s : State) (r : Run) : Bool :=
  decide (2 ≤ r.ticks) || (r.ticks = 1 && decide (r.lastSel < s.now)) || s.beyond r.stamp r.iv

/-- The second deadline after it has passed (R42): the second later tick that selects the entry; where no such tick comes, the
run's own stamp plus two run intervals (log entry 155). -/
def State.due2 (s : State) (r : Run) : Bool :=
  decide (3 ≤ r.ticks) || (r.ticks = 2 && decide (r.lastSel < s.now)) || s.beyond r.stamp (2 * r.iv)

/-! ### Cores (R37, R208, R209) -/

/-- A core takes shares: neither fenced nor under test. -/
def Core.usable (k : Core) : Bool := !k.test && !k.fenced

/-- The core of a share index (R209): its own while usable, else the lowest usable one. -/
def Cluster.home (k : Cluster) (i : Fin 4) : Option (Fin 4) :=
  if k.cores[i].usable then some i else (List.finRange 4).find? (fun j => k.cores[j].usable)

/-- A class may start work at the present throttle level (R546). -/
def State.classRuns (s : State) (cls : Nat) : Bool :=
  !(decide (1 ≤ s.pwr.level) && decide (2 ≤ cls)) && !(decide (2 ≤ s.pwr.level) && decide (1 ≤ cls))

/-- The order in which shares are taken (R208, R209): class, order, entry_id, and on a doubled core the share that ran second
last, else the index. -/
def shareKey (first : Option (Fin 4)) (r : Run) (i : Fin 4) : Nat :=
  ((r.entry.cls * 256 + r.entry.order) * 65536 + r.entry.id) * 8 + (if first = some i then 4 else 0) + i.val

/-- The shares that wait for core k of a cluster: suspended on it, or not started and at home there, unless a share of its class
is suspended on the core, which ends first (R209, R213). -/
def State.waitingFor (s : State) (c k : Fin 4) : List (Run × Fin 4 × Bool) :=
  let cl := s.clusters[c]
  (s.sched.runs.filter (fun r => r.entry.cluster = c && r.phase = .running && s.classRuns r.entry.cls)).flatMap (fun r =>
    (r.shares.filterMap (fun h =>
      if (r.rid, h.idx) ∈ cl.cores[k].susp then some (r, h.idx, true)
      else if h.st = .notStarted && h.core.isNone && decide (cl.home h.idx = some k) &&
          !cl.cores[k].susp.any (fun x => (s.run? x.1).any (fun q => decide (q.entry.cls = r.entry.cls))) then
        some (r, h.idx, false)
      else none)))

/-- The share a core takes next. -/
def State.nextShare (s : State) (c k : Fin 4) : Option (Run × Fin 4 × Bool) :=
  let first := s.clusters[c].ranFirst
  (s.waitingFor c k).foldl
    (fun (a : Option (Run × Fin 4 × Bool)) x =>
      match a with
      | none => some x
      | some y => if shareKey first x.1 x.2.1 < shareKey first y.1 y.2.1 then some x else some y) none

/-- Count cycles of the runs of a cluster (R35, R37, R38): a run counts from its first share's start; of a lower class, only
while it holds cores. -/
def State.recount (s : State) (c : Fin 4) : State :=
  { s with
    sched := { s.sched with
      runs := s.sched.runs.map (fun (r : Run) =>
        if r.entry.cluster = c ∧ r.phase = .running then
          let holds := s.clusters[c].cores.toList.any (fun k => decide (k.cur.map (·.1) = some r.rid))
          let want := holds || (r.entry.cls = 0 && r.shares.any (fun h => h.core.isSome))
          let r := s.foldCycles r
          { r with since := if want then some s.now else none }
        else r) } }

/-- Bytes of the rings of a share: of every stack of the entry point it runs (R158). -/
def State.ringBytes (s : State) (c : Fin 4) (p : Point) : Nat :=
  ((s.pointStacks c p).map (fun a => (StackHdr.ofBytes (s.clRead c (bits a 0 24) 64)).ringBytes)).sum

/-- Rings and persistent range of a share move through the spill areas of the stacks of its entry point (R158, R212): the
content of the areas becomes undefined (log entry 44). -/
def State.spill (s : State) (c : Fin 4) (p : Point) : State :=
  (s.pointStacks c p).foldl
    (fun (s : State) (a : Nat) =>
      let h := StackHdr.ofBytes (s.clRead c (bits a 0 24) 64)
      let (k, s) := s.newEpoch
      s.modCl c (fun x => { x with mem := x.mem.junk h.spill h.ringBytes k })) s

/-- The persistent ranges of the entries on a cluster (R212). -/
def State.keepRanges (s : State) (c : Fin 4) : List (Nat × Nat) :=
  let es := ((s.sched.tt.map (·.entries)).getD [] ++ s.sched.runs.map (·.entry)).filter (fun e => e.cluster = c)
  es.flatMap (fun e => ((s.point? e false).toList ++ (s.point? e true).toList).map (fun p => (p.keepLo, p.keepLen)))

/-- A share moves to another core (R212, R552): each 8-byte granule of its persistent ranges with an uncorrectable error moves as
zeros, which the test of the core it left counts. A granule written since it was found has no error (log entry 165). -/
def State.moveKeep (s : State) (c i old : Fin 4) : State :=
  let keep := s.keepRanges c
  let m := s.clusters[c].lmem[i]
  let bad := s.clusters[c].bad[i].filter (fun g => keep.any (fun r => inRange r.1 r.2 (8 * g.1)) && decide (m.le (8 * g.1) 8 = g.2))
  let s := s.modLocal c i (fun m => bad.foldl (fun (m : Mem) g => m.writeBytes (8 * g.1) (zeros 8)) m)
  let s := s.modCl c (fun x => { x with bad := vset x.bad i [] })
  { s with
    health := { s.health with
      tests := s.health.tests.map (fun (t : Test) =>
        if t.unit.core? = some ⟨c, old⟩ ∧ t.st ≠ .pending then { t with zeroed := t.zeroed + bad.length } else t) } }

/-- Insert a range in order of its start. -/
def rangeInsert (x : Nat × Nat) : List (Nat × Nat) → List (Nat × Nat)
  | [] => [x]
  | y :: t => if x.1 ≤ y.1 then x :: y :: t else y :: rangeInsert x t

/-- The gaps between ranges in order, from `lo` to `hi`. -/
def gaps (lo hi : Nat) : List (Nat × Nat) → List (Nat × Nat)
  | [] => if lo < hi then [(lo, hi - lo)] else []
  | r :: t => (if lo < r.1 then [(lo, r.1 - lo)] else []) ++ gaps (max lo (r.1 + r.2)) hi t

/-- At a share's start its local memory keeps the persistent ranges of every entry on the cluster, and the working ranges of
unfinished runs of other classes, which a suspended share may still use (R212, R213). -/
def State.keptRanges (s : State) (r : Run) : List (Nat × Nat) :=
  let c := r.entry.cluster
  let live := s.sched.runs.filter (fun x => x.entry.cluster = c && x.phase = .running && decide (x.entry.cls ≠ r.entry.cls))
  let pts (e : Entry) : List Point := (s.point? e false).toList ++ (s.point? e true).toList
  let all := s.keepRanges c ++ live.flatMap (fun x => (pts x.entry).map (fun p => (p.workLo, p.workLen)))
  (all.filter (fun x => decide (x.2 ≠ 0))).foldl (fun l x => rangeInsert x l) []

/-- The rest of it is undefined (R212). -/
def State.freshLocal (s : State) (r : Run) (i : Fin 4) : State :=
  let free := gaps 0 0x400000 (s.keptRanges r)
  let (k, s) := s.newEpoch
  s.modLocal r.entry.cluster i (fun m => free.foldl (fun (m : Mem) g => m.junk g.1 g.2 k) m)

/-- The share that shares core k with share i while the core is doubled (R209). -/
def Cluster.partner (k : Cluster) (core i : Fin 4) : Option (Fin 4) :=
  if k.home i = some core then (List.finRange 4).find? (fun j => j ≠ i && decide (k.home j = some core)) else none

/-- A core takes a share that has not started (R157, R158, R208, R209, R212): rings lost with a fenced core stay lost; a share
that has moved, or follows the other share of a doubled core, has its rings and persistent range moved; the rest of local memory
is undefined. -/
def State.startShare (s : State) (c k : Fin 4) (r : Run) (i : Fin 4) : State :=
  let cl := s.clusters[c]
  let partner := cl.partner k i
  let second := partner.any (fun j => r.shares.any (fun h => h.idx = j && h.core.isSome))
  let moved := cl.stripe[i].core.filter (fun o => o ≠ k)
  let s := match s.point? r.entry r.alt with
    | some p =>
      if moved.isSome || (second && (decide (2097152 < 2 * s.ringBytes c p) || decide (p.keepLen ≠ 0))) then s.spill c p else s
    | none => s
  let s := match moved with
    | some o => s.moveKeep c i o
    | none => s
  let s := s.freshLocal r i
  let s := s.modCl c (fun x =>
    { x with
      cores := vmod x.cores k (fun y => { y with cur := some (r.rid, i) }),
      stripe := vmod x.stripe i (fun t => { t with rings := if t.lost then [] else t.rings, lost := false, core := some k }),
      ranFirst := if partner.isSome then (if second then x.ranFirst else some i) else (if x.healthy = 4 then none else x.ranFirst) })
  s.modRun r.rid (fun r =>
    { r with shares := sharesMod (fun h => { h with core := some k, st := .running }) r.shares i })

/-- A core resumes a share suspended on it (R37, R208). -/
def State.resumeShare (s : State) (c k : Fin 4) (x : Nat × Fin 4) : State :=
  s.modCl c (fun cl =>
    { cl with
      cores := vmod cl.cores k (fun y => { y with cur := some x, susp := y.susp.filter (fun z => z ≠ x) }) })

/-- A TICK run with shares to place suspends what runs of a lower class on a cluster (R37). -/
def State.suspendLower (s : State) (c : Fin 4) : State :=
  s.modCl c (fun cl =>
    { cl with
      cores := cl.cores.map (fun (k : Core) =>
        match k.cur with
        | some x =>
          if (s.run? x.1).any (fun r => decide (r.entry.cls ≠ 0)) then { k with cur := none, susp := x :: k.susp } else k
        | none => k) })

/-- Place shares on the free cores of a cluster. -/
def State.dispatch (s : State) (c : Fin 4) : State :=
  if !s.clusterUp c then s else
  let s := (List.finRange 4).foldl
    (fun s k =>
      let core := s.clusters[c].cores[k]
      if !core.usable || core.cur.isSome then s else
      match s.nextShare c k with
      | some (r, i, false) => s.startShare c k r i
      | _ => s) s
  s.recount c

/-! ### Start (R210 to R212, R217) -/

/-- A share at the start of a run (R217): s1 is its index, s2 the tick count's low word; vector registers and lane mask are
undefined (log entry 5). -/
def freshShare (i : Fin 4) (count epoch mask : Nat) : Share :=
  { idx := i, core := none, st := .notStarted, ended := false, pc := 0,
    regs := (Vector.replicate 16 (0 : W32)).set 1 (BitVec.ofNat 32 i.val) |>.set 2 (BitVec.ofNat 32 count), ops := [], opSeq := 0,
    execs := 0, barges := [], words := (0, 0, 0), parity := none, vreg := Mem.empty.junk 0 8192 epoch,
    vmask := BitVec.ofNat 256 mask }

/-- A switch to the alternate entry point leaves its own rings empty (R139); a run of policy BYPASS notes what it starts from
(R39). -/
def State.enterPoint (s : State) (r : Run) (alt : Bool) : State :=
  let e := r.entry
  let c := e.cluster
  let was := (s.entry? e.id).bind (·.lastAlt)
  let rings (a : Bool) : List RingId := ((s.point? e a).map (s.pointRings c)).getD []
  let s := if alt && !r.old && decide (was = some false) then
      let main := rings false
      let own := rings true
      s.modCl c (fun x => { x with stripe := x.stripe.map (fun (t : StripeSt) => t.keepRings (fun a => a ∈ main || a ∉ own)) })
    else s
  let s := if r.old then s else s.modEntry e.id (fun x => { x with lastAlt := some alt })
  if e.policyAt alt = 2 then s.modCl c (fun x => { x with saved := ⟨r.rid, x.lmem, x.stripe⟩ :: x.saved }) else s

/-- A run whose waits are satisfied starts (R31, R35, R39, R208). The budget in force is that of the healthy cores at its start,
for the whole of the run (log entry 156). -/
def State.startRun (s : State) (r : Run) : State :=
  let e := r.entry
  let c := e.cluster
  let alt := s.runAlt r
  let budget := s.budgetOf e s.clusters[c].healthy alt
  let s := s.enterPoint r alt
  let k0 := s.epoch
  let shares := (List.finRange 4).map (fun i => freshShare i r.count (k0 + i.val) (Config.freeNat (s.fresh + i.val)))
  let s := { s with epoch := k0 + 4, fresh := s.fresh + 4 }
  let s := s.modCl c (fun x => { x with lastSeq := BitVec.ofNat 32 r.count })
  let s := s.modRun r.rid (fun r =>
    { r with phase := .running, alt := alt, budget := budget, start := some s.now, shares := shares })
  let s := if alt || r.r31 then
      s.modOvr e.source r.count (fun o => { o with degraded := o.degraded || alt, r31 := o.r31 || r.r31 })
    else s
  let s := s.trace (clusterUnit c) 0 0x11 0 (leBytes 1 e.id ++ leBytes 1 (b2n alt) ++ leBytes 2 r.count)
  let s := if e.cls = 0 then s.suspendLower c else s
  s.dispatch c

/-- A share stops for good (R117, R210, R217, R220, R549): its engines and barges stop; its core is free; the run can no longer
complete, and is abandoned at once when its deadline has passed, else at it. A layer in progress has written its output up to
the pairs of tiles complete (R114): those before `pass`, or a free number (log entry 162). -/
def State.stopShare (s : State) (co : CoreId) (r : Run) (h : Share) (pass : Option Nat) : State :=
  let s := match pass, h.ops.find? (fun o => o.kind = .matrix) with
    | some n, some o =>
      s.partLayer co r h (n / (LayerDesc.ofBytes (s.shareBytes co.c h.idx o.addr 128)).passes)
    | none, some _ =>
      let (n, s) := s.draw
      s.partLayer co r h n
    | _, none => s
  let s := (s.barges.filter (fun b => decide (b.bid ∈ h.barges))).foldl
    (fun (s : State) (b : Barge) => s.abandonBarge b 0 []) s
  let s := s.dropWaiters (fun w => match w.who with
    | .share _ rid i => decide (rid = r.rid ∧ i = h.idx)
    | _ => false)
  let stop (w : Nat) : Nat := w % 2 ^ 24 + 2 ^ 29
  let s := s.modRun r.rid (fun r =>
    { r with
      stopped := true,
      shares := sharesMod
        (fun h => { h with st := .stopped, ops := [], words := (stop h.words.1, stop h.words.2.1, stop h.words.2.2) })
        r.shares h.idx })
  let s := s.modCl co.c (fun x =>
    { x with
      cores := x.cores.map (fun (k : Core) =>
        { k with
          cur := if k.cur = some (r.rid, h.idx) then none else k.cur,
          susp := k.susp.filter (fun z => z ≠ (r.rid, h.idx)) }) })
  let s := match s.run? r.rid with
    | some r => if r.passed > 0 && !r.faulted then s.abandonRun r else s
    | none => s
  s.dispatch co.c

/-- A run becomes complete when its four shares have retired (R210). -/
def State.settleRun (s : State) (rid : Nat) : State :=
  match s.run? rid with
  | some r =>
    if r.phase = .running && r.shares.all (fun h => h.st = .retired) then (s.completeRun r).dispatch r.entry.cluster else s
  | none => s

/-! ### A tick -/

/-- A tick makes an entry ready (R31 to R33, R37, R39, R42): later ticks count toward the deadlines of its runs; a TICK run made
ready suspends what runs of a lower class. -/
def State.readyEntry (s : State) (e : Entry) (count : Nat) (info : TickInfo) : State :=
  let c := e.cluster
  if !s.on (clusterReach c) || s.quiescing c || s.clusters[c].reset.isSome then s
  else if s.clusters[c].healthy < 3 then
    let s := s.noteOverrun e s.ttOwner count 4 3 false false
    let s := (s.modOvr e.source count (fun o => { o with skipped := true })).skipEntry e.id
    s.partitionStop c 2 e.id count none
  else
    let l := s.runsOf e.id
    let s := l.foldl (fun (s : State) (r : Run) =>
      s.modRun r.rid (fun r => { r with ticks := r.ticks + 1, lastSel := s.now })) s
    let cur := l.any Run.current
    if ((s.entry? e.id).map (·.dropNext)).getD false then
      let s := s.modEntry e.id (fun x => { x with dropNext := false })
      let s := s.modOvr e.source count (fun o => { o with skipped := true })
      (s.addRun e count info .dropped).1
    else if cur && l.any (fun r => r.phase = .pending) then
      let s := s.modOvr e.source count (fun o => { o with skipped := true })
      (s.jobDrop e.id).trace (clusterUnit c) 0 0x12 0 (leBytes 1 e.id ++ leBytes 1 1 ++ leBytes 2 count)
    else
      let s := if e.cls = 0 then (s.suspendLower c).recount c else s
      if cur then (s.addRun e count info .pending).1
      else
        let (s, r) := s.addRun e count info .waiting
        s.beginRun r.rid

/-- The trace unit of a source's TICK packets (R601; log entry 45). -/
def tickUnit (t : TickSrc) : Fin 10 :=
  match t.kind with
  | 1 => 4
  | 2 => if t.bind = 4 then 1 else 2
  | 3 => 4
  | _ => 0

/-- Timetable entries in the order in which one tick makes them ready: by order, then entry_id (R26). -/
def entryInsert (e : Entry) : List Entry → List Entry
  | [] => [e]
  | f :: t => if e.order * 65536 + e.id ≤ f.order * 65536 + f.id then e :: f :: t else f :: entryInsert e t

/-- A budget set before this tick comes into force (R266), and so do committed minimum shares (R269). -/
def State.budgetTick (s : State) : State :=
  { s with
    ctxs := s.ctxs.map (fun (x : Nat × Ctx) =>
      match x.2.setStamp with
      | some t => if t < s.now then (x.1, { x.2 with budget := x.2.budgetSet, setStamp := none }) else x
      | none => x),
    cfg := { s.cfg with mem := [s.key .memTick, s.key .memInteractive, s.key .memBackground, s.key .memAdapt] } }

/-- The kept state of the entries of a timetable at its start. -/
def freshEntries (t : Timetable) : List EntrySt :=
  t.entries.map (fun e => ⟨e.id, 0, 0, 0, 0, false, false, none, none⟩)

/-- The rings that the entries of a timetable name on a cluster, main and alternate points together (R160). -/
def State.ttRings (s : State) (t : Timetable) (c : Fin 4) : List RingId :=
  (t.entries.filter (fun e => e.cluster = c)).flatMap (fun e =>
    ((s.point? e false).toList ++ (s.point? e true).toList).flatMap (s.pointRings c))

/-- Only the rings of the timetable in force keep their rows when another takes its place: every ring that the new one does not
share with it starts empty (R160). -/
def State.shareRings (s : State) : State :=
  match s.sched.tt with
  | none => s
  | some t =>
    { s with
      clusters := Vector.ofFn (fun c =>
        let own := s.ttRings t c
        { s.clusters[c] with stripe := s.clusters[c].stripe.map (fun (x : StripeSt) => x.keepRings (fun a => a ∈ own)) }) }

/-- A staged timetable takes over (R49, R51, R52, R160, R207): runs made ready earlier become old; jobs whose entry is gone
abort. -/
def State.switchTimetable (s : State) (t : Timetable) : State :=
  let s : State := s.shareRings
  let s : State := { s with
    sched := { s.sched with
      tt := some t, staged := none, entries := freshEntries t,
      runs := s.sched.runs.map (fun (r : Run) =>
        if r.old then r else { r with old := true, degr := ((s.entry? r.entry.id).map (fun (x : EntrySt) => x.atAlt)).getD false }) } }
  let s := (s.jobs.filter (fun j => !t.entries.any (fun e => e.id = j.entry))).foldl
    (fun (s : State) (j : Job) => s.jobAbort j) s
  s.refresh

/-- Whether the running timetable has entries of source k on a cluster. -/
def State.feeds (s : State) (k : Fin 16) (c : Fin 4) : Bool :=
  (s.sched.tt.map (fun t => t.entries.any (fun e => e.source = k && e.cluster = c))).getD false

/-- Whether ticks of entries come to a cluster: the timetable runs and has entries there. -/
def State.fed (s : State) (c : Fin 4) : Bool :=
  s.sched.running && (s.sched.tt.map (fun t => t.entries.any (fun e => e.cluster = c))).getD false

/-- The FENCE event (R578): state 0 fenced, 1 reinstated. -/
def State.fenceEvent (s : State) (c : Fin 4) (st : Nat) : State :=
  s.event 0x0A05 0 c.val true (leBytes 1 st ++ leBytes 1 s.clusters[c].healthy)

/-- A core leaves service for a test (R157, R552): the rings in its line buffer are lost to the shares that move, whatever a
share still running there adds to them. -/
def State.fenceCore (s : State) (co : CoreId) : State :=
  let s := s.modCl co.c (fun x =>
    { x with
      cores := vmod x.cores co.k (fun y => { y with test := true }),
      stripe := x.stripe.map (fun (t : StripeSt) => { t with lost := t.lost || decide (t.core = some co.k) }) })
  (s.fenceEvent co.c 0).groupChanged.refresh

/-- A test begins to run (R551). -/
def State.runTest (s : State) (tid : Nat) : State :=
  { s with
    health := { s.health with
      tests := s.health.tests.map (fun (t : Test) => if t.tid = tid then { t with st := .running, start := some s.now } else t) } }

/-- A due core test starts once its core holds no running share (R552). -/
def State.startDueTests (s : State) (c : Fin 4) : State :=
  (s.health.tests.filter (fun t => t.st = .due && t.unit.cluster = some c)).foldl
    (fun (s : State) (t : Test) =>
      match t.unit.core? with
      | some co => if s.clusters[co.c].cores[co.k].cur.isNone then s.runTest t.tid else s
      | none => s.runTest t.tid) s

/-- A tick of a source with entries on a cluster is the fixed point of its units' tests (R551, R552): a tested core whose test
has ended comes back, row tests start, and the first core test in order of detection becomes due. `late`: only units found
before now. -/
def State.testTick (s : State) (c : Fin 4) (late : Bool) : State :=
  if !s.clusterUp c then s else
  let mine := s.health.tests.filter (fun t => t.unit.cluster = some c)
  let s := (List.finRange 4).foldl
    (fun s k =>
      let core := s.clusters[c].cores[k]
      if core.test && !mine.any (fun t => t.unit.core? = some ⟨c, k⟩ && (t.st ≠ .pending || t.start.isNone)) then
        let s := s.modCl c (fun x => { x with cores := vmod x.cores k (fun y => { y with test := false }) })
        (s.fenceEvent c 1).groupChanged.refresh
      else s) s
  let s := (mine.filter (fun t => t.unit.core?.isNone && t.st = .pending && (!late || decide (t.found < s.now)))).foldl
    (fun (s : State) (t : Test) => s.runTest t.tid) s
  if mine.any (fun t => t.unit.core?.isSome && t.st ≠ .pending) then s
  else
    match mine.find? (fun t => t.unit.core?.isSome && t.st = .pending && (!late || decide (t.found < s.now))) with
    | some t =>
      let s := { s with
        health := { s.health with
          tests := s.health.tests.map (fun (x : Test) => if x.tid = t.tid then { x with st := .due } else x) } }
      let s := match t.unit.core? with
        | some co => if s.clusters[co.c].cores[co.k].test then s else s.fenceCore co
        | none => s
      s.startDueTests c
    | none => s

/-- The video chain's ROWGROUP source (R195): the lowest-numbered one that an entry of the running timetable names (log entry
46). -/
def State.videoSource (s : State) : Option (Fin 16) :=
  (List.finRange 16).find? (fun k =>
    s.sched.src[k].kind = 1 && (s.sched.tt.map (fun t => t.entries.any (fun e => e.source = k))).getD false)

/-- A channel's report for the frame (R270): below its demand; and whether ADAPT and BACKGROUND were held throughout. -/
def Arb.report (a : Arb) : Bool × Bool :=
  (decide (0 < a.frameWin) && decide (a.frameWin ≤ 64 * a.frameShort), a.frameHeldAll)

/-- Firmware adapts the KV page budgets at a frame's first tick (R195). -/
def State.kvTick (s : State) : State :=
  (List.finRange 4).foldl
    (fun s c =>
      if !s.on (clusterReach c) then s else
      let r := s.parts[c].arb.toList.map Arb.report
      let below := r.any (·.1)
      let held := r.all (·.2)
      let b := s.clusters[c].kvB
      let calm := if below then 0 else s.clusters[c].kvCalm + 1
      let new := if below && held then max 4 (b - 2) else if decide (8 ≤ calm) then min 16 (b + 1) else b
      let s := s.modCl c (fun x => { x with kvB := new, kvCalm := if decide (8 ≤ calm) then 0 else calm })
      let s := s.modPart c (fun p =>
        { p with arb := p.arb.map (fun (a : Arb) => { a with frameWin := 0, frameShort := 0, frameHeldAll := true }) })
      if new = b then s else s.event 0x0206 s.ttOwner c.val false (leBytes 1 b ++ leBytes 1 new)) s

/-- The ROWGROUP source of the video chain of a cargo (R204): the lowest-numbered one that its entries name, else the video
chain's (log entry 46). -/
def State.chainSource (s : State) (cargo : Nat) : Option (Fin 16) :=
  match (List.finRange 16).find? (fun k =>
      s.sched.src[k].kind = 1 && (s.sched.tt.map (fun t => t.entries.any (fun e => e.source = k && e.cargo = cargo))).getD false) with
  | some k => some k
  | none => s.videoSource

/-- At a first-row tick of source k the adapters written for the chains on it take over (R204). -/
def State.adapterTick (s : State) (k : Fin 16) : State :=
  let hit (j : Job) : Bool := decide (j.phase = 4) && decide (s.chainSource j.cargo = some k)
  { s with
    jobs := s.jobs.filter (fun j => !hit j),
    adapters := (s.jobs.filter hit).foldl (fun (a : List Adapter) (j : Job) =>
      if a.any (fun x => x.cargo = j.cargo) then
        a.map (fun x => if x.cargo = j.cargo then { x with generation := x.generation + 1, half := 1 - x.half, groups := j.groups } else x)
      else a ++ [⟨j.cargo, 1, 1, j.groups⟩]) s.adapters }

/-- A DSP's task requests at a tick (R33, R387, R393): a task with a run in progress gets a pending one; a run to be dropped
makes no request. -/
def State.dspTick (s : State) (k : Fin 16) (count : Nat) : State :=
  (List.finRange 4).foldl
    (fun s d =>
      let x := s.dsps[d]
      if x.cond ≠ 1 || !s.on (dspReach d) then s else
      let ts := ((x.image.map (·.tasks)).getD []).zip x.tasks
      let step (p : DspTask × TaskSt) : TaskSt × Bool :=
        let (t, st) := p
        if ¬ (t.tick = k ∧ count % t.divide = t.phase) then (st, false)
        else
          let iv := (s.srcIntervalQ k * (t.divide : Nat)).floor.toNat
          let run : TaskRun := ⟨count, s.now, iv, st.atAlt, false, 0, none, 0, 0, 0⟩
          let later (r : TaskRun) : TaskRun := { r with ticks := r.ticks + 1, lastSel := s.now }
          let st := { st with cur := st.cur.map later, pend := st.pend.map later }
          if st.dropNext then ({ st with dropNext := false }, true)
          else
            match st.cur, st.pend with
            | none, _ => ({ st with cur := some run }, false)
            | some _, none => ({ st with pend := some run }, false)
            | some _, some _ => (st, true)
      let res := ts.map step
      let s := s.modDsp d (fun x => { x with tasks := res.map (·.1) })
      if res.any (·.2) then s.modOvr k count (fun o => { o with skipped := true }) else s) s

/-- What a ROWGROUP tick gives the metadata of the frame whose window it falls in (R313, R314, R509). -/
def State.frameTick (s : State) (k : Fin 16) (count : Nat) : State :=
  if s.sched.src[k].kind ≠ 1 then s else
  let kv := s.clusters.toList.foldl (fun (m : Nat) (c : Cluster) => min m c.kvB) 16
  let rst := s.clusters.toList.any (fun (c : Cluster) => c.reset.isSome)
  s.modOvr k count (fun o =>
    { o with kv := min o.kv kv, partReset := o.partReset || rst, unlocked := o.unlocked || s.timeUnlocked })

/-- Linked ceilings decided before a tick of their entry's source come into force (R85); a step in progress keeps its own. -/
def State.clipTick (s : State) (k : Fin 16) : State :=
  { s with
    clusters := s.clusters.map (fun (c : Cluster) =>
      { c with
        slots := c.slots.map (fun (t : ClipSlot) =>
          match t.next with
          | some (v, fb, j) => if j = k then { t with ceiling := v, fbNow := fb, next := none } else t
          | none => t) }) }

/-- A tick now would come less than half a nominal interval after the last one (R24). -/
def State.tooSoon (s : State) (k : Fin 16) : Bool :=
  match s.sched.src[k].last with
  | some l => decide (2 * ((s.now - l : Nat) * 1000 : Rat) < s.srcIntervalQ k)
  | none => false

/-- A tick of source k (R19, R24, R49, R195, R204, R266, R269, R317, R551): discarded as spurious when it comes too soon, unless
exempt; else counted, and it makes its entries ready. Outside RUNNING and DEGRADED DSP tasks run on, but none is made ready while a
RUN_STOP waits (R426; log entry 167). -/
def State.raiseTick (s : State) (k : Fin 16) (exempt : Bool) (info : TickInfo) : State :=
  let t := s.sched.src[k]
  if t.kind = 0 then s
  else if s.tooSoon k && !exempt then s.event 0x0103 0 0xFF true (leBytes 1 k.val ++ leBytes 8 s.now)
  else
    let count := t.next.toNat
    let s := s.budgetTick
    let s := s.publishResults k
    let s := { s with
      sched := { s.sched with
        src := vmod s.sched.src k (fun t => { t with next := t.next + 1, last := some s.now, lost := false }) } }
    let s := s.trace (tickUnit t) 2 0x10 0
      (leBytes 1 k.val ++ leBytes 1 (b2n info.blank + 2 * b2n info.first + 4 * b2n info.last) ++ leBytes 2 count)
    let s := if t.kind = 3 ∧ (List.finRange 16).find? (fun j => s.sched.src[j].kind = 3) = some k then
        { s with img := { s.img with refTicks := (count, s.now) :: s.img.refTicks.take 7 } }
      else s
    let take (s : State) : State := if info.first && s.fwUp then s.adapterTick k else s
    if !s.sched.running then (if (s.flights (fun c _ => c = 0x0402)).isEmpty then (take s).dspTick k count else take s) else
    let s := match s.sched.staged with
      | some (t, at_) => if t.switch = k ∧ at_ < s.now then s.switchTimetable t else s
      | none => s
    let s := take (if info.first && s.videoSource = some k && s.fwUp then s.kvTick else s)
    let s := s.frameTick k count
    let s := (List.finRange 4).foldl (fun s c => if s.feeds k c && s.fwUp then s.testTick c true else s) s
    let s := (List.finRange 4).foldl
      (fun (s : State) c => if s.feeds k c then s.modPart c (fun x => { x with ready := x.queue }) else s) s
    let s := s.clipTick k
    let s := s.dspTick k count
    match s.sched.tt with
    | none => s
    | some tt =>
      if s.now ≤ s.sched.startStamp then s
      else
        let l := (tt.entries.filter (fun e => e.source = k && decide (count % e.divide = e.phase))).foldl
          (fun l e => entryInsert e l) []
        let s := l.foldl (fun (s : State) (e : Entry) => s.readyEntry e count info) s
        s.settleFull s.sched.runs.length

end Sys2Proof.Machine
end

