-- ==== Sys2Proof/Machine/RunCmds.lean ====
section
/-! DEFINITION. What the end of the last run brings to a RUN_STOP, and the meanings of the runs of timetable entries (R33 to
R42, R208 to R210, R426). -/

namespace Sys2Proof.Machine

/-- Waits that timed out at once are settled (R242), and a RUN_STOP in progress completes when no run is left (R405, R426): the
device is READY. -/
def State.settleStop (s : State) : State :=
  let s := s.settleFull s.sched.runs.length
  let l := s.flights (fun c _ => c = 0x0402)
  if l.isEmpty || !s.sched.runs.isEmpty || s.dsps.toList.any (fun d => d.tasks.any (fun t => t.cur.isSome && d.cond = 1)) then s
  else (s.leaveRunning .ready).replyAll l (ok [])

/-- SUSPENDED_RUN_RESUME (R37): the cores that are idle take the run's suspended shares again, once no TICK run of the cluster
waits to start (log entry 163). -/
def execSuspendedRunResume (rid : Nat) (s : State) : Host.Outcome State Fault Refusal :=
  .next (match s.run? rid with
    | none => s
    | some r =>
      let c := r.entry.cluster
      if !s.clusterUp c || s.sched.runs.any (fun x => x.entry.cluster = c && x.entry.cls = 0 && x.phase = .waiting) then s else
      let s := (List.finRange 4).foldl
        (fun s k =>
          let core := s.clusters[c].cores[k]
          if !core.usable || core.cur.isSome then s else
          match s.nextShare c k with
          | some (x, i, true) => if x.rid = rid then s.resumeShare c k (rid, i) else s
          | _ => s) s
      s.recount c)

/-- ENTRY_RUN_START (R28, R32, R34, R228): every wait reference is satisfied and every prefetch barge has completed, on a cluster
with at least three healthy cores. -/
def execEntryRunStart (rid : Nat) (s : State) : Host.Outcome State Fault Refusal :=
  .next (match s.run? rid with
    | none => s
    | some r =>
      if r.phase = .waiting && r.waitsLeft.isEmpty && r.pf.isEmpty && !r.pfBad && s.clusterUp r.entry.cluster &&
          decide (3 ≤ s.clusters[r.entry.cluster].healthy) then s.startRun r
      else s)

/-- SHARE_RETIRE (R210): the program has ended and every barge it issued is done. -/
def execShareRetire (co : CoreId) (s : State) : Host.Outcome State Fault Refusal :=
  .next (match s.shareOn co with
    | none => s
    | some (r, h) =>
      if h.ended && h.ops.isEmpty && h.barges.isEmpty && s.clusterUp co.c then
        let s := s.modShare co (fun h => { h with st := .retired })
        let s := s.modCl co.c (fun x => { x with cores := vmod x.cores co.k (fun k => { k with cur := none }) })
        (((s.settleRun r.rid).dispatch co.c).startDueTests co.c).settleStop
      else s)

/-- OVERRUN_BUDGET (R35): the elapsed cycles exceed the budget in force. -/
def execOverrunBudget (rid : Nat) (s : State) : Host.Outcome State Fault Refusal :=
  .next (match s.run? rid with
    | none => s
    | some r =>
      if r.phase = .running && r.cause.isNone && decide (r.budget * 4 < s.elapsed4 r) then (s.overrunRun r 0).settleStop else s)

/-- RUN_DEADLINE (R34, R35, R39, R42, R117, R529): the first deadline is an overrun unless one was counted; the second one a
FAULT. -/
def execRunDeadline (rid : Nat) (s : State) : Host.Outcome State Fault Refusal :=
  .next (match s.run? rid with
    | none => s
    | some r =>
      let c := r.entry.cluster
      if !r.current then s
      else if r.passed = 0 && s.due1 r then
        let s := s.modRun rid (fun r => { r with passed := 1 })
        let r := { r with passed := 1 }
        let s :=
          if s.quiescing c then s.stopRun r false
          else if r.cause.isNone then s.overrunRun r 1
          else if r.entry.policyAt r.alt = 2 then s.bypassRun r
          else s
        let s := match s.run? rid with
          | some r => if r.stopped && decide (r.phase = RunPhase.running) && !r.faulted then s.abandonRun r else s
          | none => s
        (s.dispatch c).settleStop
      else if r.passed = 1 && s.due2 r && !r.faulted then
        let s := s.modRun rid (fun r => { r with passed := 2, faulted := true })
        let s := s.noteOverrun r.entry r.ctx r.count 4 1 r.alt true
        (s.partitionStop c 1 r.entry.id r.count none).settleStop
      else s)

/-- ENTRY_LOCK_WAIT_TIMEOUT (R35, R36, R39): the waits of a run, counted from its tick, are not satisfied in time; a pending run
has satisfied none. -/
def execEntryLockWaitTimeout (rid : Nat) (s : State) : Host.Outcome State Fault Refusal :=
  .next (match s.run? rid with
    | none => s
    | some r =>
      let unmet := match r.phase with
        | .waiting => !(r.waitsLeft.isEmpty && r.pf.isEmpty && !r.pfBad)
        | .pending => s.waitsFor r
        | _ => false
      if unmet && s.beyond r.stamp (r.entry.timeout * 1000000) then
        let s := (s.keeper (some r.entry.cluster) |>.waiters.filter (fun w =>
            match w.who with
            | .run x _ => decide (x = rid)
            | _ => false)).foldl (fun (s : State) (w : Waiter) => s.waitEnded w 1) s
        let s := s.withdrawRun rid
        (if r.cause.isSome then s.dropRun r else s.overrunRun r 2).settleStop
      else s)

/-- DROPPED_RUN_DEADLINE (R39, R122, R227): a dropped run's raises are issued at its deadline. -/
def execDroppedRunDeadline (rid : Nat) (s : State) : Host.Outcome State Fault Refusal :=
  .next (match s.run? rid with
    | none => s
    | some r => if r.phase = .dropped && s.due1 r then (s.droppedDeadline r).settleStop else s)

end Sys2Proof.Machine
end

