-- ==== Sys2Proof/Machine/Regions.lean ====
section
/-! DEFINITION. The meanings of the commands of contexts, regions and quotas (R255 to R266, R409 to R411, R430 to R432). -/

namespace Sys2Proof.Machine

/-! ### Regions -/

/-- The lowest base where a region of some blocks fits in partition p (R256). -/
def State.fit (s : State) (p : Fin 4) (blocks : Nat) : Option Nat :=
  let rs := s.parts[p].regions
  let lo := 0x200000000 * p.val
  let n := blocks * 0x200000
  let free (a : Nat) : Bool := decide (lo ≤ a ∧ a + n ≤ lo + 0x200000000) && rs.all (fun r => !overlap a n r.base r.len)
  ((lo :: rs.map (fun r => r.base + r.len)).filter free).foldl
    (fun (b : Option Nat) a => match b with
      | some x => some (min x a)
      | none => some a) none

/-- REGION_ALLOC (R253, R256, R258, R431): the region exists from now on; the reply waits for the zero fill. Its slot is the
lowest free one (log entry 56). -/
def execRegionAlloc (m : Fin 8) (s : State) : Host.Outcome State Fault Refusal :=
  .next (s.withTaken m 0x0412 (fun t =>
    let p := t.payload
    let part := field p 0 1
    let n : Fin 4 := Fin.ofNat 4 part
    let blocks := field p 4 4
    let c := (assoc s.ctxs t.context).getD Ctx.zero
    let at_ := s.fit n blocks
    let slot := (List.range 256).find? (fun i => !s.parts[n].regions.any (fun r => r.slot = i))
    let bad :=
      [(decide (4 ≤ part), err 0x8006 (some 0)), (decide (2 ≤ field p 1 1), err 0x8006 (some 1)),
       (decide (field p 2 2 ≠ 0), err 0x8006 (some 2)), (decide (blocks < 1 ∨ 4096 < blocks), err 0x8006 (some 4)),
       (!s.on (clusterReach n), err 0x8407 (some 0)), (c.overQuota || decide (c.quota < s.use t.context + blocks), err 0x8402),
       (at_.isNone, err 0x8403), (slot.isNone, err 0x8404)].find? (fun (x : Bool × Reply) => x.1)
    match bad, at_, slot with
    | some x, _, _ => s.reply m x.2
    | none, some a, some i =>
      let g := (((assoc s.parts[n].gens i).getD 0) + 1) % 65536
      let r : Region := ⟨i, g, a, blocks, t.context, bit (field p 1 1) 0, false, true⟩
      let s := s.modPart n (fun x => { x with regions := x.regions ++ [r], gens := assocSet x.gens i g })
      s.fly m 0x0412 [n.val, i] (leBytes 4 (r.handle n) ++ zeros 4 ++ leBytes 8 a)
    | none, _, _ => s))

/-- The handle of the region that holds a DRAM address. -/
def State.regionAt (s : State) (a : Nat) : Option Nat :=
  match spaceOf a with
  | .dram p _ => (s.parts[p].regions.find? (fun r => r.holds a)).map (fun r => r.handle p)
  | _ => none

/-- The regions a cargo occupies (R257, R258): that of its image, and those of the table blocks of its own attention sets. -/
def State.cargoRegions (s : State) (g : Cargo) : List Nat :=
  let sets := (g.sets.map (fun x => SetDesc.ofBytes (s.dram.readBytes (g.base + x) 64))).filter (fun d => d.owned && d.tablesInDram)
  (g.region :: sets.flatMap (fun d => (blocksOf d.table d.tablesLen).filterMap s.regionAt)).eraseDups

/-- A region holds a loaded cargo or is the region of a running adaptation job (R259). -/
def State.regionUsed (s : State) (h : Nat) : Bool :=
  s.cargos.any (fun g => decide (h ∈ s.cargoRegions g)) || s.jobs.any (fun j => j.region = h)

/-- A region has an update in flight (R258): its own, a data-set capture, or an adapter commit that awaits its tick. -/
def State.regionBusy (s : State) (h : Nat) : Bool :=
  (s.region? h).any (fun x => x.2.update) ||
    s.jobs.any (fun j => (j.phase = 1 && j.region = h) ||
      (j.phase = 4 && (s.cargo? j.cargo).any (fun g => g.region = h)))

/-- A cargo is named by a timetable or a job (R422); a DSP image has no field that names one (R391; log entry 83). -/
def State.cargoUsed (s : State) (c : Nat) : Bool :=
  (s.sched.committed.toList ++ s.sched.tt.toList ++ s.sched.staged.toList.map (·.1)).any
      (fun t => t.entries.any (fun e => e.cargo = c)) ||
    s.jobs.any (fun j => j.cargo = c)

/-- The regions that a command updates (R258): CARGO_LOAD, REGION_FREE and REGION_SET the one they name, CARGO_UNLOAD those of a cargo
that can be unloaded, ADAPT_START that of the capture. -/
def State.updates (s : State) (t : Taken) : List Nat :=
  let named (off : Nat) : List Nat := if (s.region? (field t.payload off 4)).isSome then [field t.payload off 4] else []
  match t.command with
  | 0x0301 => named 0
  | 0x0413 => named 0
  | 0x0414 => named 0
  | 0x0302 =>
    let c := field t.payload 0 1
    if s.cargoUsed c then [] else (s.cargo? c).elim [] s.cargoRegions
  | 0x0C01 => named 4
  | _ => []

/-- Another mailbox holds a command taken that a test accepts. -/
def State.takenElsewhere (s : State) (m : Fin 8) (f : Taken → Bool) : Bool :=
  (List.finRange 8).any (fun k => decide (k ≠ m) && (s.mboxes[k].taken.map f).getD false)

/-- A region has an update in flight of any kind, that of a command another mailbox holds among them (R258). -/
def State.updateInFlight (s : State) (m : Fin 8) (h : Nat) : Bool :=
  s.regionBusy h || s.takenElsewhere m (fun t => decide (h ∈ s.updates t))

/-- The checks of a command on a region by its owner: handle, owner. -/
def State.regionTarget (s : State) (t : Taken) : List (Bool × Reply) :=
  let h := field t.payload 0 4
  [((s.region? h).isNone, err 0x8007 (some 0) (some h)),
   ((s.region? h).any (fun x => x.2.owner ≠ t.context), err 0x8004 (some 0) (some h))]

/-- REGION_FREE (R253, R258, R259, R262, R264). -/
def execRegionFree (m : Fin 8) (s : State) : Host.Outcome State Fault Refusal :=
  .next (s.answer m 0x0413 (fun t =>
    let h := field t.payload 0 4
    s.checked
      (s.regionTarget t ++
        [((s.region? h).any (fun x => !s.on (clusterReach x.1)), err 0x8407 (some 0) (some h)),
         (s.regionBusy h, err 0x8401 (some 0) (some h)), (s.regionUsed h, err 0x8406 (some 0) (some h))])
      (fun s =>
        match s.region? h with
        | some (p, r) =>
          let s := s.modPart p (fun x => { x with regions := x.regions.filter (fun y => y.slot ≠ r.slot) })
          (s.settleQuota r.owner, ok [])
        | none => (s, ok []))))

/-- REGION_SET of one op (R258, R259, R262, R431). -/
def State.regionSet (s : State) (t : Taken) (more : List (Bool × Reply)) (f : Region → Region) : State × Reply :=
  let h := field t.payload 0 4
  let op := field t.payload 4 1
  s.checked
    ([(decide (op < 1 ∨ 3 < op), err 0x8006 (some 4)), (decide (field t.payload 5 3 ≠ 0), err 0x8006 (some 5))] ++
      s.regionTarget t ++ [(s.regionBusy h, err 0x8401 (some 0) (some h))] ++ more)
    (fun s =>
      match s.region? h with
      | some (p, r) => (s.modRegion p r.slot f, ok [])
      | none => (s, ok []))

/-- Run a REGION_SET whose op is one of those a row stands for. -/
def State.regionSetRow (s : State) (m : Fin 8) (test : Nat → Bool) (f : Taken → State × Reply) : State :=
  s.withTaken m 0x0414 (fun t => if test (field t.payload 4 1) then (f t).1.reply m (f t).2 else s)

/-- REGION_SET with op 1, set RETAIN; also the reply to an op that does not exist. -/
def execRegionSetRetain (m : Fin 8) (s : State) : Host.Outcome State Fault Refusal :=
  .next (s.regionSetRow m (fun op => decide (op ≠ 2 ∧ op ≠ 3)) (fun t => s.regionSet t [] (fun r => { r with retain := true })))

/-- REGION_SET with op 2, clear RETAIN (R259). -/
def execRegionClearRetain (m : Fin 8) (s : State) : Host.Outcome State Fault Refusal :=
  .next (s.regionSetRow m (fun op => decide (op = 2)) (fun t =>
    let h := field t.payload 0 4
    s.regionSet t [(s.regionUsed h, err 0x8406 (some 0) (some h))] (fun r => { r with retain := false })))

/-- REGION_SET with op 3, clear_stale (R262). -/
def execRegionClearStale (m : Fin 8) (s : State) : Host.Outcome State Fault Refusal :=
  .next (s.regionSetRow m (fun op => decide (op = 3)) (fun t => s.regionSet t [] (fun r => { r with stale := false })))

/-- REGION_INFO (R431). -/
def execRegionInfo (m : Fin 8) (s : State) : Host.Outcome State Fault Refusal :=
  .next (s.answer m 0x0415 (fun t =>
    let h := field t.payload 0 4
    match s.region? h with
    | some (_, r) =>
      (s, ok (leBytes 8 r.base ++ leBytes 4 r.blocks ++ leBytes 1 r.owner ++
        leBytes 1 (b2n r.retain + 2 * b2n r.stale + 4 * b2n (s.updateInFlight m h)) ++ zeros 10))
    | none => (s, err 0x8007 (some 0) (some h))))

/-! ### Contexts and quotas -/

/-- Whether a context owns an object (R410, R411): a region, a cargo, a ring, a DSP image, a job, a timetable (log entry
57). -/
def State.ctxOwns (s : State) (c : Nat) : Bool :=
  s.parts.toList.any (fun p => p.regions.any (fun r => r.owner = c)) || s.cargos.any (fun g => g.owner = c) ||
    s.rings.any (fun e => decide (e.2.ctx = c ∧ e.2.kind ≠ 0)) || s.dsps.toList.any (fun d => d.owner = some c) || s.jobs.any (fun j => j.owner = c) ||
    s.sched.committed.any (fun t => t.owner = c) || s.sched.tt.any (fun t => t.owner = c) ||
    s.sched.staged.any (fun t => t.1.owner = c)

/-- CONTEXT_CREATE (R409, R430). -/
def execContextCreate (m : Fin 8) (s : State) : Host.Outcome State Fault Refusal :=
  .next (s.answer m 0x0410 (fun t =>
    let p := t.payload
    let free := ((List.range 63).map (· + 1)).find? (fun c => !s.ctxExists c)
    s.checked
      [(decide (4 ≤ field p 0 1), err 0x8006 (some 0)), (decide (field p 1 3 ≠ 0), err 0x8006 (some 1)),
       (decide (16384 < field p 4 4), err 0x8006 (some 4)), (decide (5460 < field p 8 4), err 0x8006 (some 8)),
       (free.isNone, err 0x8409)]
      (fun s =>
        let c := free.getD 0
        let b := field p 8 4
        ({ s with ctxs := assocSet s.ctxs c ⟨field p 0 1, field p 4 4, b, b, none, false⟩ }, ok (leBytes 4 c)))))

/-- The checks on a target context (R430): `zero` whether 0 is accepted. -/
def State.ctxTarget (s : State) (t : Taken) (zero : Bool) : List (Bool × Reply) :=
  let c := field t.payload 0 1
  [(decide (63 < c) || (!zero && decide (c = 0)), err 0x8006 (some 0)), (decide (field t.payload 1 3 ≠ 0), err 0x8006 (some 1)),
   (!s.ctxExists c, err 0x8003 (some 0))]

/-- CONTEXT_DESTROY (R411, R430). -/
def execContextDestroy (m : Fin 8) (s : State) : Host.Outcome State Fault Refusal :=
  .next (s.answer m 0x0411 (fun t =>
    let c := field t.payload 0 1
    s.checked (s.ctxTarget t false ++ [(s.ctxOwns c, err 0x8408 (some 0) (some c))])
      (fun s => ({ s with ctxs := assocDel s.ctxs c, used := s.used.filter (fun u => u.1.1 ≠ c) }, ok []))))

/-- QUOTA_SET (R264, R266, R432). -/
def execQuotaSet (m : Fin 8) (s : State) : Host.Outcome State Fault Refusal :=
  .next (s.answer m 0x0430 (fun t =>
    let p := t.payload
    let c := field p 0 1
    let q := field p 4 4
    let b := field p 8 4
    s.checked
      ([(decide (16384 < q), err 0x8006 (some 4)), (decide (5460 < b), err 0x8006 (some 8))] ++ s.ctxTarget t false)
      (fun s =>
        let x := (assoc s.ctxs c).getD Ctx.zero
        let new := { x with quota := q, budgetSet := b, setStamp := if b = x.budgetSet then x.setStamp else some s.now }
        if q < s.use c then ({ s with ctxs := assocSet s.ctxs c { new with overQuota := true } }, ⟨0x4003, []⟩)
        else (State.settleQuota { s with ctxs := assocSet s.ctxs c new } c, ok []))))

/-- QUOTA_INFO (R432). -/
def execQuotaInfo (m : Fin 8) (s : State) : Host.Outcome State Fault Refusal :=
  .next (s.answer m 0x0431 (fun t =>
    let c := field t.payload 0 1
    s.checked (s.ctxTarget t true) (fun s =>
      let x := (assoc s.ctxs c).getD Ctx.zero
      (s, ok (leBytes 4 (s.use c) ++ leBytes 4 x.quota ++ leBytes 4 x.budgetSet ++
        leBytes 4 (b2n x.overQuota + 2 * b2n x.setStamp.isSome))))))

end Sys2Proof.Machine
end

