-- ==== Sys2Proof/Machine/Adapt.lean ====
section
/-! DEFINITION. The meanings of on-device adaptation: capture, time limit, commit, and the ADAPT commands (R198 to R207, R437).
-/

namespace Sys2Proof.Machine

/-- The job on a cargo. -/
def State.jobOf (s : State) (cargo : Nat) : Option Job := s.jobs.find? (fun j => j.cargo = cargo)

/-- The state with the job on a cargo changed. -/
def State.modJob (s : State) (cargo : Nat) (f : Job → Job) : State :=
  { s with jobs := s.jobs.map (fun j => if j.cargo = cargo then f j else j) }

/-- The receiver of the video chain (R195, R199). -/
def State.videoRx (s : State) : Option (Fin 2) := s.videoSource.map (fun k => Fin.ofNat 2 s.sched.src[k].bind)

/-- DATA_SET_CAPTURE (R199): the newest prepared row is copied into the job's region, whose layout the spec does not give (log
entry 52). The last row of the last frame ends the capture. Nothing is captured while the region's stack cannot be reached
(R253) or is being copied (R278). -/
def execDataSetCapture (cargo : Byte) (s : State) : Host.Outcome State Fault Refusal :=
  .next (match s.jobOf cargo.toNat, s.videoRx with
    | some j, some n =>
      let x := s.img.rx[n]
      let at_ := x.frame.toNat * 65536 + (x.row - 1)
      if j.phase = 1 ∧ s.fwUp ∧ x.inFrame ∧ 0 < x.row ∧ j.pos < at_ then
        match s.region? j.region with
        | none => s
        | some (p, g) =>
          if !s.clusterUp p then s.offAccess g.base
          else if s.copying g.base g.len then s
          else
          let s := s.junkDram g.base g.len
          let done := j.captured + b2n (decide (x.row = x.cfg.height))
          s.modJob j.cargo (fun j =>
            { j with pos := at_, captured := done, phase := if done = j.black + j.footage then 2 else 1 })
      else s
    | _, _ => s)

/-- ADAPT_TIME_LIMIT (R201, R205). -/
def execAdaptTimeLimit (cargo : Byte) (s : State) : Host.Outcome State Fault Refusal :=
  .next (match s.jobOf cargo.toNat with
    | some j => if s.fwUp ∧ j.phase ≤ 2 ∧ j.limit ≤ s.now then s.jobEnd j 3 else s
    | none => s)

/-- FP32 1.0 × 127 and FP16 2⁻¹⁴. -/
def adaptDivisor : Nat := 0x42FE0000
def adaptZeroScale : W16 := 0x0400

/-- A group of an adapter column quantised (R71, R203). -/
def adaptQuantise (ws : List W32) : AdaptGroup :=
  let top := ws.foldl (fun (m : Nat) w => max m (w.toNat % 0x80000000)) 0
  if top < 0x800000 then ⟨adaptZeroScale, ws.map (fun _ => 0), 0⟩
  else
    let scale := (fcvt fp32 fp16 (fdiv fp32 top adaptDivisor).1).1
    let wide := (fcvt fp16 fp32 scale).1
    let q := ws.map (fun w => max (-127) (min 127 (toInt64 (fdiv fp32 w.toNat wide).1).1))
    ⟨BitVec.ofNat 16 scale, q, q.sum⟩

/-- ADAPT_COMMIT (R203 to R205). The new adapter is quantised and written to the inactive half, whose byte layout the spec does not give (log entry 53), or it is discarded.
It waits while that half's stack cannot be reached (R253) or is being copied (R278). -/
def execAdaptCommit (cargo : Byte) (lossBefore : W32) (new : NewAdapter) (s : State) : Host.Outcome State Fault Refusal :=
  .next (match s.jobOf cargo.toNat with
    | some j =>
      if ¬ (s.fwUp ∧ j.phase = 3) then s
      else
        let j := { j with before := lossBefore, after := new.loss }
        match s.cargo? j.cargo with
        | some g =>
          if j.auto && (fcmp fp32 .lt new.loss.toNat lossBefore.toNat).1 && decide (g.adapterOff ≠ 0) then
            let half := ((s.adapters.find? (fun a => a.cargo = j.cargo)).map (fun a => 1 - a.half)).getD 1
            let at_ := g.base + g.adapterOff + half * g.adapterLen
            if (partOf at_).any (fun p => !s.clusterUp p) then s.offAccess at_
            else if s.copying at_ g.adapterLen then s
            else
            let s := s.junkDram at_ g.adapterLen
            let s := s.jobEnd j 0
            { s with jobs := s.jobs ++ [{ j with phase := 4, groups := new.weights.map adaptQuantise }] }
          else s.jobEnd j 1
        | none => s.jobEnd j 1
    | none => s)

/-- ADAPT_START (R206, R253, R258, R437). The losses of a job that is never evaluated are free values (log entry 54). -/
def execAdaptStart (m : Fin 8) (s : State) : Host.Outcome State Fault Refusal :=
  .next (s.answer m 0x0C01 (fun t =>
    let p := t.payload
    let c := field p 0 1
    let id := field p 1 1
    let entry := s.sched.tt.bind (fun tt => tt.entries.find? (fun e => e.id = id))
    let legal := entry.any (fun e => e.cls = 3 && s.sched.src[e.source].kind = 4)
    let g := s.cargo? c
    s.checked
      [(decide (2 ≤ field p 2 1), err 0x8006 (some 2)), (decide (field p 3 1 ≠ 0), err 0x8006 (some 3)),
       (decide (1024 < field p 8 2), err 0x8006 (some 8)),
       (decide (field p 10 2 < 1 ∨ 4096 < field p 10 2), err 0x8006 (some 10)),
       (decide (field p 12 4 < 1 ∨ 1000000 < field p 12 4), err 0x8006 (some 12)),
       (decide (field p 16 4 < 1 ∨ 86400 < field p 16 4), err 0x8006 (some 16)),
       (g.isNone, err 0x8007 (some 0) (some c)), (g.any (fun g => g.owner ≠ t.context), err 0x8004 (some 0) (some c)),
       ((s.region? (field p 4 4)).isNone, err 0x8007 (some 4) (some (field p 4 4))), (!legal, err 0x8901 (some 1) (some id)),
       ((s.jobOf c).isSome, err 0x8401 (some 0) (some c)),
       ((s.region? (field p 4 4)).any (fun x => !s.on (clusterReach x.1)), err 0x8407 (some 4) (some (field p 4 4))),
       (s.regionBusy (field p 4 4), err 0x8401 (some 4) (some (field p 4 4)))]
      (fun s =>
        let (a, s) := s.draw
        let (b, s) := s.draw
        let now := (s.videoRx.map (fun n => s.img.rx[n].frame.toNat)).getD 0
        ({ s with
           jobs := s.jobs ++
             [{ cargo := c, entry := id, owner := t.context, auto := bit (field p 2 1) 0, region := field p 4 4,
                black := field p 8 2, footage := field p 10 2, captured := 0, want := field p 12 4, done := 0, dropped := 0,
                stale := 0, limit := s.now + field p 16 4 * 1000000000, phase := 1, pos := now * 65536 + 65535,
                before := BitVec.ofNat 32 a, after := BitVec.ofNat 32 b, groups := [] }] }, ok []))))

/-- The checks of ADAPT_ABORT and ADAPT_INFO on their cargo. -/
def State.adaptTarget (s : State) (t : Taken) : List (Bool × Reply) :=
  let c := field t.payload 0 1
  [(decide (field t.payload 1 3 ≠ 0), err 0x8006 (some 1)), ((s.cargo? c).isNone, err 0x8007 (some 0) (some c))]

/-- ADAPT_ABORT (R205, R437). -/
def execAdaptAbort (m : Fin 8) (s : State) : Host.Outcome State Fault Refusal :=
  .next (s.answer m 0x0C02 (fun t =>
    let c := field t.payload 0 1
    s.checked
      (s.adaptTarget t ++
        [((s.cargo? c).any (fun g => g.owner ≠ t.context), err 0x8004 (some 0) (some c)),
         ((s.jobOf c).isNone, err 0x8902 (some 0) (some c))])
      (fun s =>
        match s.jobOf c with
        | some j => (s.jobEnd j 2, ok [])
        | none => (s, ok []))))

/-- ADAPT_INFO (R437). -/
def execAdaptInfo (m : Fin 8) (s : State) : Host.Outcome State Fault Refusal :=
  .next (s.answer m 0x0C03 (fun t =>
    s.checked (s.adaptTarget t) (fun s =>
      match s.jobOf (field t.payload 0 1) with
      | some j => (s, ok (leBytes 4 j.phase ++ leBytes 4 j.done ++ leBytes 4 j.dropped ++ w32 j.stale))
      | none => (s, ok (zeros 16)))))

end Sys2Proof.Machine
end

