-- ==== Sys2Proof/Machine/PowerOps.lean ====
section
/-! DEFINITION. Power modes: the reaches of a mode, a mode change's beginning and its end (R12, R522 to R533). -/

namespace Sys2Proof.Machine

/-- Whether a mode powers a reach (the table of power modes; R12). -/
def modePowers (mode : Nat) (link : Bool) (cluster : Fin 4) (r : Fin 10) : Bool :=
  match mode with
  | 0 => r = 0 || (r = 5 && link)
  | 1 => r = 0 || r = 1 || (r = 5 && link)
  | 2 => r = 0 || r = 1 || r = 2 || r = 3 || r = clusterUnit cluster || (r = 5 && link)
  | _ => true

/-- The reaches that the present mode requires (R547). -/
def State.required (s : State) : List (Fin 10) :=
  (List.finRange 10).filter (fun r => modePowers s.pwr.mode s.pwr.linkReq s.pwr.watch r)

/-- The order in which reaches power up (R524); they power down in the reverse order. -/
def upOrder : List (Fin 10) := [3, 1, 2, 6, 7, 8, 9, 4, 5]

/-- The code of what caused a mode change (R545). -/
def ModeBy.code : ModeBy → Nat
  | .cascade => 1
  | .thermal => 2
  | _ => 0

/-- The reply of PWR_MODE (R528). -/
def State.modeReply (s : State) : List Byte := leBytes 1 s.pwr.mode ++ leBytes 2 s.dev.powered.toNat ++ [0]

/-- A mode change is complete (R13, R452, R529, R531): the mode is reported, CONTROL is to power off 10 ms after the reply of the
PWR_MODE that removes it, and the PCIe link of STANDBY and LISTEN enters its low-power state. -/
def State.finishMode (s : State) (c : ModeChange) : State :=
  let s := { s with pwr := { s.pwr with mode := c.new, cause := decide (c.by_.code ≠ 0), change := none } }
  let data := leBytes 1 c.old ++ leBytes 1 c.new ++ leBytes 1 c.by_.code
  let s := ((s.trace 0 7 0x30 0 data).event 0x0801 0 0xFF false data)
  let s := if c.old = c.new then s else s.stateChanged
  let s := if s.on 3 && !modePowers c.new s.pwr.linkReq s.pwr.watch 3 then
      { s with pwr := { s.pwr with ctrlOff := some (s.now + 10000000) } }
    else s
  let s := match c.by_ with
    | .host m => s.replyFor m 0x0801 ⟨if c.dropped then 0x4110 else 0, s.modeReply⟩
    | _ => s
  let s : State := if decide (c.new ≤ 1) && s.pcie.link == 0 then { s with pcie := { s.pcie with link := 1 } } else s
  s.wakeSync

/-- A mode change goes on: it is complete when no reach is left to switch. -/
def State.advanceMode (s : State) : State :=
  match s.pwr.change with
  | some c => if c.down.isEmpty && c.up.isEmpty then s.finishMode c else s
  | none => s

/-- A mode change begins (R524, R529): first the reaches that the new mode does not include power down, then the ones it adds
power up. CONTROL powers down after the reply. -/
def State.beginMode (s : State) (new : Nat) (link : Bool) (cluster : Fin 4) (by_ : ModeBy) : State :=
  let want (r : Fin 10) : Bool := modePowers new link cluster r
  let down := upOrder.reverse.filter (fun r => s.on r.val && !want r && decide (r ≠ 3))
  let up := upOrder.filter (fun r => !s.on r.val && want r)
  State.advanceMode
    { s with
      casc := { s.casc with autoWatch := s.casc.autoWatch && decide (by_ = .cascade) },
      pwr := { s.pwr with
        linkReq := link, watch := if new = 2 then cluster else s.pwr.watch, ctrlOff := none, wake := false,
        change := some { old := s.pwr.mode, new := new, down := down, up := up, by_ := by_, dropped := false } } }

/-- The cascade controller enters WATCH for a stage 1 wake in LISTEN (R541). -/
def State.autoWatch (s : State) : State :=
  if s.pwr.mode = 1 && s.key .cascAutoWatch = 1 && s.pwr.change.isNone && s.pwr.armed.isNone then
    (State.beginMode { s with casc := { s.casc with autoWatch := true } } 2 s.pwr.linkReq (s.stageCluster 0) .cascade).wakeSync
  else s

end Sys2Proof.Machine
end

