-- ==== Sys2Proof/Machine/QmOps.lean ====
section
/-! DEFINITION. The queue manager's side of submission rings: entries, BUFFER entries, host memory (R311, R343, R438 to R445,
R453). -/

namespace Sys2Proof.Machine

/-- The entry at the head of a submission ring that the queue manager can take now: its index and its bytes. None while the
ring is empty, Bus Master Enable is 0, or a completion is held for the paired ring (R445, R453). -/
def State.ringHead (s : State) (r : Nat) : Option (Nat × List Byte) :=
  match assoc s.rings r with
  | some g =>
    let holding := ((assoc s.rings g.pair).map (fun c => !c.held.isEmpty)).getD false
    if g.kind = 1 && g.host ≠ g.dev && s.qmUp && !holding then
      some (g.dev.toNat, s.host.readBytes (g.slot g.dev.toNat) 64)
    else none
  | none => none

/-- The entry at the head of a submission ring is taken. -/
def State.ringTake (s : State) (r : Nat) : State := s.modRing r (fun g => { g with dev := g.dev + 1 })

/-- A stream key names the ring (R439, R444). -/
def State.streamRing (s : State) (r : Nat) : Bool :=
  (List.finRange 2).any (fun n => bit (s.key (.tx n .pcie)) 15 && bits (s.key (.tx n .pcie)) 0 9 = r) ||
    (List.finRange 4).any (fun n => bit (s.key (.tdm n .pcie)) 15 && bits (s.key (.tdm n .pcie)) 0 9 = r)

/-- A BUFFER entry a stream can use (R444): op 0x50, a length that is a multiple of 64 and a 64-byte aligned address. -/
def bufferOk (e : List Byte) : Bool := decide (field e 0 1 = 0x50 ∧ field e 4 4 % 64 = 0 ∧ field e 8 8 % 64 = 0)

/-- Entries at the head of a stream's ring that are no BUFFER entries complete with status 2 (R444); at most `n` of them. -/
def State.dropBad (r : Nat) : Nat → State → State
  | 0, s => s
  | n + 1, s =>
    match s.ringHead r with
    | some (i, e) =>
      if bufferOk e then s else State.dropBad r n ((s.ringTake r).complete r 1 2 i (field e 16 4) 0 [])
    | none => s

/-- The entries of a ring not yet taken. -/
def State.ringLeft (s : State) (r : Nat) : Nat := ((assoc s.rings r).map (fun g => (g.host - g.dev).toNat)).getD 0

/-- A BUFFER entry is taken for a stream (R444): its index, tag, address and length. -/
def State.takeBuffer (s : State) (r : Nat) : State × Option (Nat × Nat × Nat × Nat) :=
  let s := State.dropBad r (s.ringLeft r) s
  match s.ringHead r with
  | some (i, e) => (s.ringTake r, some (i, field e 16 4, field e 8 8, field e 4 4))
  | none => (s, none)

/-- Write host memory, while the function may (R453). -/
def State.hostWrite (s : State) (a : Nat) (l : List Byte) : State :=
  if s.qmUp then { s with host := s.host.writeBytes a l } else s

end Sys2Proof.Machine
end

