-- ==== Sys2Proof/Machine/AudOps.lean ====
section
/-! DEFINITION. Audio: APLL loops, frames of ports, blocks, emission, gains and zero crossings, the listen ring and the
cascade's reading at PDM ticks (R323 to R357, R535 to R543). -/

namespace Sys2Proof.Machine

/-! ### Elements -/

/-- The set bits of a mask, ascending: the slot of each element position (R332). -/
def maskSlots (m : Nat) : List Nat := (List.range 32).filter (fun i => bit m i)

/-- E of a direction. -/
def PortCfg.eIn (c : PortCfg) : Nat := (maskSlots c.inMask).length
def PortCfg.eOut (c : PortCfg) : Nat := (maskSlots c.outMask).length

/-- b: bits of an element. -/
def PortCfg.bits (c : PortCfg) : Nat := if c.elem32 then 32 else 16

/-- The slot stride of a ring of E elements (R335). -/
def PortCfg.stride (c : PortCfg) (e : Nat) : Nat := (64 + c.block * e * (c.bits / 8) + 63) / 64 * 64

/-- An input value of d bits becomes an element of b bits, and an output element a value (R333): scaled by 2^(b − d),
truncated toward zero. -/
def scaleTo (from_ to_ : Nat) (x : Int) : Int :=
  if from_ ≤ to_ then x * (2 ^ (to_ - from_) : Nat) else x.tdiv (2 ^ (from_ - to_) : Nat)

/-! ### Gains, mutes and zero crossings (R334, R353) -/

/-- One element passes its position's change, gain and mute. -/
def Port.gainAt (p : Port) (out : Bool) (pos : Nat) (x : Int) : Port × Int :=
  let prev := (if out then p.prevOut else p.prevIn).getD pos none
  let chg := p.pend.find? (fun z => z.out = out && z.pos = pos)
  let cross := decide (x = 0) || (match prev with
    | some y => decide (x < 0) != decide (y < 0)
    | none => false)
  let slot := (maskSlots (if out then p.cfg.outMask else p.cfg.inMask)).getD pos 0
  let p : Port := match chg with
    | none => p
    | some z =>
      if !cross && !z.forced then p
      else
        let forced := z.forced
        let mark (b : BlkAcc) : BlkAcc :=
          { b with
            zcApplied := b.zcApplied ||| (1#32 <<< slot), zcForced := if forced then b.zcForced ||| (1#32 <<< slot) else b.zcForced }
        let p := if out then
            { p with gainOut := setAt p.gainOut pos z.gain, muteOut := setAt p.muteOut pos z.mute, outBlk := mark p.outBlk }
          else { p with gainIn := setAt p.gainIn pos z.gain, muteIn := setAt p.muteIn pos z.mute, inBlk := mark p.inBlk }
        { p with pend := p.pend.erase z, err := if forced then p.err ||| 0x08 else p.err }
  let g := (if out then p.gainOut else p.gainIn).getD pos 0
  let mute := (if out then p.muteOut else p.muteIn).getD pos false
  let (v, sat) := satInt p.cfg.bits ((x * (g : Nat)).tdiv 4096)
  let p := if out then { p with prevOut := setAt p.prevOut pos (some x) } else { p with prevIn := setAt p.prevIn pos (some x) }
  (if sat && !mute then { p with err := p.err ||| 0x10 } else p, if mute then 0 else v)

/-- A frame of elements passes gains and mutes. -/
def Port.gainFrame (p : Port) (out : Bool) (xs : List Int) : Port × List Int :=
  xs.zipIdx.foldl
    (fun (a : Port × List Int) (x : Int × Nat) =>
      let (q, v) := a.1.gainAt out x.2 x.1
      (q, a.2 ++ [v])) (p, [])

/-- The bytes of elements. -/
def PortCfg.elemBytes (c : PortCfg) (l : List Int) : List Byte := l.flatMap (fun v => leBytes (c.bits / 8) (wrapN c.bits v))

/-! ### Slips (R350) -/

/-- The tick source bound to a port, lowest first (R339). -/
def State.audSource (s : State) (n : Fin 5) : Option (Fin 16) :=
  (List.finRange 16).find? (fun k => s.sched.src[k].kind = 2 && s.sched.src[k].bind = n.val)

/-- The seq of the block a direction has open. -/
def State.openSeq (s : State) (n : Fin 5) (out : Bool) : Nat :=
  let p := s.aud.port[n]
  if out then (p.emit.map (fun e => e.1.seq.toNat)).getD 0
  else
    match s.audSource n with
    | some k => s.sched.src[k].next.toNat % 2 ^ 32
    | none => p.seq.toNat

/-- A slip of a port: `over` a word discarded, else one inserted. -/
def State.slip (s : State) (n : Fin 5) (out over_ : Bool) : State :=
  let s := s.modAud n (fun p =>
    let e := if out then p.cfg.eOut else p.cfg.eIn
    let rot (x : Nat) : Nat := if over_ then (x + e - 1) % e else (x + 1) % e
    let mark (b : BlkAcc) : BlkAcc := { b with flags := b.flags ||| 1, slips := b.slips + 1 }
    let p := if out then { p with sOut := rot p.sOut, outSlips := p.outSlips + 1, outBlk := mark p.outBlk }
      else { p with sIn := rot p.sIn, inSlips := p.inSlips + 1, inBlk := mark p.inBlk }
    { p with err := p.err ||| (if over_ then 1 else 2) })
  let p := s.aud.port[n]
  let b := if out then p.outBlk else p.inBlk
  let s := s.irqSync
  if b.evSent then s
  else
    let s := s.modAud n (fun p =>
      if out then { p with outBlk := { p.outBlk with evSent := true } } else { p with inBlk := { p.inBlk with evSent := true } })
    s.event 0x0501 0 (0x10 + n.val) false
      (leBytes 1 n.val ++ leBytes 1 (b2n out) ++ leBytes 4 (s.openSeq n out) ++ leBytes 1 (if out then p.sOut else p.sIn) ++
        leBytes 1 (min b.slips 255))

/-! ### APLLs (R324 to R329) -/

/-- An APLL is locked: always in FREE mode (R328). -/
def Apll.isLocked (a : Apll) : Bool := a.mode = 0 || a.locked

/-- The SYSTIME grid point nearest a time (R325); of two as near, the earlier (log entry 60). -/
def gridNear (fs phase t : Nat) : Nat :=
  if t ≤ phase then phase
  else
    let d := t - phase
    let sec := d / 1000000000
    let i := d % 1000000000 * fs / 1000000000
    let at_ (j : Nat) : Nat := if j < fs then sec * 1000000000 + j * 1000000000 / fs else (sec + 1) * 1000000000
    let cand := [at_ i, at_ (i + 1)]
    let best := cand.foldl (fun (b c : Nat) => if ((d : Int) - (c : Int)).natAbs < ((d : Int) - (b : Int)).natAbs then c else b)
      (at_ i)
    phase + best

/-- apll_update of R328. Answers the events it logs: lock, unlock. -/
def Apll.update (a : Apll) (kp ki ppm : Nat) (e : Int) : Apll × Bool × Bool :=
  let integ := max (-16777216) (min 16777216 (a.integ + e))
  let w := e * (kp : Nat) + integ * (ki : Nat)
  let lim : Int := (ppm * 4294967296 / 1000000 : Nat)
  let clamped := decide (w > lim ∨ w < -lim)
  let good := if e.natAbs ≤ 64 ∧ ¬ clamped then a.good + 1 else 0
  let run := if clamped then a.clampRun + 1 else 0
  let lock := !a.locked && decide (16 ≤ good)
  let l1 := a.locked || lock
  let unlock := l1 && (decide (512 < e.natAbs) || decide (4 ≤ run))
  ({ a with
     integ := integ, w := max (-lim) (min lim w), clamped := clamped, good := good, clampRun := run, locked := l1 && !unlock },
   lock, unlock)

/-- The running ports on an APLL: TDM ports, and the PDM group that tracks it. -/
def State.apllPorts (s : State) (m : Fin 2) : List (Fin 5) :=
  (List.finRange 5).filter (fun n => s.aud.port[n].running && s.aud.port[n].cfg.apll = m.val)

/-- Set flags in the open blocks of a port. -/
def Port.mark (p : Port) (f : W16) : Port :=
  { p with inBlk := { p.inBlk with flags := p.inBlk.flags ||| f }, outBlk := { p.outBlk with flags := p.outBlk.flags ||| f } }

/-- One error of the loop (R327): every BLOCK errors the loop updates. -/
def State.apllError (s : State) (m : Fin 2) (e : Int) : State :=
  let s := s.modApll m (fun a => { a with errSum := a.errSum + e, errN := a.errN + 1 })
  let a := s.aud.apll[m]
  if a.errN < a.block then s
  else
    let mean := a.errSum.tdiv (a.errN : Nat)
    let (b, lock, unlock) := a.update (s.key (.apll m .kp)) (s.key (.apll m .ki)) (s.key (.apll m .rangePpm)) mean
    let s := s.modApll m (fun _ => { b with errSum := 0, errN := 0 })
    let s := if lock then
        s.event 0x0504 0 (0x10 + m.val) false (leBytes 1 m.val ++ leBytes 4 (wrapN 32 b.w))
      else s
    let s := if unlock then
        s.event 0x0505 0 (0x10 + m.val) false (leBytes 1 m.val ++ leBytes 4 (wrapN 32 b.w) ++ leBytes 4 (wrapN 32 mean))
      else s
    if b.locked then s else (s.apllPorts m).foldl (fun (s : State) n => s.modAud n (fun p => p.mark 0x04)) s

/-- e_k of WCLK and SYSTIME modes (R327). -/
def timeError (fs : Nat) (strobe target : Nat) : Int := (((strobe : Int) - target) * 256 * (fs : Nat)).tdiv 1000000000

/-- Strobes and WCLK edges are paired in order; at most `k` pairs. -/
def State.pairEdges (m : Fin 2) : Nat → State → State
  | 0, s => s
  | k + 1, s =>
    let a := s.aud.apll[m]
    match a.unpaired, a.edges with
    | t :: ts, e :: es =>
      State.pairEdges m k ((s.modApll m (fun a => { a with unpaired := ts, edges := es })).apllError m (timeError a.fs t e))
    | _, _ => s

/-- A port's frames are restart frames (R347, R351): zero frames in, zeros out. -/
def Port.quiet (p : Port) : Bool := p.noClock || decide (2 ≤ p.restart) || (p.restart = 1 && p.silent)

/-- The error of strobe k, before the ports of the domain read (R324, R327). -/
def State.strobeError (s : State) (m : Fin 2) : State :=
  let a := s.aud.apll[m]
  if a.refLost then s else
  match a.mode with
  | 1 =>
    let p := s.aud.port[Fin.ofNat 5 a.port.val]
    if !p.running || p.quiet then s
    else if 0 < p.cfg.eIn then s.apllError m ((((p.inBuf.length : Int) - (4 * p.cfg.eIn : Nat)) * 256).tdiv (p.cfg.eIn : Nat))
    else if 0 < p.cfg.eOut then
      s.apllError m (-((((p.outBuf.length : Int) - (4 * p.cfg.eOut : Nat)) * 256).tdiv (p.cfg.eOut : Nat)))
    else s
  | 2 =>
    let s := s.modApll m (fun a => { a with unpaired := a.unpaired ++ [s.now] })
    State.pairEdges m 1 s
  | 3 => s.apllError m (timeError a.fs s.now (gridNear a.fs a.phase s.now))
  | _ => s

/-! ### Blocks (R335 to R342) -/

/-- Offsets 4 to 63 of a block header (R337). -/
def State.blockHeader (s : State) (n : Fin 5) (out : Bool) (overrun : Nat) : List Byte :=
  let p := s.aud.port[n]
  let b := if out then p.outBlk else p.inBlk
  let rot := if out then p.sOut else p.sIn
  let mask := if out then p.cfg.outMask else p.cfg.inMask
  let mutes := if out then p.muteOut else p.muteIn
  let muted := ((maskSlots mask).zipIdx.map (fun (x : Nat × Nat) => if mutes.getD x.2 false then 2 ^ x.1 else 0)).sum
  let flags := b.flags.toNat ||| (2 * b2n (decide (rot ≠ 0))) ||| (256 * b2n (decide (b.zcForced ≠ 0)))
  let w := if n = 4 then s.aud.pdmW else s.aud.apll[Fin.ofNat 2 p.cfg.apll].w
  leBytes 1 (n.val + 128 * b2n out) ++ leBytes 1 p.cfg.block ++ leBytes 1 (if out then p.cfg.eOut else p.cfg.eIn) ++
    leBytes 1 (b2n p.cfg.elem32) ++ leBytes 8 b.stamp ++ leBytes 2 flags ++ leBytes 2 overrun ++ leBytes 1 rot ++
    leBytes 1 (min b.slips 255) ++ leBytes 2 (if p.cfg.slave then b.fill else 0) ++ leBytes 4 (wrapN 32 w) ++
    w32 b.zcApplied ++ w32 b.zcForced ++ leBytes 4 muted

/-- The look-ahead A of an entry's cargo. -/
def State.lookAhead (s : State) (entry : Nat) : Nat :=
  ((s.sched.tt.bind (fun t => t.entries.find? (fun e => e.id = entry))).bind (fun e => s.cargo? e.cargo)).elim 0 (·.audioA)

/-- Output blocks that answer an input block just completed (R343). -/
def State.queueOutputs (s : State) (k : Fin 16) (seq count : Nat) : State :=
  (List.finRange 5).foldl
    (fun (s : State) n =>
      let p := s.aud.port[n]
      if !p.running || p.cfg.eOut = 0 || p.cfg.outTick ≠ k.val || !s.active then s
      else
        let a := s.lookAhead p.cfg.outEntry
        let m := s.aud.apll[Fin.ofNat 2 p.cfg.apll]
        let wait := (1 + a) * p.cfg.block + (s.key .audAlign * m.fs + 999999) / 1000000
        s.modAud n (fun p => { p with outs := p.outs ++ [⟨BitVec.ofNat 32 seq, m.strobes + wait, count + a⟩] })) s

/-- An input block closes: it is written whole, and its tick raised (R338, R339, R342, R497). -/
def State.closeInput (s : State) (n : Fin 5) : State :=
  let p := s.aud.port[n]
  let e := p.cfg.eIn
  let seq := s.openSeq n false
  let fresh (s : State) : State :=
    s.modAud n (fun p => { p with inBlk := { BlkAcc.reset with stamp := s.now }, seq := p.seq + 1 })
  if e = 0 then fresh s
  else
    let place := (audPlace p.cfg.inRing).plus (seq % p.cfg.inK * p.cfg.stride e)
    let s := if s.audUp place then
        s.audWrite place (leBytes 4 seq ++ s.blockHeader n false 0 ++ zeros 24 ++ p.inBlk.samples)
      else s.audErr n 0x40
    let s := s.modAud n (fun p => { p with lastSeq := BitVec.ofNat 32 seq })
    match s.audSource n with
    | none => fresh s
    | some k =>
      let srcs := (List.finRange 16).filter (fun j => s.sched.src[j].kind = 2 && s.sched.src[j].bind = n.val)
      let s := if s.tooSoon k then s else s.audioStreams n.val place (p.cfg.stride e) seq p.inBlk.stamp
      let s := srcs.foldl
        (fun (s : State) j => if s.tooSoon j then s else s.queueOutputs j seq s.sched.src[j].next.toNat) s
      srcs.foldl (fun (s : State) j => s.raiseTick j false TickInfo.plain) (fresh s)

/-- One frame of elements enters the input block (R334, R337). `flags`: of the frame; `stamp`: of the block it begins. -/
def State.inFrame (s : State) (n : Fin 5) (xs : List Int) (flags : W16) (fill : Nat) (stamp : Option Nat) : State :=
  let p := s.aud.port[n]
  let (p, vals) := p.gainFrame false xs
  let b := p.inBlk
  let p := { p with
    inBlk := { b with
      flags := b.flags ||| flags, fill := fill, frame := b.frame + 1, samples := b.samples ++ p.cfg.elemBytes vals,
      stamp := if b.frame = 0 then stamp.getD b.stamp else b.stamp } }
  State.irqSync (s.modAud n (fun _ => p))

/-! ### Emission (R343 to R346) -/

/-- A running port stops being emitted into: its output block ends (R338, R444). -/
def State.closeOutput (s : State) (n : Fin 5) (b : OutBlk) : State :=
  let p := s.aud.port[n]
  let place := (audPlace p.cfg.outRing).plus (b.seq.toNat % p.cfg.outK * p.cfg.stride p.cfg.eOut)
  let over_ := overrunWord (s.ovrWindow (Fin.ofNat 16 p.cfg.outTick) b.tick b.tick)
  let hdr := s.blockHeader n true over_
  let s := if s.audUp place then s.audWrite (place.plus 4) hdr else s
  let s := if !bit p.cfg.pcie 15 then s
    else
      let r := bits p.cfg.pcie 0 9
      match s.takeBuffer r with
      | (s, some (i, tag, a, len)) =>
        let data := leBytes 4 b.seq.toNat ++ hdr ++ zeros 24 ++ p.outBlk.samples
        (s.hostWrite a (data.take len)).complete r 3 (if len < data.length then 3 else 0) i tag (min len data.length) []
      | (s, none) => s
  s.modAud n (fun p =>
    { p with
      emit := none, outBlk := { BlkAcc.reset with stamp := s.now }, done := p.done.filter (fun q => q ≠ b.seq),
      bypassed := p.bypassed.filter (fun q => q ≠ b.seq) })

/-- How a block is emitted (R342, R344). -/
def State.emitMode (s : State) (n : Fin 5) (b : OutBlk) : EmitMode :=
  let p := s.aud.port[n]
  if decide (b.seq ∈ p.bypassed) then .bypass
  else if decide (b.seq ∈ p.done) && s.audUp (audPlace p.cfg.outRing) then .ready
  else .subst

/-- Element e of frame i of a block in emission. -/
def State.emitElem (s : State) (n : Fin 5) (b : OutBlk) (mode : EmitMode) (i e : Nat) : Int :=
  let p := s.aud.port[n]
  let rd (c : PortCfg) (ring k el j x : Nat) : Int :=
    let place := (audPlace ring).plus (j % k * c.stride el + 64 + (i * el + x) * (c.bits / 8))
    if s.audUp place then sgn c.bits (leVal (s.audRead place (c.bits / 8))) else 0
  match mode with
  | .ready => rd p.cfg p.cfg.outRing p.cfg.outK p.cfg.eOut b.seq.toNat e
  | _ =>
    let m := (p.cfg.bypass.getD e 0xE0).toNat
    if 4 < m / 32 then 0
    else
      let q := (s.aud.port[Fin.ofNat 5 (m / 32)]).cfg
      if m % 32 < q.eIn then scaleTo q.bits p.cfg.bits (rd q q.inRing q.inK q.eIn b.seq.toNat (m % 32)) else 0

/-- The output words of a strobe: of the frame in emission, else zeros. -/
def State.outFrame (s : State) (n : Fin 5) : State × List Int :=
  let p := s.aud.port[n]
  match p.emit with
  | some (b, mode, i) =>
    let xs := (List.range p.cfg.eOut).map (fun e => if s.active then s.emitElem n b mode i e else 0)
    let (q, vals) := p.gainFrame true xs
    let q := { q with
      emit := some (b, mode, i + 1),
      outBlk := { q.outBlk with
        frame := i + 1, fill := p.outBuf.length, samples := q.outBlk.samples ++ q.cfg.elemBytes vals,
        flags := q.outBlk.flags ||| (if s.timeUnlocked then 0x800 else 0) ||| (if p.noClock then 0x08 else 0) } }
    (State.irqSync (s.modAud n (fun _ => q)), vals)
  | none =>
    let (q, vals) := p.gainFrame true (List.replicate p.cfg.eOut 0)
    (State.irqSync (s.modAud n (fun _ => q)), vals)

/-- Words go to the output buffer of a port (R349), or the FIFO of a master, which holds four frames. -/
def State.pushOut (s : State) (n : Fin 5) (vals : List Int) : State :=
  let c := s.aud.port[n].cfg
  let ws := vals.map (fun v => BitVec.ofInt 32 (scaleTo c.bits c.dataBits v))
  if c.slave then
    ws.foldl (fun (s : State) w =>
      if 8 * c.eOut ≤ s.aud.port[n].outBuf.length then s.slip n true true
      else s.modAud n (fun p => { p with outBuf := p.outBuf ++ [w] })) s
  else s.modAud n (fun p => { p with outBuf := (p.outBuf ++ ws).drop (p.outBuf.length + ws.length - 4 * c.eOut) })

/-- The next block to emit begins at its strobe (R343, R344); outside RUNNING and DEGRADED none does. Its header starts afresh, but
for a restart that took effect at this strobe. -/
def State.beginEmit (s : State) (n : Fin 5) (strobes : Nat) : State :=
  let p := s.aud.port[n]
  match p.outs with
  | b :: rest =>
    if strobes < b.start then s
    else if !s.active then s.modAud n (fun p => { p with outs := rest })
    else
      let mode := s.emitMode n b
      let f : W16 := match mode with
        | .ready => 0
        | .bypass => 0x40
        | .subst => 0x80
      let s := s.modAud n (fun p =>
        { p with
          outs := rest, emit := some (b, mode, 0),
          outBlk := { BlkAcc.reset with stamp := s.now, flags := (p.outBlk.flags &&& 0x10) ||| f } })
      if mode = .subst then s.audErr n 0x20 else s
  | [] => s

/-- The output side of a port at a strobe. -/
def State.portOut (s : State) (n : Fin 5) : State :=
  let p := s.aud.port[n]
  if p.cfg.eOut = 0 then s else
  let strobes := s.aud.apll[Fin.ofNat 2 p.cfg.apll].strobes
  let s := if p.noClock || p.restart = 2 || (p.restart = 1 && p.silent) then (s.outFrame n).1
    else
      let (s, vals) := s.outFrame n
      s.pushOut n vals
  let s := match s.aud.port[n].emit with
    | some (b, _, i) => if p.cfg.block ≤ i then s.closeOutput n b else s
    | none => s
  if s.aud.port[n].emit.isNone then s.beginEmit n strobes else s

/-- The PDM clocks run (R357). -/
def State.pdmRuns (s : State) : Bool := s.on 1 && (s.aud.pdmClk || !s.aud.vaux.enabled)

/-- An APLL drives WCLKm: a square wave that rises at each strobe (R326). Else WCLKm is an input or high impedance. -/
def Apll.drives (a : Apll) : Bool := a.started && a.wclkOut && decide (a.mode ≠ 2)

/-- A strobe of an APLL is no strobe yet: it waits for a PDM frame boundary (R356). -/
def State.strobeWaits (s : State) (m : Fin 2) : Bool :=
  s.aud.apll[m].align && s.pdmRuns && decide (s.aud.pdmAt ≠ some s.now)

/-- The AUDIO reach powers up with PDM frames running: the APLL they track makes its first strobe on a PDM frame boundary
(R356). -/
def State.alignApll (s : State) : State :=
  let k := s.pdmCfg.apll
  if s.pdmRuns && decide (k < 2) then s.modApll (Fin.ofNat 2 k) (fun a => { a with align := true }) else s

/-! ### Frames -/

/-- A port starts (R341, R358): its frame and block begin at this strobe. Slaves start by a restart (R347). -/
def State.startPort (s : State) (n : Fin 5) : State :=
  s.modAud n (fun p =>
    { p with
      running := true, startAfter := none, stopping := false, restart := if p.cfg.slave then 2 else 0, silent := false,
      inBuf := [], outBuf := [], sIn := 0, sOut := 0, seq := 0, noClock := false, lastFs := s.now,
      inBlk := { BlkAcc.reset with stamp := s.now }, outBlk := { BlkAcc.reset with stamp := s.now }, outs := [], emit := none,
      done := [], bypassed := [],
      lastOut := (List.range 32).map (fun k => if p.cfg.hiz && !bit p.cfg.outMask k then none else some 0) })

/-- A mailbox's AUD_PORT_START or AUD_PORT_STOP completes when its ports have started or stopped (R434). -/
def State.audSettle (s : State) : State :=
  let named (m : Fin 8) : List (Fin 5) :=
    (List.finRange 5).filter (fun n => bit ((s.mboxes[m].flight.map (fun f => f.args.getD 0 0)).getD 0) n.val)
  let ready (m : Fin 8) : Bool := match s.mboxes[m].taken with
    | some t =>
      (t.command = 0x0601 && (named m).all (fun n => s.aud.port[n].running)) ||
        (t.command = 0x0602 && (named m).all (fun n => !s.aud.port[n].running && s.aud.port[n].startAfter.isNone))
    | none => false
  s.replyAll ((s.flights (fun c _ => c = 0x0601 || c = 0x0602)).filter ready) (ok [])

/-- A port stops at its block boundary (R434); while its reach is to power off it will start again (R529). -/
def State.stopPort (s : State) (n : Fin 5) (again : Bool) : State :=
  let s := s.modAud n (fun p =>
    { p with
      running := false, stopping := false, startAfter := if again then some 0 else none, outs := [], emit := none, restart := 0,
      noClock := false, inBuf := [], outBuf := [], sIn := 0, sOut := 0 })
  let s := (List.finRange 2).foldl
    (fun (s : State) m =>
      if (s.apllPorts m).isEmpty && !(s.aud.port.toList.any (fun (p : Port) => p.startAfter.isSome && p.cfg.apll = m.val)) then
        s.modApll m (fun a => { a with started := false, wclkRise := none })
      else s) s
  s.audSettle

/-- The AUDIO reach is to power off. -/
def State.audQuiescing (s : State) : Bool := (s.pwr.change.map (fun c => decide ((2 : Fin 10) ∈ c.down))).getD false

/-- What follows when a port has closed a block: it stops, or begins the restart that waits (R347, R434, R529). -/
def State.boundary (s : State) (n : Fin 5) : State :=
  let p := s.aud.port[n]
  if p.stopping then s.stopPort n false
  else if n ≠ 4 && s.audQuiescing then s.stopPort n true
  else if p.restart = 1 then
    s.modAud n (fun p => { p with restart := 2, silent := false, inBuf := [], outBuf := [], sIn := 0, sOut := 0 })
  else s

/-- The words of an input frame of a slave (R348): positions, the oldest word first. Answers also the FS edge of element 0. -/
def State.takeWords (n : Fin 5) : Nat → State → State × List W32 × Option Nat
  | 0, s => (s, [], none)
  | k + 1, s =>
    match s.aud.port[n].inBuf with
    | (w, t) :: rest =>
      let (s, ws, _) := State.takeWords n k (s.modAud n (fun p => { p with inBuf := rest }))
      (s, w :: ws, some t)
    | [] =>
      let (s, ws, t) := State.takeWords n k (s.slip n false false)
      (s, 0 :: ws, t)

/-- A slave port at a strobe resumes reading once its buffers hold four frames (R347). -/
def Port.resume (p : Port) : Port :=
  if p.restart = 3 ∧ 4 * p.cfg.eIn ≤ p.inBuf.length ∧ 4 * p.cfg.eOut ≤ p.outBuf.length then
    { p with restart := 0, sIn := 0, sOut := 0 }.mark 0x10
  else p

/-- The input side of a TDM port at a strobe (R333, R337, R340, R347, R348, R351). A block of a slave that begins with a zero
frame has no external frame for its stamp: a free value. -/
def State.portIn (s : State) (n : Fin 5) : State :=
  let s := s.modAud n Port.resume
  let p := s.aud.port[n]
  let e := p.cfg.eIn
  let common : W16 := if s.timeUnlocked then 0x800 else 0
  let el (w : W32) : Int := scaleTo p.cfg.dataBits p.cfg.bits (sgn p.cfg.dataBits w.toNat)
  let s := if p.quiet then
      let (v, s) := s.draw
      s.inFrame n (List.replicate e 0) (common ||| 0x20 ||| (if p.noClock then 0x08 else 0)) p.inBuf.length (some (v % 2 ^ 64))
    else if p.cfg.slave then
      let (s, ws, t) := State.takeWords n e s
      let (v, s) := if t.isNone then s.draw else (0, s)
      s.inFrame n (ws.map el) common p.inBuf.length (some (t.getD (v % 2 ^ 64)))
    else
      let ws := (List.range e).map (fun i => ((p.inBuf[i]?).map (·.1)).getD 0)
      (s.inFrame n (ws.map el) common 0 none).modAud n (fun p => { p with inBuf := List.replicate e (0, 0) })
  if s.aud.port[n].inBlk.frame < p.cfg.block then s else s.closeInput n

/-- A TDM port at a strobe of its APLL. What befell its output side before this strobe belongs to no block when none is in
emission. -/
def State.portStrobe (s : State) (n : Fin 5) : State :=
  let s := s.modAud n (fun p => if p.emit.isNone then { p with outBlk := BlkAcc.reset } else p)
  let before := s.aud.port[n].inBlk.frame
  let s := (s.portIn n).portOut n
  if before + 1 < s.aud.port[n].cfg.block then s else s.boundary n

/-! ### The listen ring and the cascade at a PDM tick (R535 to R543) -/

/-- The track samples of a PDM block as INT16: those of PDM elements; of a track with no source a free value (log entry 61); of
a DSP0 track zeros until it is filled. -/
def State.trackBytes (s : State) (epoch : Nat) (samples : List Byte) (i t : Nat) : List Byte :=
  let c := s.aud.port[(4 : Fin 5)].cfg
  let src := s.key (.cascTrackSrc (Fin.ofNat 4 t))
  if src < 0x10 then
    if src < c.eIn then
      leBytes 2 (wrapN 16 (scaleTo c.bits 16 (sgn c.bits (field samples ((i * c.eIn + src) * (c.bits / 8)) (c.bits / 8)))))
    else zeros 2
  else if src = 0x80 then zeros 2
  else [Config.freeByte epoch (8 * i + 2 * t), Config.freeByte epoch (8 * i + 2 * t + 1)]

/-- The DSP0 tracks of a record, taken at the tick after its block (R536). -/
def State.fillTrack (s : State) (r : RingRec) : RingRec :=
  let t := s.key .cascTracks
  let n := s.pdmCfg.block
  let tracks := (List.range t).filter (fun k => s.key (.cascTrackSrc (Fin.ofNat 4 k)) = 0x80)
  if tracks.isEmpty then r
  else
    let stride := (64 + n * 2 + 63) / 64 * 64
    let place := (audPlace (s.key .cascDspTrack)).plus (r.seq.toNat % s.key .cascDspK * stride)
    let good := s.audUp place && decide (leVal (s.audRead place 4) = r.seq.toNat)
    if !good then { r with rflags := r.rflags ||| 1 }
    else
      let track := s.audRead (place.plus 64) (2 * n)
      { r with
        data := (List.range n).flatMap (fun i => (List.range t).flatMap (fun k =>
          if k ∈ tracks then (track.drop (2 * i)).take 2 else (r.data.drop (2 * (i * t + k))).take 2)) }

/-- A record enters the ring (R535). -/
def State.ringAdd (s : State) (r : RingRec) : State :=
  let n := s.pdmCfg.block
  let cap := (4 * s.pdmCfg.fs + n - 1) / n
  let l := s.casc.ring ++ [r]
  { s with casc := { s.casc with ring := l.drop (l.length - cap), writing := true } }

/-- The listen ring at the tick of a PDM block (R535 to R537): its record, with a DSP0 track one tick later. -/
def State.listenTick (s : State) (seq stamp : Nat) (flags : W16) (samples : List Byte) : State :=
  let t := s.key .cascTracks
  let n := s.pdmCfg.block
  let (k, s) := s.newEpoch
  let r : RingRec :=
    { seq := BitVec.ofNat 32 seq, flags := flags, rflags := 0, stamp := stamp,
      data := (List.range n).flatMap (fun i => (List.range t).flatMap (fun x => s.trackBytes k samples i x)) }
  if (List.range t).any (fun k => s.key (.cascTrackSrc (Fin.ofNat 4 k)) = 0x80) then
    let s := match s.casc.held with
      | some h => s.ringAdd (s.fillTrack h)
      | none => s
    { s with casc := { s.casc with held := some r } }
  else s.ringAdd r

/-- A wake of stage n + 2 (R541, R545): served at once, or held; a stage 1 wake in LISTEN makes the sequencer enter WATCH. -/
def State.cascWake (s : State) (n : Fin 2) (w : Nat × W16 × W16) : State :=
  let idle := (s.casc.stage[n].session).isNone && s.casc.stage[n].pending.isNone && !s.casc.ring.isEmpty
  if s.stageUp n && idle && s.pwr.change.isNone then s.startSession n w false
  else
    let s := s.holdWake n w
    if n = 0 && !s.stageUp n then s.autoWatch else s

/-- An answer of stage n + 2 (R543). -/
def State.cascResult (s : State) (n : Fin 2) (x : Session) (code len addr : Nat) : State :=
  let s := s.modStage n (fun t => { t with session := none })
  let s := s.dropWaiters (fun w => w.who = .replay n)
  let s := { s with casc := { s.casc with result := true } }
  (s.event 0x0803 0 0xFF false
    (leBytes 1 (n.val + 2) ++ w32 x.num ++ leBytes 2 code ++ leBytes 4 len ++ leBytes 8 addr)).wakeSync

/-- The controller reads the record of stage i + 1 (R538); a stage whose record key is 0 is not in use (log entry 81). -/
def State.stageRead (s : State) (i : Fin 3) : State :=
  let place := audPlace (s.key (.cascRec i))
  if s.key (.cascRec i) = 0 || !s.audUp place then s
  else
    let l := s.audRead place 48
    let wake : W32 := BitVec.ofNat 32 (field l 0 4)
    let done : W32 := BitVec.ofNat 32 (field l 16 4)
    let w0 := s.casc.wakeSeen.getD i.val none
    let d0 := s.casc.doneSeen.getD i.val none
    let s := { s with
      casc := { s.casc with
        wakeSeen := setAt s.casc.wakeSeen i.val (some wake), doneSeen := setAt s.casc.doneSeen i.val (some done) } }
    let s := match i with
      | 0 => s
      | _ =>
        let n : Fin 2 := if i = 1 then 0 else 1
        match s.casc.stage[n].session, d0 with
        | some x, some d => if d = done then s else s.cascResult n x (field l 4 2) (field l 20 4) (field l 24 8)
        | _, _ => s
    if i = 2 then s
    else
      match w0 with
      | some w =>
        if w = wake then s
        else s.cascWake (if i = 0 then 0 else 1) (field l 8 8, BitVec.ofNat 16 (field l 4 2), BitVec.ofNat 16 (field l 6 2))
      | none => s

/-- The cascade at a PDM block tick (R538, R541): stage records, then pending wakes that can be served. -/
def State.cascTick (s : State) : State :=
  let waiting := (List.finRange 2).filter (fun n => s.casc.stage[n].pending.isSome)
  let s := (List.finRange 3).foldl State.stageRead s
  waiting.foldl
    (fun (s : State) n =>
      match s.casc.stage[n].pending with
      | some w =>
        if s.stageUp n && (s.casc.stage[n].session).isNone && s.pwr.change.isNone && !s.casc.ring.isEmpty then
          s.startSession n w true
        else s
      | none => s) s

end Sys2Proof.Machine
end

