-- ==== Sys2Proof/Machine/ImgOps.lean ====
section
/-! DEFINITION. The imaging front end inbound: preparation, bands, histograms and row-group ticks (R118 to R122, R285 to R304). -/

namespace Sys2Proof.Machine

/-! ### Raw preparation (R292 to R294) -/

/-- Bits per pixel of an input data type. -/
def rawBits (dt : Nat) : Nat :=
  match dt with
  | 0x2B => 10
  | 0x2C => 12
  | 0x2D => 14
  | _ => 16

/-- Flags of a table block: lin_on 0, shade_on 1, defect_on 2. -/
def tblFlag (t : Option Mem) (i : Nat) : Bool := (t.map (fun m => bit (m.le 0 1) i)).getD false

/-- A number of a table block. -/
def tblLe (t : Option Mem) (off n : Nat) : Nat := (t.map (fun m => m.le off n)).getD 0

/-- The defect columns of row r. -/
def defects (t : Option Mem) (r : Nat) : List Nat :=
  if !tblFlag t 2 then []
  else (List.range (tblLe t 4 4)).filterMap (fun i =>
    let d := tblLe t (34496 + 4 * i) 4
    if d / 65536 = r then some (d % 65536) else none)

/-- defect_fill of R293 at column c of row r; `bad`: the defects of the row, `old`: the row r − 2 after its fill. -/
def defectFill (bad raw : List Nat) (old : Option (List Nat)) (w c : Nat) : Nat :=
  let px (i : Nat) : Nat := raw.getD i 0
  let lok := decide (2 ≤ c) && !decide (c - 2 ∈ bad)
  let rok := decide (c + 2 < w) && !decide (c + 2 ∈ bad)
  if lok && rok then (px (c - 2) + px (c + 2)) / 2
  else if lok then px (c - 2)
  else if rok then px (c + 2)
  else ((old.map (fun l => l.getD c 0)).getD (px c))

/-- A row after the defect fill. -/
def cleanRow (bad raw : List Nat) (old : Option (List Nat)) (w : Nat) : List Nat :=
  raw.zipIdx.map (fun (x : Nat × Nat) => if x.2 ∈ bad then defectFill bad raw old w x.2 else x.1)

/-- prep_pixel of R292 on a pixel after its fill: the prepared value and sat. -/
def prepPixel (t : Option Mem) (black : List Nat) (b r c x : Nat) : Nat × Bool :=
  let ph := r % 2 * 2 + c % 2
  let v0 := x * 2 ^ (16 - b) - black.getD ph 0
  let lin (i : Nat) : Int := (tblLe t (64 + 2 * i) 2 : Nat)
  let v1 := if tblFlag t 0 then (lin (v0 / 256) + ((lin (v0 / 256 + 1) - lin (v0 / 256)) * (v0 % 256 : Nat)).tdiv 256).toNat
    else v0
  let v2 := if tblFlag t 1 then
      let a := tblLe t 1 1
      let e := tblLe t 2 1
      let (sx, gx, fx) := (2 ^ a, c / 2 ^ a, c % 2 ^ a)
      let (sy, gy, fy) := (2 ^ e, r / 2 ^ e, r % 2 ^ e)
      let g (y x : Nat) : Nat := tblLe t (640 + 2 * ((ph * 65 + y) * 65 + x)) 2
      let n := g gy gx * (sx - fx) * (sy - fy) + g gy (gx + 1) * fx * (sy - fy) + g (gy + 1) gx * (sx - fx) * fy +
        g (gy + 1) (gx + 1) * fx * fy
      min 65535 (v1 * (n / 2 ^ (a + e)) / 4096)
    else v1
  (v2, decide (x = 2 ^ b - 1))

/-- v × 2⁻ˢ in the band element format (R296, R59, R60). -/
def bandElem (x : RxCfg) (v : Nat) : Nat := ((if x.out = 1 then bf16 else fp16).round false v (-(x.shift : Int))).1

/-! ### Geometry -/

/-- The ROWGROUP sources bound to a receiver. -/
def State.rowSources (s : State) (n : Fin 2) : List (Fin 16) :=
  (List.finRange 16).filter (fun k => s.sched.src[k].kind = 1 && Fin.ofNat 2 s.sched.src[k].bind = n)

/-- g of a receiver (R297): the row count its sources share, or 16. -/
def State.rowsPer (s : State) (n : Fin 2) : Nat :=
  ((s.rowSources n).head?.map (fun k => s.sched.src[k].count)).getD 16

/-- Rows of the plane of a receiver. -/
def RxCfg.planeH (x : RxCfg) : Nat := if x.layout = 1 then x.height / 2 else x.height

/-- Channels of a plane. -/
def RxCfg.chans (x : RxCfg) : Nat := if x.layout = 1 then 4 else 1

/-- Sensor rows of a plane row. -/
def RxCfg.perRow (x : RxCfg) : Nat := if x.layout = 1 then 2 else 1

/-- A run's program reads the band slots (R122, R140): one of its stacks has flags bit [0]. -/
def State.readsBands (s : State) (r : Run) : Bool :=
  let alt := if r.phase = .running then r.alt else s.useAlt r.entry r.r31
  match s.point? r.entry alt with
  | some p =>
    (s.execsOf r.entry.cluster p.programOff (p.programLen / 4) (p.programLen / 4)).any (fun a =>
      let h := s.shareBytes r.entry.cluster 0 a 4
      field h 0 1 = 0x20 && bit (field h 3 1) 0)
  | none => false

/-- Slot k of the bands of a cluster is held (R122): by a run not yet ended whose INGEST reads it. -/
def State.slotHeld (s : State) (n : Fin 2) (c : Fin 4) (k : Nat) : Bool :=
  let g := s.rowsPer n
  s.sched.runs.any (fun r =>
    r.entry.cluster = c && s.runRx r = some n && decide (0 < r.info.rows) &&
      decide (r.info.row0 / g % s.img.rx[n].cfg.slots = k) && s.readsBands r)

/-! ### Errors -/

/-- A condition of IMG_RX_ERR (R286, R322): its bit, and for `ev` the first time in a frame the event. -/
def State.rxErr (s : State) (n : Fin 2) (i : Nat) (ev : Bool) : State :=
  let s := State.irqSync (s.modRx n (fun x => { x with err := x.err ||| (1#7 <<< i) }))
  if ev && !s.img.rx[n].errSeen then
    let x := s.img.rx[n]
    (s.modRx n (fun x => { x with errSeen := true })).event 0x0401 0 (0x10 + n.val) false
      (leBytes 1 n.val ++ leBytes 4 x.err.toNat ++ w32 x.frame)
  else s

/-- The record of the frame in progress, changed. -/
def State.modFrame (s : State) (n : Fin 2) (f : FrameRec → FrameRec) : State :=
  { s with
    img := { s.img with
      frames := vmod s.img.frames n (fun (l : List FrameRec) => match l with
        | x :: t => f x :: t
        | [] => []) } }

/-! ### Histograms (R304) -/

/-- Add to a counter of a list. -/
def bump (l : List (Nat × Nat)) (i v : Nat) : List (Nat × Nat) := assocSet l i ((assoc l i).getD 0 + v)

/-- Whether a CFA phase is green. -/
def greenPhase (cfa ph : Nat) : Bool :=
  match cfa with
  | 0 => decide (ph = 1 ∨ ph = 2)
  | 3 => decide (ph = 1 ∨ ph = 2)
  | 4 => true
  | _ => decide (ph = 0 ∨ ph = 3)

/-- A received row enters the histogram of its frame. -/
def Rx.histRow (x : Rx) (row : List (Nat × Bool)) : Rx :=
  let r := x.row
  let zr := r * 16 / x.cfg.height
  let x := row.zipIdx.foldl
    (fun (x : Rx) (p : (Nat × Bool) × Nat) =>
      let c := p.2
      let v := p.1.1
      let ph := r % 2 * 2 + c % 2
      let z := zr * 16 + c * 16 / x.cfg.width
      { x with
        bins := bump x.bins (ph * 256 + v / 256) 1,
        zones := (let l := if greenPhase x.cfg.cfa ph then bump x.zones (2 * z) (v / 16) else x.zones
          if p.1.2 then bump l (2 * z + 1) 1 else l),
        sat := x.sat + b2n p.1.2 }) x
  { x with histRows := x.histRows + 1 }

/-- Write the record of a frame. -/
def State.histWrite (s : State) (n : Fin 2) : State :=
  let x := s.img.rx[n]
  let c : Fin 4 := Fin.ofNat 4 (bits x.cfg.histAddr 24 2)
  let a := bits x.cfg.histAddr 0 24 + x.frame.toNat % 2 * 8192
  if !s.clusterUp c then s else
  let hdr := w32 x.frame ++ leBytes 4 x.histRows ++ leBytes 8 x.sof.toNat ++ leBytes 4 x.sat ++ zeros 44
  let s := s.modCl c (fun k => { k with mem := k.mem.zero a 6208 })
  let s := s.clWrite c a hdr
  let s := x.bins.foldl (fun (s : State) (b : Nat × Nat) => s.clWrite c (a + 64 + 4 * b.1) (leBytes 4 b.2)) s
  x.zones.foldl (fun (s : State) (b : Nat × Nat) => s.clWrite c (a + 4160 + 4 * b.1) (leBytes 4 b.2)) s

/-! ### Row-group ticks (R21, R22, R298) -/

/-- D of a transmitter under a timetable (R307): L + S + 1 of the cargo of its entry. -/
def State.txDelay (s : State) (tt : Option Timetable) (entry : Nat) : Option Nat :=
  ((tt.bind (fun t => t.entries.find? (fun e => e.id = entry))).bind (fun e => s.cargo? e.cargo)).map
    (fun g => g.videoL + g.videoS + 1)

/-- The tick of an input row-group gives the transmitters of its chain an output row-group to emit (R307). -/
def State.txQueue (s : State) (n : Fin 2) (k : Fin 16) (count : Nat) (t : RowTick) : State :=
  (List.finRange 2).foldl
    (fun (s : State) m =>
      let c := s.img.tx[m].cfg
      let e := s.sched.tt.bind (fun tt => tt.entries.find? (fun e => e.id = c.entry))
      if c.src = n.val + 1 && s.active && decide (e.map (·.source) = some k) then
        match s.txDelay s.sched.tt c.entry with
        | some d =>
          let g := s.rowsPer n
          let iv := s.srcInterval k
          s.modTx m (fun x =>
            { x with
              groups := x.groups ++
                [{ frame := t.info.frame, group := t.info.row0 / g,
                   rows := if t.info.rows = g then c.group else t.info.rows * c.group / g, start := s.now * 1000 + d * iv,
                   iv := iv, tick := count, last := t.info.last }] })
        | none => s
      else s) s

/-- The tick of a row-group is raised on every source bound to the receiver. The tick that carries the last-row marker sets
the BLANK ticks to come (R21), unless the next frame has begun, and the frame's last_time; with the frame's first tick stand the
adapters its rows are processed with (R204, R313). -/
def State.rowTick (s : State) (n : Fin 2) (t : RowTick) : State :=
  let s := (s.rowSources n).foldl
    (fun (s : State) k =>
      if s.tooSoon k && !t.exempt then s.raiseTick k false t.info
      else
        let count := s.sched.src[k].next.toNat
        let x := s.img.rx[n]
        let s := if t.info.last then
            { s with
              img := { s.img with
                frames := vmod s.img.frames n (fun (l : List FrameRec) => l.map (fun (f : FrameRec) =>
                  if f.frame = t.info.frame ∧ f.lastTime = none then { f with lastTime := some s.now } else f)) },
              sched := { s.sched with
                src := vmod s.sched.src k (fun y =>
                  if x.frame.toNat = t.info.frame ∨ x.row = 0 then
                    { y with
                      blanks := (((x.cfg.lines - x.cfg.height) * x.cfg.linePs : Nat) / s.srcIntervalQ k).floor.toNat, blankNo := 0,
                      blankAt := s.now }
                  else y) } }
          else s
        (s.txQueue n k count t).raiseTick k t.exempt { t.info with ended := x.heights }) s
  let s := if t.info.first then
      { s with
        img := { s.img with
          frames := vmod s.img.frames n (fun (l : List FrameRec) => l.map (fun (f : FrameRec) =>
            if f.frame = t.info.frame then { f with gens := s.adapters.map (fun (a : Adapter) => (a.cargo, a.generation)) } else f)) } }
    else s
  if t.info.last then
    s.modRx n (fun x => { x with heights := (t.info.frame, t.bottom) :: x.heights.take 7 })
  else s

/-- Whether rows that a tick follows are still held (R299): of its frame up to its group, or of an earlier frame. -/
def Rx.waits (x : Rx) (t : RowTick) : Bool :=
  x.held.any (fun h =>
    decide (h.c ∉ t.skip) &&
      (if h.frame = t.info.frame then decide (h.row < t.bottom) else decide (wrapN 32 ((t.info.frame : Int) - h.frame) < 2 ^ 31)))

/-- A tick comes to its moment: raised, or kept until what is held before it is written. The tick of a group whose bands were
discarded is raised as under R300, whatever ticks wait (log entry 166). -/
def State.rowTickDue (s : State) (n : Fin 2) (t : RowTick) : State :=
  let x := s.img.rx[n]
  if x.waits t || (!x.heldTicks.isEmpty && t.skip.isEmpty) then s.modRx n (fun x => { x with heldTicks := x.heldTicks ++ [t] })
  else s.rowTick n t

/-- Raise the ticks that wait for nothing any more, in order; at most `k`. -/
def State.freeTicks (n : Fin 2) : Nat → State → State
  | 0, s => s
  | k + 1, s =>
    match s.img.rx[n].heldTicks with
    | t :: rest =>
      if s.img.rx[n].waits t then s
      else State.freeTicks n k ((s.modRx n (fun x => { x with heldTicks := rest })).rowTick n t)
    | [] => s

/-! ### Rows -/

/-- The bytes of one plane row in the slots of a cluster's bands (R118, R120, R121, R297): (offset, bytes). -/
def RxCfg.bandWrites (x : RxCfg) (c : Fin 4) (g y : Nat) (elems : List Nat) : List (Nat × List Byte) :=
  let k := y / g % x.slots
  (List.range 4).filterMap (fun i =>
    let b := 4 * c.val + i
    let lo := b * x.bandW
    let hi := if b < 15 then lo + x.bandW else x.plane
    let a := if b = 0 then lo else lo - x.selvL
    let z := if b < 15 then min x.plane (hi + x.selvR) else x.plane
    if z ≤ a then none
    else
      some (x.slotOff i k g + y % g * x.rowStride + (a + x.selvL - lo) * x.chans * 2,
        ((elems.drop (a * x.chans)).take ((z - a) * x.chans)).flatMap (fun e => leBytes 2 e)))

/-- One plane row goes to a cluster (R299, R300): written, held while its slot is held or rows before it are, or discarded. -/
def State.bandRow (s : State) (n : Fin 2) (y : Nat) (elems : List Nat) (c : Fin 4) : State :=
  let x := s.img.rx[n]
  let g := s.rowsPer n
  let cut (s : State) : State := (s.modRx n (fun x => { x with cut := c :: x.cut })).rxErr n 6 false
  if !s.clusterUp c then cut s
  else
    let held := x.held.filter (fun h => h.c = c)
    let w := x.cfg.bandWrites c g y elems
    if held.isEmpty && !s.slotHeld n c (y / g % x.cfg.slots) then
      w.foldl (fun (s : State) (p : Nat × List Byte) => s.clWrite c p.1 p.2) s
    else if held.length < 2 * g then s.modRx n (fun x => { x with held := x.held ++ [⟨c, x.frame.toNat, y, w⟩] })
    else cut s

/-- A prepared sensor row takes its place (R296, R298): the plane row it completes goes to the bands, and the tick of a group it
ends comes due. `gen`: generated under R287. -/
def State.prepared (s : State) (n : Fin 2) (vals : List Nat) (gen : Bool) : State :=
  let x := s.img.rx[n]
  let r := x.row
  let s := if r = 0 then
      { s with
        sched := { s.sched with
          src := (s.rowSources n).foldl (fun v k => vmod v k (fun y => { y with blanks := 0 })) s.sched.src } }
    else s
  let prev := x.prep.headD []
  let s := s.modRx n (fun x => { x with row := r + 1, prep := (vals :: x.prep).take 2 })
  if x.cfg.layout = 1 ∧ r % 2 = 0 then s else
  let y := r / x.cfg.perRow
  let line := if x.cfg.layout = 1 then
      (List.range (x.cfg.width / 2)).flatMap (fun i =>
        [prev.getD (2 * i) 0, prev.getD (2 * i + 1) 0, vals.getD (2 * i) 0, vals.getD (2 * i + 1) 0])
    else vals
  let elems := line.map (bandElem x.cfg)
  let g := s.rowsPer n
  let s := if y % g = 0 then s.modRx n (fun x => { x with cut := [] }) else s
  let s := (List.finRange 4).foldl (fun s c => s.bandRow n y elems c) s
  let last := decide (y + 1 = x.cfg.planeH)
  if (y + 1) % g ≠ 0 && !last then s
  else
    let s := if last then s.histWrite n else s
    let row0 := y / g * g
    s.rowTickDue n
      { info :=
          { frame := x.frame.toNat, row0 := row0, rows := y + 1 - row0, blank := false, first := decide (row0 = 0),
            last := last, height := if last then some (y + 1) else none, ended := [] },
        bottom := y + 1, exempt := gen || decide (y + 1 - row0 < g), skip := s.img.rx[n].cut }

/-- A discarded, missing or generated row is replaced (R287): by prepared row r − 2, or by +0. What the defect fill of row
r + 2 finds of it is a free value (log entry 58). -/
def State.replaceRow (s : State) (n : Fin 2) (gen : Bool) : State :=
  let x := s.img.rx[n]
  let vals := if x.row < 2 then List.replicate x.cfg.width 0 else x.prep.getD 1 []
  let (k, s) := s.newEpoch
  let clean := (List.range x.cfg.width).map (fun c =>
    ((Config.freeByte k (2 * c)).toNat + 256 * (Config.freeByte k (2 * c + 1)).toNat) % 2 ^ rawBits x.cfg.dt)
  let s := s.modRx n (fun x => { x with cleaned := (clean :: x.cleaned).take 2 })
  (s.modFrame n (fun f => { f with replaced := f.replaced + 1 })).prepared n vals gen

/-- A row received whole is prepared (R292 to R296, R304). -/
def State.receivedRow (s : State) (n : Fin 2) (raw : List Nat) : State :=
  let x := s.img.rx[n]
  let r := x.row
  let clean := cleanRow (defects x.tables r) raw (if r < 2 then none else some (x.cleaned.getD 1 [])) x.cfg.width
  let vals := clean.zipIdx.map (fun (p : Nat × Nat) => prepPixel x.tables x.black (rawBits x.cfg.dt) r p.2 p.1)
  let s := s.modRx n (fun x => { x.histRow vals with cleaned := (clean :: x.cleaned).take 2 })
  (s.modFrame n (fun f => { f with good := f.good + 1 })).prepared n (vals.map (·.1)) false

/-- The end of a row at the receiver (R289). -/
def State.rowEnd (s : State) (n : Fin 2) : State :=
  s.modRx n (fun x => { x with firstEnd := some (x.firstEnd.getD (x.row, s.now)), lastEnd := (x.row, s.now) })

/-- The measured line period of a frame (R289): the mean interval between the ends of its rows. -/
def State.measure (s : State) (n : Fin 2) : State :=
  let x := s.img.rx[n]
  match x.firstEnd with
  | none => s
  | some (r0, t0) =>
    let rows := x.lastEnd.1 - r0
    if rows = 0 then s
    else
      let span := (x.lastEnd.2 - t0) * 1000
      let s := s.modRx n (fun x => { x with lineNs := BitVec.ofNat 32 (span / rows / 1000), firstEnd := none })
      let off : Int := (span : Int) - (x.cfg.linePs * rows : Nat)
      if 200 * off.natAbs > x.cfg.linePs * rows then
        s.event 0x0402 0 (0x10 + n.val) false (leBytes 1 n.val ++ leBytes 4 (span / rows / 1000))
      else s

/-- The frame in progress ends for good. -/
def State.endFrame (s : State) (n : Fin 2) : State :=
  (s.measure n).modRx n (fun x => { x with inFrame := false, ended := false, gen := none, firstEnd := none })

/-- The frame in progress ends at the row reached, as a Frame Start stops it (R22, R286, R287): the last-row marker travels in
the tick of its last group, in one that waits for held rows, or in a zero-row marker tick. -/
def State.cutFrame (s : State) (n : Fin 2) : State :=
  let s := if s.img.rx[n].ended then s else (s.modFrame n (fun f => { f with short := true })).rxErr n 4 true
  let s := s.endFrame n
  let x := s.img.rx[n]
  let h := x.row / x.cfg.perRow
  let g := s.rowsPer n
  if x.cfg.planeH ≤ h then s
  else
    let s := s.histWrite n
    let f := x.frame.toNat
    if x.heldTicks.any (fun t => t.info.frame = f && t.bottom = h) then
      s.modRx n (fun x =>
        { x with
          heldTicks := x.heldTicks.map (fun (t : RowTick) =>
            if t.info.frame = f ∧ t.bottom = h then
              { t with info := { t.info with last := true, height := some h } }
            else t) })
    else
      let row0 := h / g * g
      s.rowTickDue n
        { info :=
            { frame := f, row0 := row0, rows := h - row0, blank := false, first := decide (row0 = 0 ∧ 0 < h), last := true,
              height := some h, ended := [] },
          bottom := h, exempt := true, skip := if h % g = 0 then [] else x.cut }

end Sys2Proof.Machine
end

