-- ==== Sys2Proof/Machine/CargoFn.lean ====
section
/-! DEFINITION. What CARGO_LOAD checks in a cargo image: header, records, programs and descriptors (R77, R97, R143, R166,
R191, R211, R214, R216, R218, R229, R230, R646). A check answers the image offset of the first field that breaks a rule. -/

namespace Sys2Proof.Machine

/-- A reader of the image: offset and length. -/
abbrev Rd := Nat → Nat → List Byte

/-- A little-endian number of an image. -/
def Rd.le (rd : Rd) (off n : Nat) : Nat := leVal (rd off n)

/-- The first failing check of a list, at an offset. -/
def failAt (base : Nat) (l : List (Bool × Nat)) : Option Nat := (l.find? (fun x => x.1)).map (fun x => base + x.2)

/-- The first answer of a list of checks. -/
def firstBad {α : Type} (f : α → Option Nat) (l : List α) : Option Nat := l.findSome? f

/-- An FP32 value positive and normal. -/
def posNormal (v : Nat) : Bool := !bit v 31 && decide (1 ≤ bits v 23 8 ∧ bits v 23 8 ≤ 254)

/-! ### Header (R214) -/

/-- The fields of a cargo header that the load uses, with the placement of its resident image. -/
structure CargoHdr where
  len : Nat
  points : Nat
  pointsOff : Nat
  slots : Nat
  slotsOff : Nat
  lockFirst : Nat
  lockN : Nat
  locksOff : Nat
  resOff : Nat
  resLen : Nat
  resDest : Nat
  setsOff : Nat
  sets : Nat
  videoL : Nat
  videoS : Nat
  audioA : Nat
  adapterOff : Nat
  adapterLen : Nat
deriving DecidableEq, Repr

/-- The header's fields. -/
def CargoHdr.read (rd : Rd) : CargoHdr :=
  { len := rd.le 4 4, points := rd.le 12 2, slots := rd.le 14 2, pointsOff := rd.le 16 4, slotsOff := rd.le 20 4,
    lockFirst := rd.le 24 4, lockN := rd.le 28 4, locksOff := rd.le 32 4, resOff := rd.le 36 4, resLen := rd.le 40 4,
    resDest := rd.le 44 4, setsOff := rd.le 48 4, sets := rd.le 52 2, videoL := rd.le 54 2, videoS := rd.le 56 2,
    audioA := rd.le 58 1, adapterOff := rd.le 60 4, adapterLen := rd.le 64 4 }

/-- E_CARGO_FORMAT (R214): the header, its tables, the check over the whole image of a length. -/
def CargoHdr.format (rd : Rd) (len : Nat) : Option Nat :=
  let h := CargoHdr.read rd
  let tab (off n : Nat) : Bool := decide (off % 64 ≠ 0 ∨ h.len < off + n)
  if len < 128 then some 4
  else failAt 0
    [(decide (rd.le 0 2 ≠ 1), 0), (decide (rd.le 2 2 ≠ 0x0100), 2), (decide (h.len ≠ len), 4),
     (decide (rd.le 8 4 ≠ crc32c (rd 0 8 ++ zeros 4 ++ rd 12 (len - 12))), 8),
     (decide (h.points < 1 ∨ 64 < h.points), 12), (decide (512 < h.slots), 14), (tab h.pointsOff (16 * h.points), 16),
     (decide (0 < h.slots) && tab h.slotsOff (16 * h.slots), 20), (decide (1024 < h.lockFirst + h.lockN), 24),
     (decide (1024 < h.lockN), 28), (decide (0 < h.lockN) && tab h.locksOff (4 * h.lockN), 32), (tab h.resOff h.resLen, 36),
     (decide (h.resLen % 64 ≠ 0), 40), (decide (0 < h.sets) && tab h.setsOff (64 * h.sets), 48), (decide (1024 < h.sets), 52),
     (!allZero (rd 59 1), 59), (decide (0 < h.adapterOff) && tab h.adapterOff (2 * h.adapterLen), 60),
     (!allZero (rd 68 60), 68)]

/-! ### Entry points (R211, R216) and clip slot records (R77) -/

/-- Offset of entry point record i. -/
def CargoHdr.recOff (h : CargoHdr) (i : Nat) : Nat := h.pointsOff + 16 * i

/-- An entry point record and its header. -/
def pointBad (rd : Rd) (h : CargoHdr) (i : Nat) : Option Nat :=
  let r := h.recOff i
  let o := rd.le r 4
  let fl := rd.le (r + 12) 2
  let main := rd.le (r + 14) 1
  let prog := rd.le (r + 4) 4
  let plen := rd.le (r + 8) 4
  let pn := rd.le (o + 24) 2
  let pa := rd.le (o + 28) 4
  let range (lo n : Nat) : Bool := decide (lo % 64 ≠ 0 ∨ n % 64 ≠ 0 ∨ 0x400000 < lo + n)
  match failAt r
    [(decide (o % 64 ≠ 0 ∨ h.len < o + 64), 0), (decide (prog % 4 ≠ 0 ∨ h.resLen < prog + plen), 4),
     (decide (plen % 4 ≠ 0 ∨ plen = 0 ∨ 262144 < plen), 8), (decide (4 ≤ fl), 12),
     (if bit fl 0 then decide (h.points ≤ main) || bit (rd.le (h.recOff main + 12) 2) 0 else decide (main ≠ 0), 14),
     (!allZero (rd (r + 15) 1), 15)] with
  | some x => some x
  | none =>
    failAt o
      [(range (rd.le (o + 8) 4) (rd.le (o + 12) 4), 8), (range (rd.le (o + 16) 4) (rd.le (o + 20) 4), 16), (decide (64 < pn), 24),
       (!allZero (rd (o + 26) 2), 26),
       (decide (0 < pn) && decide (pa % 64 ≠ 0 ∨ pa < h.resDest ∨ h.resDest + h.resLen < pa + 64 * pn), 28),
       (decide (rd.le (o + 32) 4 ≠ h.lockFirst), 32), (decide (rd.le (o + 36) 4 ≠ h.lockN), 36), (!allZero (rd (o + 40) 24), 40)]

/-- A clip slot record. -/
def slotBad (rd : Rd) (h : CargoHdr) (i : Nat) : Option Nat :=
  let r := h.slotsOff + 16 * i
  failAt r
    [(!(posNormal (rd.le r 4) || decide (rd.le r 4 = 0x7F800000)), 0), (decide (65536 < rd.le (r + 4) 4), 4),
     (decide (rd.le (r + 8) 1 < 1 ∨ 16 < rd.le (r + 8) 1), 8), (decide (2 ≤ rd.le (r + 9) 1), 9), (!allZero (rd (r + 10) 6), 10)]

/-- The loaded entry point of a record. -/
def pointOf (rd : Rd) (h : CargoHdr) (i : Nat) : Point :=
  let r := h.recOff i
  let o := rd.le r 4
  let fl := rd.le (r + 12) 2
  { headerOff := o, programOff := h.resDest + rd.le (r + 4) 4, programLen := rd.le (r + 8) 4, alt := bit fl 0, adapt := bit fl 1,
    main := rd.le (r + 14) 1, budget4 := rd.le o 4, budget3 := rd.le (o + 4) 4, workLo := rd.le (o + 8) 4,
    workLen := rd.le (o + 12) 4, keepLo := rd.le (o + 16) 4, keepLen := rd.le (o + 20) 4, prefetchN := rd.le (o + 24) 2,
    prefetchAddr := rd.le (o + 28) 4 }

/-! ### Addresses -/

/-- An operand address is one of R95, aligned to 64 bytes (R96). -/
def opAddrBad (a : Nat) : Bool :=
  decide (bits a 24 7 ≠ 0 ∨ a % 64 ≠ 0) || (!bit a 31 && decide (0x400000 ≤ bits a 0 24))

/-- An operand range leaves its space (R97). -/
def Rng.leaves (r : Rng) : Bool := decide ((if r.clus then 0x1000000 else 0x400000) < r.lo + r.len)

/-- Image offset of `n` bytes of a descriptor at an operand address: in the resident image, 64-byte aligned. -/
def CargoHdr.at_ (h : CargoHdr) (a n : Nat) : Option Nat :=
  let o := bits a 0 24
  if bit a 31 && decide (bits a 24 7 = 0) && decide (a % 64 = 0) && decide (h.resDest ≤ o ∧ o + n ≤ h.resDest + h.resLen) then
    some (h.resOff + (o - h.resDest))
  else none

/-- The cluster memory offset of an image offset of the resident image. -/
def CargoHdr.place (h : CargoHdr) (x : Nat) : Nat := h.resDest + (x - h.resOff)

/-! ### Layer descriptors (R97) -/

/-- A layer descriptor at image offset x. -/
def layerBad (rd : Rd) (h : CargoHdr) (x : Nat) : Option Nat :=
  let l := rd x 128
  let d := LayerDesc.ofBytes l
  let r := d.ranges
  let aux := decide (0 < d.outliers) || d.bias
  let rd1 (i : Nat) : Rng := r.reads.getD i ⟨false, 0, 0⟩
  let out : Rng := r.writes.getD 0 ⟨false, 0, 0⟩
  let late := (List.range d.outlier.length).find? (fun i =>
    decide (d.k ≤ d.outlier.getD i 0) || (decide (0 < i) && decide (d.outlier.getD i 0 ≤ d.outlier.getD (i - 1) 0)))
  failAt x
    [(decide (d.op ≠ 1), 0), (d.fmtRsv || d.gCode = 3, 1), (decide (32 < d.outliers), 2), (decide (d.mTile < 1 ∨ 16 < d.mTile), 3),
     (decide (h.slots ≤ d.slot), 4), (decide (field l 6 2 ≠ 0), 6), (decide (d.m < 1 ∨ 16777215 < d.m), 8),
     (decide (d.k < 32 ∨ 32768 < d.k ∨ d.k % d.g ≠ 0), 12), (decide (d.n < 1 ∨ 32768 < d.n), 14),
     (opAddrBad d.act || bit d.act 31 || (rd1 0).leaves, 16), (decide (d.actStride % 64 ≠ 0 ∨ d.actStride < 2 * d.k), 20),
     (opAddrBad d.weight || (rd1 1).leaves, 24), (opAddrBad d.weft || (rd1 2).leaves, 28),
     (aux && (opAddrBad d.aux || (rd1 3).leaves), 32), (opAddrBad d.out || bit d.out 31 || out.leaves || r.reads.any out.meets, 36),
     (decide (d.outStride % 64 ≠ 0 ∨ d.outStride < 2 * d.n), 40), (decide (field l 44 20 ≠ 0), 44),
     (decide ((if d.a16 then 262144 else 524288) < 16 * d.mTile * d.k), 3),
     (late.isSome, 64 + 2 * late.getD 0), (d.rsv, 64 + 2 * d.outliers)]

/-! ### Window descriptors and stacks (R125, R135, R136, R140 to R143, R152) -/

/-- A stripe address is legal and aligned, in one of the spaces given (R142). -/
def stripeAddrOk (spaces : List Nat) (a : Nat) : Bool :=
  let sp := bits a 30 2
  decide (sp ∈ spaces) && decide (bits a 24 6 = 0 ∧ a % 64 = 0) &&
    decide (bits a 0 24 < (match sp with
      | 0 => 0x400000
      | 1 => 0x1000000
      | _ => 0x200000))

/-- The fields of one window descriptor at image offset x (R141). A pass that writes its FP32 partial uses no output, scale or
bias. -/
def windowBad (rd : Rd) (x : Nat) : Option Nat :=
  let l := rd x 64
  let d := WinDesc.ofBytes l
  let ingest := d.op = 0x10
  let gather := d.op = 0x11
  let dw := d.op = 0x12
  let f (i : Nat) : Bool := bit d.fmt i
  let acc := d.accIn || d.accOut
  let partial_ := dw && d.accOut
  failAt x
    [(decide (d.op < 0x10 ∨ 0x14 < d.op), 0),
     (f 7 || (!dw && (f 2 || f 3 || f 4 || f 5)) || (!gather && f 6) || (ingest && f 0 != f 1), 1),
     (decide (d.kh < 1 ∨ 7 < d.kh) || (ingest && decide (d.kh ≠ 1)), 2),
     (decide (d.kw < 1 ∨ 7 < d.kw) || (ingest && decide (d.kw ≠ 1)), 3),
     (decide (d.sy < 1 ∨ 4 < d.sy ∨ d.sx < 1 ∨ 4 < d.sx) || (ingest && decide (d.sy ≠ 1 ∨ d.sx ≠ 1)), 4),
     (decide (d.dy < 1 ∨ 8 < d.dy ∨ d.dx < 1 ∨ 8 < d.dx) || (ingest && decide (d.dy ≠ 1 ∨ d.dx ≠ 1)), 5),
     (bit (field l 6 1) 7 || bit (field l 6 1) 3 || (ingest && decide (d.pt ≠ 0 ∨ d.pb ≠ 0)), 6),
     (bit (field l 7 1) 7 || bit (field l 7 1) 3 || (ingest && decide (d.pl ≠ 0 ∨ d.pr ≠ 0)), 7),
     (decide (16 ≤ d.padMode) || (ingest && decide (d.padMode ≠ 0)), 8), (decide (32 < d.leadL), 9), (decide (32 < d.leadR), 10),
     (decide (248 < d.oy) || (d.role = 0 && decide (d.oy ≠ 0)), 11), (decide (248 < d.ox) || (d.role = 0 && decide (d.ox ≠ 0)), 12),
     (decide (bits (field l 13 1) 0 6 ≠ 0) || (decide (d.role ≠ 0) && !(gather || dw)), 13),
     (decide (d.c < 1 ∨ 4096 < d.c) || (dw && f 2 && decide (d.c % 2 = 1)), 14), (decide (d.inWidth < 1 ∨ 8192 < d.inWidth), 16),
     (if gather then decide (d.kOut % 32 ≠ 0 ∨ d.kOut < 32 ∨ 32768 < d.kOut ∨ d.kOut < d.kh * d.kw * d.c) ||
        (!f 6 && decide (d.kOut ≠ d.kh * d.kw * d.c)) else decide (d.kOut ≠ 0), 18),
     (!stripeAddrOk (if d.inRows = 0 then [0, 1] else [2]) d.inAddr, 20), (decide (d.inStride % 64 ≠ 0), 24),
     (decide (1024 < d.inRows) || (if ingest then decide (d.inRows ≠ 0) else decide (d.inRows = 0)), 28),
     (decide (1024 < d.outRows) || (ingest && decide (d.outRows = 0)) || ((gather || partial_) && decide (d.outRows ≠ 0)), 30),
     (if partial_ then decide (d.outAddr ≠ 0)
      else !stripeAddrOk (if d.outRows ≠ 0 then [2] else if gather then [0] else [0, 1]) d.outAddr, 32),
     (decide (d.outStride % 64 ≠ 0) || (partial_ && decide (d.outStride ≠ 0)), 36),
     (if dw then !stripeAddrOk [0, 1] d.weight else decide (d.weight ≠ 0), 40),
     (if dw && !partial_ then !stripeAddrOk [0, 1] d.scale else decide (d.scale ≠ 0), 44),
     (if dw && f 3 && !partial_ then !stripeAddrOk [0, 1] d.bias else decide (d.bias ≠ 0), 48),
     (if acc then !stripeAddrOk [0] d.part else decide (d.part ≠ 0), 52), (!allZero (l.drop 56), 56)]

/-- The passes of one decomposed kernel (R143, R152): roles, shared fields, and the sizes and origins of a grid of tiles in
row-major order. -/
def passesBad (l : List WinDesc) : Bool :=
  match l with
  | [] => false
  | d :: _ =>
    let n := l.length
    let fm (d : WinDesc) : Nat := d.fmt % 16 + d.fmt / 64 * 64
    let same (e : WinDesc) : Bool :=
      decide (e.op = d.op ∧ fm e = fm d ∧ e.sy = d.sy ∧ e.sx = d.sx ∧ e.dy = d.dy ∧ e.dx = d.dx ∧ e.pt = d.pt ∧ e.pb = d.pb ∧
        e.pl = d.pl ∧ e.pr = d.pr ∧ e.padMode = d.padMode ∧ e.c = d.c ∧ e.inWidth = d.inWidth)
    let cols := (l.filter (fun e => e.oy = 0)).length
    let rows := n / cols
    let lastH := (l.getLast?.map (·.kh)).getD 0
    let lastW := (l.getLast?.map (·.kw)).getD 0
    let tile (x : WinDesc × Nat) : Bool :=
      let (e, t) := x
      let i := t / cols
      let j := t % cols
      decide (e.oy = 7 * i * e.dy ∧ e.ox = 7 * j * e.dx ∧ e.kh = (if i + 1 < rows then 7 else lastH) ∧
        e.kw = (if j + 1 < cols then 7 else lastW))
    let role (x : WinDesc × Nat) : Bool :=
      let (e, t) := x
      let r := if t = 0 then 1 else if t + 1 = n then 3 else 2
      decide (e.role = r) &&
        (e.op ≠ 0x12 || (e.accOut == decide (r ≠ 3) && e.accIn == decide (r ≠ 1)))
    !(decide (2 ≤ n) && decide (0 < cols ∧ n % cols = 0) && l.all same && l.zipIdx.all tile && l.zipIdx.all role)

/-- The operations of a stack with the index of the layer group each belongs to. -/
def opGroup (gs : List WGroup) (i : Nat) : Option Nat := gs.findIdx? (fun g => i ∈ g.ops)

/-- The interior lead of R131 at each operation of a stack, in order: a window's own layer, or for INGEST the layer it feeds. -/
def leadsAt (ops : List StackOp) (gs : List WGroup) (lam rho : Nat) : List (Nat × Nat) :=
  let ls := leadsFrom lam rho gs 0 0
  (List.range ops.length).map (fun i =>
    match opGroup gs i with
    | some k => ls.getD k (0, 0)
    | none => ls.getD ((gs.filter (fun g => (g.ops.head?.getD 0) < i)).length) (0, 0))

/-- The rings of a stack: address, rows, stride, each named once. -/
def ringsOf (ws : List WinDesc) : List (Nat × Nat × Nat) :=
  (ws.flatMap (fun d =>
    (if d.inRows = 0 then [] else [(d.inAddr, d.inRows, d.inStride)]) ++
      (if d.outRows = 0 then [] else [(d.outAddr, d.outRows, d.outStride)]))).foldl
    (fun (l : List (Nat × Nat × Nat)) r => if r ∈ l then l else l ++ [r]) []

/-- A stack header at image offset x with its operations (R125, R128, R131, R135, R136, R140, R143). The band width at load
time is that of R118 for the header's in_width (log entry 80). -/
def stackBad (rd : Rd) (h : CargoHdr) (x : Nat) : Option Nat :=
  let l := rd x 64
  let k := StackHdr.ofBytes l
  let ops := stackOps (fun off n => rd (x + off) n) k.count 64
  let gs := groupsOf ops
  let (lam, rho, hh) := halos gs
  let ws := ops.filterMap (·.win)
  let rings := ringsOf ws
  let size (r : Nat × Nat × Nat) : Nat := r.2.1 * r.2.2
  let total := (rings.map size).sum
  let lap := rings.zipIdx.any (fun a => rings.zipIdx.any (fun b => decide (a.2 < b.2) &&
    overlap (bits a.1.1 0 24) (size a.1) (bits b.1.1 0 24) (size b.1)))
  let piy := (gs.map (·.sy)).prod
  let bw := 8 * ((k.inWidth + 127) / 128)
  let leads := leadsAt ops gs lam rho
  let opEnd := (ops.getLast?.map (fun o => o.off + (if o.win.isSome then 64 else 128))).getD 64
  let win (i : Nat) : Option Nat :=
    match (ops[i]?) with
    | none => none
    | some o =>
      match o.win with
      | none => layerBad rd h (x + o.off)
      | some d =>
        match windowBad rd (x + o.off) with
        | some b => some b
        | none =>
          let g := (opGroup gs i).bind (fun j => gs[j]?)
          let px := (g.map (·.px)).getD 1
          let py := (g.map (·.py)).getD 1
          let cy := (g.map (·.cy)).getD 1
          let cx := (g.map (·.cx)).getD 1
          let gi := k.g / py
          failAt (x + o.off)
            [(decide (leads.getD i (0, 0) ≠ (d.leadL, d.leadR)), 9),
             (d.windowed && decide (windowOut d.inWidth d.pl d.pr cx ((g.map (·.sx)).getD 1) = 0), 16),
             (d.windowed && decide (d.inStride < (d.leadL + bw / px + d.leadR) * d.c * 2), 24),
             (d.windowed && decide (d.inRows < cy + gi - 1), 28), (decide (249 < cy ∨ 249 < cx), 11)]
  let group (g : WGroup) : Bool :=
    let l := g.ops.filterMap (winOf ops)
    if l.length = 1 then decide (((l.head?.map (·.role)).getD 0) ≠ 0) else passesBad l
  match failAt x
    [(decide (k.count < 1 ∨ 64 < k.count), 1), (decide (k.g ∉ [8, 16, 32, 64] ∨ k.g % piy ≠ 0), 2), (decide (2 ≤ field l 3 1), 3),
     (decide (32 < k.lam ∨ k.lam ≠ lam), 4), (decide (32 < k.rho ∨ k.rho ≠ rho), 5), (decide (4095 < k.h ∨ k.h ≠ hh), 6),
     (if k.slots then decide (k.marginL ≠ 0) else decide (k.marginL < lam), 8),
     (if k.slots then decide (k.marginR ≠ 0) else decide (k.marginR < rho), 9), (decide (k.inWidth < 1 ∨ 8192 < k.inWidth), 10),
     (decide (k.ringBytes ≠ total ∨ 2097152 < total) || lap || rings.any (fun r => decide (0x200000 < bits r.1 0 24 + size r)), 12),
     (decide (0x1000000 ≤ k.spill), 16), (!allZero (l.drop 20), 20), ((h.at_ (0x80000000 + h.place x) opEnd).isNone, 1)] with
  | some b => some b
  | none =>
    match firstBad win (List.range ops.length) with
    | some b => some b
    | none => (gs.find? group).map (fun g => x + ((ops[g.ops.head?.getD 0]?).map (·.off)).getD 0 + 13)

/-! ### Attention (R161 to R166, R188 to R191) -/

/-- A set descriptor at image offset x, of a cargo for some clusters (R166, R255): tables and pool in one partition's DRAM or, for
the tables, cluster memory. `inReg`: whether a DRAM range lies in regions. The tables of a cargo-owned set in DRAM are held to RETAIN
regions by `setForeign` (R257). -/
def setBad (rd : Rd) (cl : List (Fin 4)) (inReg : Nat → Nat → Bool) (x : Nat) : Option Nat :=
  let d := SetDesc.ofBytes (rd x 64)
  let tlen := d.tablesLen
  let plen := d.frames * (64 * d.d * d.hkv)
  let inDram (c : Fin 4) (a n : Nat) : Bool := decide (0x200000000 * c.val ≤ a ∧ a + n ≤ 0x200000000 * (c.val + 1))
  let inClus (c : Fin 4) (a n : Nat) : Bool := decide (clusterBase c ≤ a ∧ a + n ≤ clusterBase c + 0x1000000)
  let own (c : Fin 4) : Bool := inDram c d.pool plen && (inDram c d.table tlen || inClus c d.table tlen)
  let pow2 := decide (d.tableLen = 2 ^ Nat.log2 d.tableLen)
  let hkv := (rd.le (x + 32) 1)
  let d16 := (rd.le (x + 33) 1)
  failAt x
    [(decide (rd.le (x + 6) 2 ≠ 0), 6), (decide (rd.le (x + 14) 2 ≠ 0), 14), (decide (d.tableLen < 1 ∨ 65536 < d.tableLen), 16),
     (decide (d.tableStride % 64 ≠ 0 ∨ d.tableStride < 16 + 4 * d.tableLen), 20), (decide (d.seqs < 1 ∨ 262144 < d.seqs), 24),
     (decide (1048576 < d.window) ||
        (decide (0 < d.window) && (!pow2 || decide (d.tableLen < (d.window + 14) / 16 + 1))), 28),
     (decide (hkv < 1 ∨ 64 < hkv), 32), (decide (d16 < 1 ∨ 16 < d16), 33), (decide (4 ≤ rd.le (x + 34) 1), 34),
     (decide (rd.le (x + 35) 1 ≠ 0), 35), (decide (d.frames < 1 ∨ 16777216 < d.frames), 36), (!allZero (rd (x + 40) 24), 40),
     (!cl.any own, 0), (d.tablesInDram && !d.owned && !inReg d.table tlen, 0), (!inReg d.pool plen, 8)]

/-- An attention descriptor at image offset x with its set (R188 to R191). `adapt`: of an adaptation entry, the only entry
that the cargo itself says is not of class TICK (log entry 173). Gradient frames lie in regions of the set's own partition (R251,
R255). -/
def attnBad (rd : Rd) (h : CargoHdr) (cl : List (Fin 4)) (inReg : Nat → Nat → Bool) (adapt : Bool) (x : Nat) : Option Nat :=
  let l := rd x 128
  let a := AttnDesc.ofBytes l
  let f (i : Nat) : Bool := bit a.fmt i
  let app := a.op = 0x30
  let bwd := a.op = 0x32
  let set := h.at_ a.set 64
  match set with
  | none => some (x + 4)
  | some sx =>
    match setBad rd cl inReg sx with
    | some b => some b
    | none =>
      let st := SetDesc.ofBytes (rd sx 64)
      let nh := a.kvhN * (a.hq / st.hkv)
      let row := a.r * nh * st.d
      let qlen := if app then a.r * a.kvhN * 4 * st.d else 2 * row
      let str (v n : Nat) : Bool := decide (v % 64 ≠ 0 ∨ v < n)
      let glen := st.frames * (128 * st.d * st.hkv)
      let gradOk (g : Nat) : Bool :=
        decide (partOf g = partOf st.pool ∧ partOf (g + glen - 1) = partOf st.pool) && inReg g glen
      failAt x
        [(decide (a.op < 0x30 ∨ 0x32 < a.op), 0), (decide (bits a.fmt 6 2 ≠ 0) || (f 3 && decide (a.op ≠ 0x31)), 1),
         (decide (a.hq < 1 ∨ 64 < a.hq ∨ a.hq % st.hkv ≠ 0), 2), (decide (a.r < 1 ∨ 64 < a.r), 3),
         (decide (a.seqN < 1 ∨ 262144 < a.seqN) || (!f 5 && decide (st.seqs < a.seqFirst + a.seqN)), 12), (opAddrBad a.q, 16),
         (str a.qStride qlen, 20), (if app then decide (a.out ≠ 0) else opAddrBad a.out, 24),
         (if app then decide (a.outStride % 64 ≠ 0) else str a.outStride (if bwd then 4 * row else 2 * row), 28),
         ((f 3 || bwd) && opAddrBad a.stats, 32), (!posNormal a.smScale, 36),
         (f 4 && (decide (a.maxPages = 0) || adapt), 40),
         (if a.maxPages = 0 then decide (a.minPages ≠ 0) else decide (a.minPages < 1 ∨ a.maxPages < a.minPages), 42),
         (!bwd && decide (a.bwdScale ≠ 0), 44),
         (f 5 && opAddrBad a.seqOff, 48),
         (decide (st.hkv ≤ a.kvhFirst), 52), (decide (a.kvhN < 1 ∨ st.hkv < a.kvhFirst + a.kvhN), 53), (!allZero ((l.drop 54).take 10), 54),
         (bwd && opAddrBad a.dO, 64), (bwd && str a.dOStride (2 * row), 68), (bwd && opAddrBad a.o, 72),
         (bwd && str a.oStride (2 * row), 76), (bwd && (decide (field l 86 2 ≠ 0 ∨ a.gradPool % 64 ≠ 0) || !gradOk a.gradPool), 80),
         (bwd && !allZero (l.drop 88), 88), ((a.ranges st).reads.any Rng.leaves, 16), ((a.ranges st).writes.any Rng.leaves, 24)]

/-! ### Barge descriptors (R229, R230) -/

/-- A row lies in one space that a barge may address (R230). -/
def rowInSpace (n : Nat) (a : Int) : Bool :=
  decide (0 ≤ a) &&
    (match spaceOf a.toNat, spaceOf (a.toNat + n - 1) with
      | .dram _ _, .dram _ _ => true
      | .clus _ _, .clus _ _ => true
      | .loc _, .loc _ => true
      | _, _ => false)

/-- A barge descriptor at image offset x (R229, R230). `pre`: of a prefetch list, which no share program issues, so that the local
window is no address of it. -/
def bargeBad (rd : Rd) (pre : Bool) (x : Nat) : Option Nat :=
  let l := rd x 64
  let d := BDesc.ofBytes l
  let ok (a : Int) : Bool := rowInSpace d.xBytes a && !(pre && (match spaceOf a.toNat with
    | .loc _ => true
    | _ => false))
  match bargeFormat l with
  | some f => some (x + f)
  | none => failAt x [(d.op = 0x40 && !d.srcRows.all ok, 32), (!d.dstRows.all ok, 40)]

/-! ### Share programs (R217, R218) -/

/-- The instructions of a program of `n` words: their pcs and first words; none where one runs past the end. -/
def progWords (w : Nat → Nat) : Nat → Nat → Nat → Option (List (Nat × Nat))
  | 0, pc, n => if pc = n then some [] else none
  | fuel + 1, pc, n =>
    if pc = n then some []
    else if n < pc then none
    else (progWords w fuel (pc + instrWords (w pc)) n).map (fun l => (pc, w pc) :: l)

/-- A word of a reserved class or with a reserved field. -/
def wordReserved (w : Nat) : Bool :=
  match bits w 28 4 with
  | 0 => decide (3 < bits w 24 4)
  | 1 => decide (3 < bits w 24 4)
  | 2 => decide (10 < bits w 22 6)
  | 3 => decide (bits w 0 19 % 4 ≠ 0)
  | 4 => false
  | 5 => false
  | 6 => !bit w 27 && decide (bits w 0 20 < 1 ∨ 1000000 < bits w 0 20)
  | 7 => decide (5 < bits w 4 3 ∨ bits w 0 3 ≠ 0)
  | _ => true

/-- A lock reference in a program is legal here: a wait only of scope 0 or 2; scope 0 within the cargo's locks. -/
def progRefBad (h : CargoHdr) (wait : Bool) (v : Nat) : Bool :=
  let r : W32 := BitVec.ofNat 32 v
  refValid r &&
    (!refLegal r || (wait && !waitLegal r) ||
      (refScope r = 0 && decide (refLock r < h.lockFirst ∨ h.lockFirst + h.lockN ≤ refLock r)))

/-- What a descriptor named by an EXEC is. -/
inductive ExecKind where
  | layer | stack | attn
deriving DecidableEq, Repr

/-- The descriptor an EXEC operand names: its kind and image offset. -/
def execOf (rd : Rd) (h : CargoHdr) (a : Nat) : Option (ExecKind × Nat) :=
  match h.at_ a 64 with
  | none => none
  | some x =>
    let op := rd.le x 1
    if op = 1 then (h.at_ a 128).map (fun x => (.layer, x))
    else if op = 0x20 then some (.stack, x)
    else if op = 0x32 then (h.at_ a 128).map (fun x => (.attn, x))
    else if op = 0x30 ∨ op = 0x31 then some (.attn, x)
    else none

/-- A program with its decoded instructions: image offset, words, instructions. -/
structure Prog where
  off : Nat
  n : Nat
  words : List (Nat × Nat)
  adapt : Bool
deriving DecidableEq, Repr

/-- The program of entry point i. -/
def progOf (rd : Rd) (h : CargoHdr) (i : Nat) : Option Prog :=
  let r := h.recOff i
  let off := h.resOff + rd.le (r + 4) 4
  let n := rd.le (r + 8) 4 / 4
  (progWords (fun pc => rd.le (off + 4 * pc) 4) n 0 n).map (fun l => ⟨off, n, l, bit (rd.le (r + 12) 2) 1⟩)

/-- The EXEC operands of a program, with their pcs. -/
def Prog.execs (rd : Rd) (p : Prog) : List (Nat × Nat) :=
  (p.words.filter (fun x => bits x.2 28 4 = 4)).map (fun x => (x.1, rd.le (p.off + 4 * (x.1 + 1)) 4))

/-- The barge descriptors a program names. -/
def Prog.barges (rd : Rd) (p : Prog) : List Nat :=
  (p.words.filter (fun x => bits x.2 28 4 = 5 ∧ bit x.2 23 = false)).map (fun x => rd.le (p.off + 4 * (x.1 + 1)) 4)

/-- Whether every share of an entry issues the EXEC at a pc: no branch and no END stands before it in program order. -/
def Prog.straight (p : Prog) (pc : Nat) : Bool :=
  (p.words.filter (fun x => decide (x.1 < pc))).all (fun x =>
    decide (bits x.2 28 4 ≠ 1) && !(decide (bits x.2 28 4 = 0) && decide (bits x.2 24 4 = 1)))

/-- The attention descriptors two shares of an entry can both issue conflict (R191). One set is one whose descriptors hold the same
bytes. Of code behind a branch, which share issues it is firmware's judgement (log entry 79). -/
def attnClash (rd : Rd) (h : CargoHdr) (p : Prog) : Option Nat :=
  let code := rd p.off (4 * p.n)
  let l := (p.execs rd).filterMap (fun e =>
    match execOf rd h e.2 with
    | some (.attn, x) => some (e.1, x, AttnDesc.ofBytes (rd x 128))
    | _ => none)
  let issues (pc i : Nat) : Bool := p.straight pc || Config.shareIssues code pc i
  let two (a b : Nat) : Bool := (List.range 4).any (fun i => (List.range 4).any (fun j => decide (i ≠ j) && issues a i && issues b j))
  let set (a : AttnDesc) : Option (List Byte) := (h.at_ a.set 64).map (fun x => rd x 64)
  let clash (a b : Nat × Nat × AttnDesc) : Bool :=
    let (x, y) := (a.2.2, b.2.2)
    decide (set x = set y) && !bit x.fmt 5 && !bit y.fmt 5 && overlap x.seqFirst x.seqN y.seqFirst y.seqN &&
      (overlap x.kvhFirst x.kvhN y.kvhFirst y.kvhN || (x.op = 0x30 && y.op = 0x30 && decide (x.kvhFirst = 0 ∧ y.kvhFirst = 0))) &&
      two a.1 b.1
  (l.find? (fun a => l.any (fun b => clash a b))).map (fun a => a.2.1 + 8)

/-- A program breaks R218, or a descriptor it names its own rules. -/
def progBad (rd : Rd) (h : CargoHdr) (cl : List (Fin 4)) (inReg : Nat → Nat → Bool) (i : Nat) : Option Nat :=
  match progOf rd h i with
  | none => some (h.recOff i + 8)
  | some p =>
    let starts := p.words.map (·.1)
    let word (x : Nat × Nat) : Option Nat :=
      let (pc, w) := x
      let at_ := p.off + 4 * pc
      let second := rd.le (at_ + 4) 4
      if wordReserved w then some at_
      else match bits w 28 4 with
      | 1 =>
        let t : Int := (pc : Int) + sgn 16 (bits w 0 16)
        if 0 ≤ t ∧ t.toNat ∈ starts then none else some at_
      | 4 =>
        match execOf rd h second with
        | none => some (at_ + 4)
        | some (.layer, x) => layerBad rd h x
        | some (.stack, x) => stackBad rd h x
        | some (.attn, x) => attnBad rd h cl inReg p.adapt x
      | 5 =>
        if bit w 23 then none
        else match h.at_ second 64 with
        | none => some (at_ + 4)
        | some x => bargeBad rd false x
      | 6 => if progRefBad h (!bit w 27) second then some (at_ + 4) else none
      | _ => none
    let last := match p.words.getLast? with
      | some (_, w) => decide ((bits w 28 4 = 0 ∧ bits w 24 4 = 1) ∨ (bits w 28 4 = 1 ∧ bits w 24 4 = 3))
      | none => false
    match firstBad word p.words with
    | some b => some b
    | none => if last then attnClash rd h p else some (p.off + 4 * (p.n - 1))

/-! ### What a cargo protects (R646) and its layers (R610) -/

/-- The descriptors a program's EXECs reach: layers (also those in stacks), headers, windows, attention descriptors, sets, as
cluster memory ranges; layers' and sets' offsets; and the cluster memory ranges that the engines' operations write. -/
structure Reach where
  prot : List (Nat × Nat)
  layers : List Nat
  sets : List Nat
  writes : List (Nat × Rng)
deriving DecidableEq, Repr

/-- The output buffer of a window in a stack of group size g, at load time (R141, R646): g rows and those that bottom padding adds. -/
def WinDesc.spans (d : WinDesc) (g : Nat) : List Rng :=
  if d.accOut || decide (d.outRows ≠ 0) then [] else stripeRng d.outAddr ((g + d.reachY) * d.outStride)

/-- What one EXEC reaches. -/
def execReach (rd : Rd) (h : CargoHdr) (a : Nat) : Reach :=
  match execOf rd h a with
  | none => ⟨[], [], [], []⟩
  | some (.layer, x) => ⟨[(h.place x, 128)], [h.place x], [], (LayerDesc.ofBytes (rd x 128)).ranges.writes.map (fun r => (x, r))⟩
  | some (.attn, x) =>
    let d := AttnDesc.ofBytes (rd x 128)
    let sx := (h.at_ d.set 64).getD x
    let st := SetDesc.ofBytes (rd sx 64)
    ⟨[(h.place x, if d.op = 0x32 then 128 else 64), (h.place sx, 64)], [], [sx], (d.ranges st).writes.map (fun r => (x, r))⟩
  | some (.stack, x) =>
    let k := StackHdr.ofBytes (rd x 64)
    (stackOps (fun off n => rd (x + off) n) k.count 64).foldl
      (fun (r : Reach) o =>
        let y := x + o.off
        match o.win with
        | none =>
          ⟨(h.place y, 128) :: r.prot, h.place y :: r.layers, [],
            (LayerDesc.ofBytes (rd y 128)).ranges.writes.map (fun w => (y, w)) ++ r.writes⟩
        | some d => ⟨(h.place y, 64) :: r.prot, r.layers, [], (d.spans k.g).map (fun w => (y, w)) ++ r.writes⟩)
      ⟨[(h.place x, 64)], [], [], []⟩

/-- Insert a number in ascending order, once. -/
def insertOnce (v : Nat) : List Nat → List Nat
  | [] => [v]
  | a :: t => if v < a then v :: a :: t else if v = a then a :: t else a :: insertOnce v t

/-- What a whole cargo reaches: its programs are protected too. -/
def cargoReach (rd : Rd) (h : CargoHdr) : Reach :=
  let ps := (List.range h.points).filterMap (progOf rd h)
  let rs := ps.flatMap (fun p => (p.execs rd).map (fun e => execReach rd h e.2))
  { prot := (ps.map (fun (p : Prog) => (h.place p.off, 4 * p.n)) ++ rs.flatMap (fun (r : Reach) => r.prot)).foldl
      (fun (l : List (Nat × Nat)) r => if r ∈ l then l else l ++ [r]) [],
    layers := (rs.flatMap (fun (r : Reach) => r.layers)).foldl (fun l v => insertOnce v l) [],
    sets := (rs.flatMap (fun (r : Reach) => r.sets)).eraseDups, writes := rs.flatMap (fun (r : Reach) => r.writes) }

/-- The barge descriptors that a cargo's programs name, as image offsets. -/
def programBarges (rd : Rd) (h : CargoHdr) : List Nat :=
  ((List.range h.points).filterMap (progOf rd h)).flatMap (fun p => (p.barges rd).filterMap (fun a => h.at_ a 64))

/-- The barge descriptors of a cargo's prefetch lists (R227), as image offsets. -/
def prefetchBarges (rd : Rd) (h : CargoHdr) : List Nat :=
  (List.range h.points).flatMap (fun i =>
    let o := rd.le (h.recOff i) 4
    (List.range (rd.le (o + 24) 2)).map (fun j => h.resOff + (rd.le (o + 28) 4 - h.resDest) + 64 * j))

/-- An output range of an engine operation, or the destination of a barge descriptor, overlaps a protected range (R646): `prot` names
the ranges of a cluster, of this cargo and of those loaded. -/
def protBad (rd : Rd) (h : CargoHdr) (cl : List (Fin 4)) (prot : Fin 4 → List (Nat × Nat)) (writes : List (Nat × Rng)) : Option Nat :=
  let hit (c : Fin 4) (lo n : Nat) : Bool := (prot c).any (fun p => overlap lo n p.1 p.2)
  match writes.find? (fun w => w.2.clus && cl.any (fun c => hit c w.2.lo w.2.len)) with
  | some (x, _) => some x
  | none =>
    ((programBarges rd h ++ prefetchBarges rd h).find? (fun x =>
      let d := BDesc.ofBytes (rd x 64)
      !d.remote && d.dstRows.any (fun a =>
        match spaceOf a.toNat with
        | .clus c off => hit c off d.xBytes
        | _ => false))).map (fun x => x + 40)

/-- The set descriptors of a cargo, as image offsets: those of its table and those its attention descriptors name. -/
def cargoSets (h : CargoHdr) (r : Reach) : List Nat :=
  (((List.range h.sets).map (fun i => h.setsOff + 64 * i)) ++ r.sets).eraseDups

/-- The first cargo-owned set whose table blocks lie in DRAM outside the ranges given (R257). -/
def setForeign (rd : Rd) (sets : List Nat) (retain : Nat → Nat → Bool) : Option Nat :=
  sets.find? (fun x =>
    let d := SetDesc.ofBytes (rd x 64)
    d.owned && d.tablesInDram && !retain d.table d.tablesLen)

/-- E_CARGO_DESC of the image itself: records, entry points, sets, programs and descriptors, prefetch lists, protection. `others`: the
protected ranges of the loaded cargos on a cluster. -/
def cargoDesc (rd : Rd) (h : CargoHdr) (cl : List (Fin 4)) (inReg : Nat → Nat → Bool) (others : Fin 4 → List (Nat × Nat)) : Option Nat :=
  let r := cargoReach rd h
  [firstBad (slotBad rd h) (List.range h.slots), firstBad (pointBad rd h) (List.range h.points),
   firstBad (fun i => setBad rd cl inReg (h.setsOff + 64 * i)) (List.range h.sets),
   firstBad (progBad rd h cl inReg) (List.range h.points), firstBad (bargeBad rd false) (programBarges rd h),
   firstBad (bargeBad rd true) (prefetchBarges rd h),
   protBad rd h cl (fun c => (if c ∈ cl then r.prot else []) ++ others c) r.writes].findSome? id

end Sys2Proof.Machine
end

