-- ==== Sys2Proof/Machine/CfgFn.lean ====
section
/-! DEFINITION. What a set of configuration keys says: unit configurations, nominal intervals, the areas it uses, and the
timetable it names with its validation (R25 to R30, R213, R216, R290, R297, R335, R358, R392, R413). -/

namespace Sys2Proof.Machine

/-! ### Units -/

/-- A receiver's keys. -/
def KeySet.rxCfg (w : KeySet) (n : Fin 2) : RxCfg :=
  let k (x : RxKey) : Nat := KeySet.get w (.rx n x)
  { phy := k .phy, lanes := k .lanes, rate := k .rate, scramble := k .scramble, vc := k .vc, dt := k .dt, width := k .width,
    height := k .height, lines := k .lines, linePs := k .linePs, cfa := k .cfa, layout := k .layout, out := k .out,
    shift := k .shift, band := k .band, selvL := k .selvL, selvR := k .selvR, slots := k .slots, slotAddr := k .slotAddr,
    histAddr := k .histAddr }

/-- A transmitter's keys. -/
def KeySet.txCfg (w : KeySet) (n : Fin 2) : TxCfg :=
  let k (x : TxKey) : Nat := KeySet.get w (.tx n x)
  { src := k .src, phy := k .phy, lanes := k .lanes, rate := k .rate, vc := k .vc, dt := k .dt, width := k .width,
    band := k .band, group := k .group, entry := k .entry, slotAddr := k .slotAddr, pcie := k .pcie }

/-- A TDM port's keys. -/
def KeySet.tdmCfg (w : KeySet) (n : Fin 4) : PortCfg :=
  let k (x : TdmKey) : Nat := KeySet.get w (.tdm n x)
  { apll := k .apll, slave := decide (k .role = 1), frameBits := k .frameBits, slots := k .slots, width := k .width,
    dataBits := k .dataBits, hiz := decide (k .hiz = 1), inMask := k .inMask, outMask := k .outMask,
    elem32 := decide (k .elem = 1), block := k .block, fs := PortCfg.reset.fs, inRing := k .inRing, outRing := k .outRing, inK := k .inK,
    outK := k .outK, outTick := k .outTick, outEntry := k .outEntry, bypass := leBytes 32 (k .bypass),
    zcTimeout := k .zcTimeout, pcie := k .pcie }

/-- The PDM group's keys. -/
def KeySet.pdmCfg (w : KeySet) : PortCfg :=
  let k (x : PdmKey) : Nat := KeySet.get w (.pdm x)
  { PortCfg.reset with
    apll := k .apll, slave := false, dataBits := 24, inMask := k .mask, outMask := 0, elem32 := decide (k .elem = 1),
    block := k .block, fs := k .fs, inRing := k .ring, inK := k .depth, zcTimeout := k .zcTimeout }

/-- A port's keys. -/
def KeySet.portCfg (w : KeySet) (n : Fin 5) : PortCfg := if n = 4 then w.pdmCfg else w.tdmCfg (Fin.ofNat 4 n.val)

/-- The rate of a port's frames: its APLL's fs, or AUD_PDM_FS. -/
def KeySet.portFs (w : KeySet) (n : Fin 5) : Nat :=
  if n = 4 then KeySet.get w (.pdm .fs) else KeySet.get w (.apll (Fin.ofNat 2 (w.portCfg n).apll) .fs)

/-- A tick source's five keys: kind, bind, count, period, phase. -/
def KeySet.tick (w : KeySet) (k : Fin 16) : Nat × Nat × Nat × Nat × Nat :=
  let g (x : TickKey) : Nat := KeySet.get w (.tick k x)
  (g .kind, g .bind, g .count, g .period, g .phase)

/-- Kind, binding and count of a source. -/
def KeySet.kind (w : KeySet) (k : Fin 16) : Nat := KeySet.get w (.tick k .kind)
def KeySet.bind (w : KeySet) (k : Fin 16) : Nat := KeySet.get w (.tick k .bind)
def KeySet.tickCount (w : KeySet) (k : Fin 16) : Nat := KeySet.get w (.tick k .count)

/-- The nominal interval of a source in picoseconds (R413). -/
def KeySet.intervalQ (w : KeySet) (k : Fin 16) : Rat :=
  match w.kind k with
  | 1 =>
    let x := w.rxCfg (Fin.ofNat 2 (w.bind k))
    (w.tickCount k * x.linePs * (if x.layout = 1 then 2 else 1) : Nat)
  | 2 => ((w.tickCount k * 1000000000000 : Nat) : Rat) / (w.portFs (Fin.ofNat 5 (w.bind k)) : Nat)
  | 3 => (KeySet.get w .imgGenPeriod * 1000 : Nat)
  | 4 => (KeySet.get w (.tick k .period) * 1000000 : Nat)
  | _ => 0

/-- The ROWGROUP sources bound to a receiver. -/
def KeySet.rowSources (w : KeySet) (n : Fin 2) : List (Fin 16) :=
  (List.finRange 16).filter (fun k => w.kind k = 1 && w.bind k = n.val)

/-- g of a receiver (R297). -/
def KeySet.rowsPer (w : KeySet) (n : Fin 2) : Nat := ((w.rowSources n).head?.map w.tickCount).getD 16

/-! ### Areas (R297, R335, R540) -/

/-- An area in use: its place, its bytes, the key that places it. -/
structure Area where
  place : AudPlace
  len : Nat
  key : Key
deriving DecidableEq, Repr

/-- Two areas share a byte. -/
def Area.meets (a b : Area) : Bool := a.place.meets a.len b.place b.len

/-- An area lies in its space. -/
def Area.fits (a : Area) : Bool := decide (a.place.off + a.len ≤ a.place.size)

/-- The imaging areas (R297): band slots and histogram buffers of enabled receivers, output slots of transmitters in use,
result records of groups with a producing entry. -/
def KeySet.imgAreas (w : KeySet) : List Area :=
  let rx := (List.finRange 2).flatMap (fun n =>
    let x := w.rxCfg n
    if x.phy = 0 then []
    else
      ((List.finRange 4).map (fun c =>
        (⟨.cluster c x.slotAddr, 4 * x.slots * (w.rowsPer n * x.rowStride), .rx n .slotAddr⟩ : Area))) ++
        [⟨.cluster (clusterAddr x.histAddr).1 (clusterAddr x.histAddr).2, 16384, .rx n .histAddr⟩])
  let tx := (List.finRange 2).flatMap (fun n =>
    let t := w.txCfg n
    if t.src = 0 then []
    else (List.finRange 4).map (fun c => (⟨.cluster c t.slotAddr, 12 * (64 + t.group * txStride t), .tx n .slotAddr⟩ : Area)))
  let res := (List.finRange 3).flatMap (fun g =>
    if KeySet.get w (.resEntry g) = 0xFFFF then []
    else
      let (c, o) := clusterAddr (KeySet.get w (.resAddr g))
      [(⟨.cluster c o, 16, .resAddr g⟩ : Area)])
  rx ++ tx ++ res

/-- The block rings of enabled directions (R335). -/
def KeySet.audAreas (w : KeySet) : List Area :=
  (List.finRange 5).flatMap (fun n =>
    let c := w.portCfg n
    let t : Fin 4 := Fin.ofNat 4 n.val
    (if c.inMask = 0 then []
     else [(⟨audPlace c.inRing, c.inK * c.stride c.eIn, if n = 4 then .pdm .ring else .tdm t .inRing⟩ : Area)]) ++
      (if c.outMask = 0 then []
       else [(⟨audPlace c.outRing, c.outK * c.stride c.eOut, .tdm t .outRing⟩ : Area)]))

/-- Stage n + 2 is in use: its record key is set (log entry 81). -/
def KeySet.stageUsed (w : KeySet) (n : Fin 2) : Bool := KeySet.get w (.cascRec (Fin.ofNat 3 (n.val + 1))) ≠ 0

/-- The replay areas of the stages in use (R540). -/
def KeySet.replayAreas (w : KeySet) : List Area :=
  let stride := (64 + KeySet.get w (.pdm .block) * KeySet.get w .cascTracks * 2 + 63) / 64 * 64
  ((List.finRange 2).filter w.stageUsed).map (fun n =>
    (⟨.cluster (Fin.ofNat 4 (KeySet.get w (.stage n .cluster))) (KeySet.get w (.stage n .replay)),
      64 + KeySet.get w (.stage n .depth) * stride, .stage n .replay⟩ : Area))

/-- The receive rings of the streams set (R515). -/
def State.streamAreas (s : State) : List Area :=
  (List.finRange 16).flatMap (fun n =>
    let x := s.link.rxs[n]
    if x.on then [(⟨audPlace x.ring, x.k * (64 + x.unitBytes), .runTimetable⟩ : Area)] else [])

/-- The first area that meets an earlier one, or one of others. -/
def firstLap (others : List Area) : List Area → Option Area
  | [] => none
  | a :: t => if others.any a.meets then some a else firstLap (a :: others) t

/-! ### Timetables -/

/-- An entry of 64 bytes (R26). -/
def entryOf (l : List Byte) : Entry :=
  { id := field l 0 2, source := Fin.ofNat 16 (bits (field l 2 1) 0 4), cluster := Fin.ofNat 4 (bits (field l 3 1) 0 2),
    cls := bits (field l 3 1) 2 2, policy := bits (field l 3 1) 4 3, divide := field l 4 1, phase := field l 5 1,
    order := field l 6 1, cargo := field l 7 1, budget4 := field l 8 4, budget3 := field l 12 4, timeout := field l 16 4,
    point := field l 20 4, alt := field l 24 4,
    waits := (List.range 4).map (fun i => BitVec.ofNat 32 (field l (32 + 4 * i) 4)),
    raises := (List.range 4).map (fun i => BitVec.ofNat 32 (field l (48 + 4 * i) 4)) }

/-- The bytes of a timetable as firmware copies them (R416, R427): from a current region whose partition can be reached, with the
region's owner; at most the header and 256 entries. -/
def State.ttBytes (s : State) (h off : Nat) : Option (List Byte × Nat) :=
  match s.region? h with
  | some (p, r) =>
    if s.on (clusterReach p) && decide (off % 64 = 0 ∧ off ≤ r.len) then
      let room := r.len - off
      let len := leVal (s.dram.readBytes (r.base + off + 4) 4)
      some (s.dram.readBytes (r.base + off) (min room (min (max len 32) 16416)), r.owner)
    else none
  | none => none

/-- Entries that a header announces. -/
def ttCount (l : List Byte) : Nat := if field l 2 1 = 0 then 256 else field l 2 1

/-- The entries whose bytes are there, with the offset of each. -/
def ttEntries (l : List Byte) : List (Nat × Entry) :=
  (List.range (min (ttCount l) ((l.length - 32) / 64))).map (fun i => (32 + 64 * i, entryOf ((l.drop (32 + 64 * i)).take 64)))

/-- The timetable of its bytes. -/
def ttOf (l : List Byte) (owner : Nat) : Timetable :=
  { switch := Fin.ofNat 16 (bits (field l 3 1) 0 4), entries := (ttEntries l).map (·.2), owner := owner }

/-- The header's first failure (R25). -/
def ttHeader (w : KeySet) (l : List Byte) : Option Nat :=
  failAt 0
    [(decide (l.length < 32), 0), (decide (field l 0 2 ≠ 1), 0),
     (decide (field l 4 4 ≠ 32 + 64 * ttCount l ∨ l.length ≠ field l 4 4), 4),
     (decide (field l 8 4 ≠ crc32c (l.take 8 ++ zeros 4 ++ l.drop 12)), 8), (decide (bits (field l 3 1) 4 4 ≠ 0), 3),
     (!allZero ((l.drop 12).take 20), 12), (decide (w.kind (Fin.ofNat 16 (bits (field l 3 1) 0 4)) = 0), 3)]

/-- The first failure of an entry (R26 to R29, R216), at its offset in the entry. -/
def State.ttEntryBad (s : State) (w : KeySet) (seen : List Nat) (l : List Byte) : Option Nat :=
  let e := entryOf l
  let kind := w.kind e.source
  let g := s.cargo? e.cargo
  let point := g.bind (fun g => g.points.find? (fun p => p.headerOff = e.point))
  let alt := g.bind (fun g => g.points.find? (fun p => p.headerOff = e.alt))
  let mainAt := (g.bind (fun g => g.points.findIdx? (fun p => p.headerOff = e.point))).getD 64
  let refs : List (Bool × Nat) :=
    (List.range 4).map (fun i => (!waitLegal (e.waits.getD i 0), 32 + 4 * i)) ++
      (List.range 4).map (fun i => (!refLegal (e.raises.getD i 0), 48 + 4 * i))
  failAt 0 (
    [(decide (bits (field l 2 1) 4 4 ≠ 0), 2), (bit (field l 3 1) 7, 3), (!allZero ((l.drop 28).take 4), 28),
     (decide (255 < e.id ∨ e.id ∈ seen), 0), (decide (kind = 0), 2), (decide (3 < e.policy), 3),
     (decide (e.divide < 1 ∨ 16 < e.divide), 4), (decide (e.divide ≤ e.phase), 5),
     (decide (e.timeout < 1 ∨ 1000000 < e.timeout), 16), (decide (e.policy = 1 ∧ e.alt = 0), 24),
     (decide (e.policy = 2 ∧ kind ≠ 2), 3)] ++ refs ++
    [(decide (w.intervalQ e.source * (e.divide : Nat) < (e.timeout * 1000000 : Nat)), 16),
     (!(g.map (fun g => decide (e.cluster ∈ g.clusters))).getD false, 7),
     (!(point.map (fun p => !p.alt)).getD false, 20),
     (decide (e.alt ≠ 0) && !(alt.map (fun p => p.alt && decide (p.main = mainAt))).getD false, 24)])

/-- E_TT_INVALID over the entries in order. -/
def State.ttEntriesBad (s : State) (w : KeySet) (l : List Byte) : List Nat → List (Nat × Entry) → Option Reply
  | _, [] => none
  | seen, (off, e) :: t =>
    match s.ttEntryBad w seen ((l.drop off).take 64) with
    | some x => some (err 0x8601 (some (off + x)) (some e.id))
    | none => State.ttEntriesBad s w l (e.id :: seen) t

/-- The working and the persistent ranges of an entry's points (R213). -/
def State.entryRanges (s : State) (e : Entry) : List (Nat × Nat) × List (Nat × Nat) :=
  let ps := (s.point? e false).toList ++ (if e.alt = 0 then [] else (s.point? e true).toList)
  (ps.map (fun p => (p.workLo, p.workLen)), ps.map (fun p => (p.keepLo, p.keepLen)))

/-- Two lists of ranges share a byte. -/
def rangesMeet (a b : List (Nat × Nat)) : Bool := a.any (fun x => b.any (fun y => overlap x.1 x.2 y.1 y.2))

/-- Two entries of one cluster break R213. -/
def State.rangesClash (s : State) (a b : Entry) : Bool :=
  let (wa, ka) := s.entryRanges a
  let (wb, kb) := s.entryRanges b
  a.cluster = b.cluster &&
    ((decide (a.cls ≠ b.cls) && rangesMeet wa wb) || rangesMeet ka wb || rangesMeet ka kb || rangesMeet wa kb)

/-- The entry_ids that loaded DSP images hold (R392). -/
def State.dspIds (s : State) : List Nat :=
  s.dsps.toList.flatMap (fun d => (d.image.map (fun i => i.tasks.map (·.entry))).getD [])

/-- U4 and U3 of a cluster (R30). -/
def State.utils (s : State) (w : KeySet) (t : Timetable) (c : Fin 4) : Rat × Rat :=
  let l := t.entries.filter (fun e => e.cluster = c && e.cls = 0)
  let iv (e : Entry) : Rat := w.intervalQ e.source * (e.divide : Nat)
  (utilisation (l.map (fun e => (e.budget4, iv e))),
   utilisation (l.map (fun e =>
     (if e.policy = 1 then ((s.point? e true).map (·.budget3)).getD 0 else e.budget3, iv e))))

/-- E_TT_OVERCOMMIT (R30): clusters ascending, U4 before U3. -/
def State.ttOver (s : State) (w : KeySet) (t : Timetable) : Option Reply :=
  (List.finRange 4).findSome? (fun c =>
    let (u4, u3) := s.utils w t c
    let bad (u : Rat) (n : Nat) : Option Reply :=
      if (95 : Rat) / 100 < u then some (err 0x8602 (some (u * 1000).floor.toNat) (some (256 * n + c.val))) else none
    (bad u4 4).orElse (fun _ => bad u3 3))

/-- The timetable checks in the order of R416: E_TT_INVALID, E_TT_RANGES, E_TT_ENTRY, E_TT_OVERCOMMIT. -/
def State.ttCheck (s : State) (w : KeySet) (l : List Byte) : Option Reply :=
  match ttHeader w l with
  | some x => some (err 0x8601 (some x))
  | none =>
    let es := ttEntries l
    match s.ttEntriesBad w l [] es with
    | some r => some r
    | none =>
      match es.find? (fun b => es.any (fun a => decide (a.1 < b.1) && s.rangesClash a.2 b.2)) with
      | some b => some (err 0x8603 (some (b.1 + 20)) (some b.2.id))
      | none =>
        match es.find? (fun e => decide (e.2.id ∈ s.dspIds)) with
        | some e => some (err 0x8604 (some e.1) (some e.2.id))
        | none => s.ttOver w (ttOf l 0)

end Sys2Proof.Machine
end

