-- ==== Sys2Proof/Machine/Audio.lean ====
section
/-! DEFINITION. The meanings of audio clocks, ports, PDM inputs, VAUX and the cascade's sessions (chapter 9, R434, R435, R541 to
R543). -/

namespace Sys2Proof.Machine

/-! ### APLLs -/

/-- Ports whose time to start has come start at a strobe of their domain (R341). -/
def State.startDue (s : State) (l : List (Fin 5)) : State :=
  (l.foldl (fun (s : State) n =>
    match s.aud.port[n].startAfter with
    | some t => if t < s.now then s.startPort n else s
    | none => s) s).audSettle

/-- APLL_STROBE (R323, R326, R327, R338, R343, R347 to R349, R356). -/
def execApllStrobe (m : Fin 2) (s : State) : Host.Outcome State Fault Refusal :=
  .next (if !s.on 2 || !s.aud.apll[m].started || s.strobeWaits m then s
    else
      let s := s.modApll m (fun a =>
        { a with
          strobes := a.strobes + 1, refLost := a.refLost && !(decide (a.mode = 3) && !s.timeUnlocked), align := false,
          wclkRise := if a.drives then some s.now else none })
      let s := s.strobeError m
      let tdm : List (Fin 5) := ([0, 1, 2, 3] : List (Fin 5)).filter (fun n => s.aud.port[n].cfg.apll = m.val)
      let s := (tdm.filter (fun n => s.aud.port[n].running)).foldl State.portStrobe s
      let s := if s.audQuiescing then s else s.startDue (tdm.filter (fun n => !s.aud.port[n].running))
      s.settleStop)

/-- WCLK_EDGE (R324, R329): an edge is stamped; the first after a loss restarts the count. -/
def execWclkEdge (m : Fin 2) (s : State) : Host.Outcome State Fault Refusal :=
  let a := s.aud.apll[m]
  .next (if s.on 2 && a.started && decide (a.mode = 2) then
    let s := s.modApll m (fun a =>
      { a with
        lastEdge := s.now, refLost := false, edges := if a.refLost then [s.now] else a.edges ++ [s.now],
        unpaired := if a.refLost then [] else a.unpaired })
    State.pairEdges m 1 s
  else s)

/-- The reference of an APLL is lost (R329). -/
def State.refGone (s : State) (m : Fin 2) : Bool :=
  let a := s.aud.apll[m]
  match a.mode with
  | 1 => s.aud.port[Fin.ofNat 5 a.port.val].noClock
  | 2 => decide (a.lastEdge * a.fs + 4000000000 ≤ s.now * a.fs)
  | 3 => s.timeUnlocked
  | _ => false

/-- APLL_REF_LOST (R329): the loop holds w and integ. -/
def execApllRefLost (m : Fin 2) (s : State) : Host.Outcome State Fault Refusal :=
  .next (if s.on 2 && s.aud.apll[m].started && !s.aud.apll[m].refLost && s.refGone m then
    s.modApll m (fun a => { a with refLost := true, locked := false, unpaired := [], edges := [], errSum := 0, errN := 0 })
  else s)

/-! ### TDM ports -/

/-- The followed port has a clock: the reference of the APLLs in PORT mode that follow it is there (R329). -/
def State.portClock (s : State) (n : Fin 4) : State :=
  (List.finRange 2).foldl (fun (s : State) m =>
    s.modApll m (fun a => { a with refLost := a.refLost && !(decide (a.mode = 1) && decide (a.port = n)) })) s

/-- TDM_FS_EDGE (R329, R347, R351): an external frame begins. -/
def execTdmFsEdge (n : Fin 4) (s : State) : Host.Outcome State Fault Refusal :=
  let i : Fin 5 := Fin.ofNat 5 n.val
  let p := s.aud.port[i]
  .next (if !(s.on 2 && p.running && p.cfg.slave) then s
    else if p.noClock then
      ((s.modAud i (fun p => { p with noClock := false, restart := 1, silent := true, lastFs := s.now })).portClock n).event
        0x0503 0 (0x10 + n.val) false (leBytes 1 n.val)
    else
      (s.modAud i (fun p => { p with lastFs := s.now, restart := if p.restart = 2 then 3 else p.restart })).portClock n)

/-- TDM_SLOT_RECEIVED (R333, R347, R348): the data bits of an input slot. -/
def execTdmSlotReceived (n : Fin 4) (slot : Fin 32) (word : W32) (s : State) : Host.Outcome State Fault Refusal :=
  let i : Fin 5 := Fin.ofNat 5 n.val
  let p := s.aud.port[i]
  .next (if !(s.on 2 && p.running && bit p.cfg.inMask slot.val) then s
    else if !p.cfg.slave then
      let pos := ((maskSlots p.cfg.inMask).filter (fun x => x < slot.val)).length
      s.modAud i (fun p =>
        { p with inBuf := setAt (p.inBuf ++ List.replicate (p.cfg.eIn - p.inBuf.length) (0, 0)) pos (word, s.now) })
    else if p.noClock || decide (p.restart = 2) || (decide (p.restart = 1) && p.silent) then s
    else if 8 * p.cfg.eIn ≤ p.inBuf.length then s.slip i false true
    else s.modAud i (fun p => { p with inBuf := p.inBuf ++ [(word, p.lastFs)] }))

/-- TDM_OUTPUT_SLOT_DUE (R332, R346, R347, R349): a slot is due on DO; none is high impedance. A master carries what its FIFO took three frames before. -/
def execTdmOutputSlotDue (n : Fin 4) (slot : Fin 32) (s : State) : Host.Outcome State Fault Refusal :=
  let i : Fin 5 := Fin.ofNat 5 n.val
  let p := s.aud.port[i]
  let carry (w : W32) (s : State) : State := s.modAud i (fun p => { p with lastOut := setAt p.lastOut slot.val (some w) })
  .next (if !(s.on 2 && p.running) then s
    else if !bit p.cfg.outMask slot.val then
      if p.cfg.hiz then s.modAud i (fun p => { p with lastOut := setAt p.lastOut slot.val none }) else carry 0 s
    else if !p.cfg.slave then
      let pos := ((maskSlots p.cfg.outMask).filter (fun x => x < slot.val)).length
      carry (if s.active && decide (p.outBuf.length = 4 * p.cfg.eOut) then p.outBuf.getD pos 0 else 0) s
    else if p.quiet then carry 0 s
    else
      match p.outBuf with
      | w :: rest => carry (if s.active then w else 0) (s.modAud i (fun p => { p with outBuf := rest }))
      | [] => carry 0 (s.slip i true false))

/-- TDM_CLOCK_LOST (R351): no bit clock for four frames. -/
def execTdmClockLost (n : Fin 4) (s : State) : Host.Outcome State Fault Refusal :=
  let i : Fin 5 := Fin.ofNat 5 n.val
  let p := s.aud.port[i]
  let fs := (s.aud.apll[Fin.ofNat 2 p.cfg.apll]).fs
  .next (if s.on 2 && p.running && p.cfg.slave && !p.noClock && decide (p.lastFs * fs + 4000000000 ≤ s.now * fs) then
    let s := s.modAud i (fun p =>
      { p.mark 0x08 with noClock := true, restart := 0, silent := false, lastOut := List.replicate 32 (some 0), inBuf := [], outBuf := [] })
    (s.audErr i 0x04).event 0x0502 0 (0x10 + n.val) false (leBytes 1 n.val)
  else s)

/-- ZC_TIMEOUT (R353): changes whose timeout has passed apply at the next frame. -/
def execZcTimeout (port : Fin 5) (s : State) : Host.Outcome State Fault Refusal :=
  .next (s.modAud port (fun p =>
    { p with
      pend := p.pend.map (fun (z : ZcPend) => if z.deadline ≤ s.now then { z with forced := true } else z) }))

/-! ### PDM and VAUX -/

/-- The PDM divider at a frame boundary (R356): it applies the tracked APLL's w, or holds. Answers whether tracking changed. -/
def State.pdmTrack (s : State) : State × Bool :=
  let k := s.aud.port[(4 : Fin 5)].cfg.apll
  let follow := s.on 2 && decide (k < 2)
  let w := if follow then (s.aud.apll[Fin.ofNat 2 k]).w else s.aud.pdmW
  ({ s with aud := { s.aud with pdmW := w, pdmTracking := follow } }, follow != s.aud.pdmTracking)

/-- PDM_FRAME (R355, R356, R537, R538): the sixteen decimated values of a frame. -/
def execPdmFrame (samples : List (BitVec 24)) (s : State) : Host.Outcome State Fault Refusal :=
  .next (if !s.pdmRuns then s
    else
      let (s, changed) := s.pdmTrack
      let s := { s with aud := { s.aud with pdmAt := some s.now } }
      let p := s.aud.port[(4 : Fin 5)]
      if !p.running then s.startDue [4]
      else
        let xs := (maskSlots p.cfg.inMask).map (fun c => scaleTo 24 p.cfg.bits (sgn 24 (samples.getD c 0).toNat))
        let flags : W16 := (if s.timeUnlocked then 0x800 else 0) ||| (if s.aud.vaux.fault then 0x200 else 0) |||
          (if changed then 0x400 else 0)
        let s := s.inFrame 4 xs flags 0 none
        let b := s.aud.port[(4 : Fin 5)].inBlk
        if b.frame < p.cfg.block then s
        else
          let seq := s.openSeq 4 false
          let f := b.flags ||| (if b.zcForced ≠ 0 then 0x100 else 0)
          let s := s.closeInput 4
          ((s.listenTick seq b.stamp f b.samples).cascTick.boundary 4).settleStop)

/-- VAUX_RAMP_DONE (R357). -/
def execVauxRampDone (s : State) : Host.Outcome State Fault Refusal :=
  .next (if s.on 1 && s.aud.vaux.ramping then
    { s with aud := { s.aud with vaux := { s.aud.vaux with ramping := false, on := true, rampDone := some s.now } } }
  else s)

/-- PDM_CLOCK_START (R357): 1 ms after the ramp. -/
def execPdmClockStart (s : State) : Host.Outcome State Fault Refusal :=
  .next (if s.on 1 && !s.aud.pdmClk && (s.aud.vaux.rampDone.map (fun t => decide (t + 1000000 ≤ s.now))).getD false then
    { s with aud := { s.aud with pdmClk := true } }
  else s)

/-- VAUX_OVERCURRENT (R357). -/
def execVauxOvercurrent (s : State) : Host.Outcome State Fault Refusal :=
  .next (if s.on 1 && s.aud.vaux.enabled && !s.aud.vaux.fault then
    (State.irqSync
      { s with aud := { s.aud with vaux := { s.aud.vaux with on := false, ramping := false, rampDone := none, fault := true } } }
    ).event 0x0506 0 0xFF true []
  else s)

/-- Writing 1 to AUD_VAUX_STATUS.fault (R357). -/
def State.vauxClear (s : State) : State :=
  if s.on 1 && s.aud.vaux.fault then
    State.irqSync
      { s with
        aud := { s.aud with vaux := { s.aud.vaux with fault := false, ramping := s.aud.vaux.enabled } } }
  else s

/-- VAUX_FAULT_CLEAR (R357). -/
def execVauxFaultClear (s : State) : Host.Outcome State Fault Refusal := .next s.vauxClear

/-! ### Commands of ports (R434, R435) -/

/-- A port's committed keys. -/
def State.portCfg (s : State) (n : Fin 5) : PortCfg := KeySet.portCfg s.cfg.committed n

/-- A port is started or is to start. -/
def Port.live (p : Port) : Bool := p.running || p.startAfter.isSome

/-- An APLL starts (R328, R358): with its committed keys, w and integ 0, unlocked. -/
def State.startApll (s : State) (m : Fin 2) : State :=
  let k (x : ApllKey) : Nat := s.key (.apll m x)
  s.modApll m (fun _ =>
    { Apll.reset with
      started := true, fs := k .fs, mode := k .mode, port := Fin.ofNat 4 (k .port), block := k .block, phase := k .phase,
      wclkOut := decide (k .wclkOut = 1), lastEdge := s.now, align := s.aud.apll[m].align })

/-- The ports of a mask. -/
def maskPorts (m : Nat) : List (Fin 5) := (List.finRange 5).filter (fun n => bit m n.val)

/-- AUD_PORT_START (R334, R341, R434). -/
def execAudPortStart (m : Fin 8) (s : State) : Host.Outcome State Fault Refusal :=
  .next (s.withTaken m 0x0601 (fun t =>
    let p := t.payload
    let l := maskPorts (field p 0 1)
    let cfg (n : Fin 5) : PortCfg := s.portCfg n
    let aplls := (l.map (fun n => (cfg n).apll)).eraseDups
    match [(decide (0x1F < field p 0 1), err 0x8006 (some 0)), (decide (field p 1 7 ≠ 0), err 0x8006 (some 1)),
        (l.any (fun n => s.aud.port[n].live || (decide ((cfg n).inMask = 0) && decide ((cfg n).outMask = 0))), err 0x8305),
        (decide (1 < aplls.length), err 0x8304)].find? (fun x => x.1) with
    | some x => s.reply m x.2
    | none =>
      let s := (List.finRange 2).foldl
        (fun (s : State) (a : Fin 2) =>
          if decide (a.val ∈ aplls) && !s.aud.port.toList.any (fun (p : Port) => p.live && decide (p.cfg.apll = a.val)) then
            s.startApll a
          else s) s
      let s := l.foldl
        (fun (s : State) n =>
          s.modAud n (fun x =>
            { Port.reset with
              cfg := cfg n, startAfter := some (field p 8 8), gainIn := List.replicate 32 0x1000,
              gainOut := List.replicate 32 0x1000, err := x.err, inSlips := x.inSlips, outSlips := x.outSlips,
              lastSeq := x.lastSeq })) s
      (s.fly m 1 [field p 0 1] []).audSettle))

/-- AUD_PORT_STOP (R434). -/
def execAudPortStop (m : Fin 8) (s : State) : Host.Outcome State Fault Refusal :=
  .next (s.withTaken m 0x0602 (fun t =>
    let p := t.payload
    let l := maskPorts (field p 0 1)
    match [(decide (0x1F < field p 0 1), err 0x8006 (some 0)), (decide (field p 1 7 ≠ 0), err 0x8006 (some 1)),
        (l.any (fun n => !s.aud.port[n].live), err 0x8305)].find? (fun x => x.1) with
    | some x => s.reply m x.2
    | none =>
      let s := l.foldl
        (fun (s : State) n =>
          if s.aud.port[n].running then s.modAud n (fun x => { x with stopping := true }) else s.stopPort n false) s
      (s.fly m 1 [field p 0 1] []).audSettle))

/-- AUD_PORT_RESTART (R347, R434). -/
def execAudPortRestart (m : Fin 8) (s : State) : Host.Outcome State Fault Refusal :=
  .next (s.answer m 0x0603 (fun t =>
    let p := t.payload
    let l := maskPorts (field p 0 1)
    s.checked
      [(decide (0x1F < field p 0 1), err 0x8006 (some 0)), (decide (field p 1 7 ≠ 0), err 0x8006 (some 1)),
        (l.any (fun n => !s.aud.port[n].running || !s.aud.port[n].cfg.slave), err 0x8305)]
      (fun s =>
        (l.foldl (fun (s : State) n => s.modAud n (fun x => { x with restart := if x.restart = 0 then 1 else x.restart })) s,
          ok []))))

/-- AUD_CHAN_SET (R352 to R354, R435). -/
def execAudChanSet (m : Fin 8) (s : State) : Host.Outcome State Fault Refusal :=
  .next (s.answer m 0x0604 (fun t =>
    let p := t.payload
    let n : Fin 5 := Fin.ofNat 5 (field p 0 1)
    let out := decide (field p 1 1 = 1)
    let c := s.aud.port[n].cfg
    let mask := if out then c.outMask else c.inMask
    let slots := maskSlots (field p 4 4)
    let off (i : Nat) : Nat := 8 + 4 * i
    let bad := (List.range slots.length).find? (fun i => decide (1 < field p (off i + 2) 1) || decide (field p (off i + 3) 1 ≠ 0))
    s.checked
      [(decide (4 < field p 0 1), err 0x8006 (some 0)),
        (decide (1 < field p 1 1) || (decide (n = 4) && out), err 0x8006 (some 1)), (decide (field p 2 2 ≠ 0), err 0x8006 (some 2)),
        (bad.isSome, err 0x8006 (bad.map (fun i => off i + 2))),
        (slots.any (fun k => !bit mask k), err 0x8301 (some 4))]
      (fun s =>
        let new : List ZcPend := slots.zipIdx.map (fun (x : Nat × Nat) =>
          { out := out, pos := ((maskSlots mask).filter (fun k => k < x.1)).length, gain := field p (off x.2) 2,
            mute := decide (field p (off x.2 + 2) 1 = 1), deadline := s.now + c.zcTimeout * 100000, forced := false })
        let hit (z : ZcPend) : Bool := new.any (fun y => y.out = z.out && y.pos = z.pos)
        let replaced := s.aud.port[n].pend.any hit
        (s.modAud n (fun x => { x with pend := x.pend.filter (fun z => !hit z) ++ new }),
          ⟨if replaced then 0x4004 else 0, []⟩))))

/-! ### Sessions (R541 to R543, R546) -/

/-- REPLAY_SLOT_WRITE (R542): the next record, once a credit is had. -/
def execReplaySlotWrite (stage : Fin 2) (s : State) : Host.Outcome State Fault Refusal :=
  .next (match s.casc.stage[stage].session with
    | none => s
    | some x =>
      match s.casc.ring.find? (fun r => r.seq = x.next) with
      | none => s
      | some r =>
        let ref := BitVec.ofNat 32 (s.key (.stage stage .creditLock))
        let c := refCluster ref
        if !s.stageUp stage || decide (2 ≤ s.pwr.level) || x.waiting then s
        else if x.credit || !refValid ref then s.replayWrite stage x r
        else if !s.clusterUp c then s
        else
          match s.lockWait (some c) (refLock ref) 1 (s.now + 100000000) (.replay stage) with
          | (s, .released) => s.replayWrite stage x r
          | (s, .queued) =>
            s.modStage stage (fun t =>
              { t with session := t.session.map (fun (y : Session) => { y with waiting := true, since := some s.now }) })
          | (s, .full) => s.dropSession stage 2)

/-- CASCADE_CREDIT_TIMEOUT (R542, R543). -/
def execCascadeCreditTimeout (stage : Fin 2) (s : State) : Host.Outcome State Fault Refusal :=
  .next (match (s.casc.stage[stage].session).bind (fun x => x.since) with
    | some t => if t + 100000000 < s.now then s.dropSession stage 2 else s
    | none => s)

/-- CASCADE_SESSION_LIMIT (R539, R543). -/
def execCascadeSessionLimit (stage : Fin 2) (s : State) : Host.Outcome State Fault Refusal :=
  .next (match s.casc.stage[stage].session with
    | some x => if x.mark + s.key (.stage stage .limit) * 1000000000 < s.now then s.dropSession stage 1 else s
    | none => s)

end Sys2Proof.Machine
end

