-- ==== Sys2Proof/Machine/BargeCmds.lean ====
section
/-! DEFINITION. The meanings of a barge's start, completion and timeout (R233 to R237, R240). -/

namespace Sys2Proof.Machine

/-- BARGE_START (R233). -/
def execBargeStart (bid : Nat) (s : State) : Host.Outcome State Fault Refusal :=
  .next (match s.barge? bid with
    | some b => if s.bargeReady b then s.startBarge b else s
    | none => s)

/-- BARGE_COMPLETE (R234): a barge that its context's budget has let through whole and that no copy of a row range
holds (R278). -/
def execBargeComplete (bid : Nat) (s : State) : Host.Outcome State Fault Refusal :=
  .next (match s.barge? bid with
    | some b => if b.started && b.owed.isEmpty && !s.bargeHeld b.desc && s.clusterUp b.cluster then s.finishBarge b else s
    | none => s)

/-- BARGE_WAIT_TIMEOUT (R236, R240): its wait has expired; BARGE_TIMEOUT. -/
def execBargeWaitTimeout (bid : Nat) (s : State) : Host.Outcome State Fault Refusal :=
  .next (match s.barge? bid with
    | none => s
    | some b =>
      let k := waitKeeper b.cluster b.desc.wait
      match (s.keeper k).waiters.find? (fun w => w.who = .barge bid && decide (w.expiry < s.now)) with
      | some w => (s.waitEnded w 1).abandonBarge b 0x0302 (w32 b.desc.tag)
      | none => s)

end Sys2Proof.Machine
end

