-- ==== Sys2Proof/Machine/ClipOps.lean ====
section
/-! DEFINITION. Clip slots between steps: the evaluation at the end of a step, reloads, linked groups (R80 to R89, R610). -/

namespace Sys2Proof.Machine

/-- What an evaluation or a reload writes: its event code, old and new ceilings, and the step's share. -/
structure ClipEv where
  code : Nat
  old : W32
  new : W32
  share : Nat
deriving DecidableEq, Repr

/-- A host reload is applied (R84): C_cal and the ceiling, no fallback, a count of 0. -/
def ClipSlot.restore (t : ClipSlot) (v : W32) (share : Nat) : ClipSlot × Option ClipEv :=
  ({ t with cCal := v, ceiling := v, inFallback := false, fbNow := false, streak := 0, reload := none }, some ⟨0x0202, t.ceiling, v, share⟩)

/-- The share of a step (R79). -/
def clipShare (clipped total : Nat) : Nat := if total = 0 then 0 else clipped * 65536 / total

/-- The evaluation of R80, of a step with the given counts and step maximum. -/
def ClipSlot.endOfStep (t : ClipSlot) (clipped total : Nat) (stepMax : W32) : ClipSlot × Option ClipEv :=
  let share := clipShare clipped total
  let hist := (stepMax :: t.hist).take t.depth
  let t := { t with
    hist := hist, steps := t.steps + 1, lastShare := BitVec.ofNat 32 share, lastClipped := clipped, lastTotal := total }
  match t.reload with
  | some v => t.restore v share
  | none =>
    if share > t.threshold then
      let new := BitVec.ofNat 32 (max32 (hist.foldl (fun m x => max32 m x.toNat) 0) t.ceiling.toNat)
      ({ t with inFallback := true, streak := 0, ceiling := new },
        if new = t.ceiling then none else some ⟨0x0201, t.ceiling, new, share⟩)
    else if t.inFallback then
      if t.streak + 1 = 64 then
        ({ t with ceiling := t.cCal, inFallback := false, streak := 0 }, some ⟨0x0202, t.ceiling, t.cCal, share⟩)
      else ({ t with streak := t.streak + 1 }, none)
    else (t, none)

/-- A step leaves its slot. -/
def ClipSlot.drop (t : ClipSlot) (f : ClipStep → Bool) : ClipSlot := { t with live := t.live.filter (fun x => !f x) }

/-- Two steps are of one layer and one tick (R85). -/
def ClipStep.same (x y : ClipStep) : Bool := x.source = y.source && x.count = y.count && x.addr = y.addr

/-- The clusters of a linked group (R85): those that run the cargo and are not in reset. -/
def State.clipGroup (s : State) (cargo : Nat) : List (Fin 4) :=
  match s.cargo? cargo with
  | some g => (List.finRange 4).filter (fun c => c ∈ g.clusters && s.clusterUp c)
  | none => []

/-- A CLIP_FALLBACK or CLIP_RESTORE event of a slot on some clusters (R83). -/
def State.clipEvent (s : State) (t : ClipSlot) (cs : List (Fin 4)) (e : Option ClipEv) : State :=
  match e with
  | none => s
  | some e =>
    s.event e.code s.ttOwner ((cs.head?.map (·.val)).getD 0xFF) false
      (leBytes 1 t.cargo ++ leBytes 2 t.slot ++ w32 e.old ++ w32 e.new ++ leBytes 4 e.share ++
        leBytes 1 ((cs.map (fun c => 2 ^ c.val)).sum))

/-- A reload applied is kept for partition resets (R88). -/
def State.keepReload (s : State) (cs : List (Fin 4)) (t : ClipSlot) (v : W32) : State :=
  cs.foldl (fun (s : State) c => s.modCl c (fun k =>
    { k with reloads := (t.cargo, t.slot, v) :: k.reloads.filter (fun x => ¬ (x.1 = t.cargo ∧ x.2.1 = t.slot)) })) s

/-- The clusters a cargo was loaded for. -/
def State.clipAll (s : State) (cargo : Nat) : List (Fin 4) := ((s.cargo? cargo).map (·.clusters)).getD []

/-- Put a group's result into every slot of it (R85): the ceiling comes into force at the next tick of source k. -/
def ClipSlot.joined (t : ClipSlot) (g : ClipSlot) (k : Fin 16) : ClipSlot :=
  { t with
    cCal := g.cCal, inFallback := g.inFallback, streak := g.streak, hist := g.hist, reload := g.reload, steps := g.steps,
    lastShare := g.lastShare, lastClipped := g.lastClipped, lastTotal := g.lastTotal, next := some (g.ceiling, g.inFallback, k) }

/-- The evaluation of a slot on its own (R80, R83), of step x. -/
def State.evalSlot (s : State) (c : Fin 4) (t : ClipSlot) (x : ClipStep) : State :=
  let (r, ev) := t.endOfStep x.clipped x.total x.stepMax
  let s := match t.reload with
    | some v => s.keepReload [c] t v
    | none => s
  (s.clipEvent t [c] ev).modSlot c t.cargo t.slot (fun _ => { r.drop (fun y => y = x) with fbNow := r.inFallback })

/-- The watchers of a layer count its step (R610): steps, cycles (a free value: log entry 51), and the flags IDN, UFL, OV, INV, V,
DZ raised. -/
def State.watchStep (s : State) (c : Fin 4) (t : ClipSlot) (x : ClipStep) : State :=
  (List.finRange 8).foldl
    (fun (s : State) w =>
      let f := s.trc.lwFlags[w]
      if s.watched w = some (c, t.cargo, bits x.addr 0 24) && bit f 16 then
        let b := 256 + 8 * w.val
        let (n, s) := s.draw
        let s := (s.count b 1).count (b + 1) n
        let s := ([0, 1, 2, 3, 5, 4].zipIdx).foldl
          (fun (s : State) (x : Nat × Nat) => if bit f x.1 then s.count (b + 2 + x.2) 1 else s) s
        { s with trc := { s.trc with lwFlags := vset s.trc.lwFlags w 0 } }
      else s) s

/-- The steps of one tick of a linked slot can be combined (R85): on no cluster of the group is one of them in progress, or a run
of the cargo for the tick still to end. -/
def State.tickOver (s : State) (cargo slot : Nat) (x : ClipStep) : Bool :=
  let cs := s.clipGroup cargo
  !(cs.any (fun c => (s.slot? c cargo slot).any (fun t => t.live.any (fun y => y.same x && !y.ended)))) &&
    !(s.sched.runs.any (fun r => r.entry.cargo = cargo && decide (r.entry.cluster ∈ cs) && r.entry.source = x.source &&
      r.count = x.count && r.phase ≠ .dropped))

/-- The evaluation of a linked group (R85), of its steps of the tick and layer of step x. -/
def State.evalLinked (s : State) (lead : ClipSlot) (x : ClipStep) : State :=
  let cs := s.clipGroup lead.cargo
  let of_ (c : Fin 4) : List ClipStep :=
    ((s.slot? c lead.cargo lead.slot).map (fun t => t.live.filter (fun y => y.same x))).getD []
  let due := cs.flatMap of_
  let base := match lead.next with
    | some (v, _, _) => { lead with ceiling := v }
    | none => lead
  let (g, ev) := base.endOfStep (sat48 (due.map (·.clipped)).sum) (sat48 (due.map (·.total)).sum)
    (BitVec.ofNat 32 (due.foldl (fun m y => max32 m y.stepMax.toNat) 0))
  let s := match lead.reload with
    | some v => s.keepReload (s.clipAll lead.cargo) lead v
    | none => s
  let s := s.clipEvent lead cs ev
  let s := cs.foldl (fun (s : State) c => (of_ c).foldl (fun (s : State) y => s.watchStep c lead y) s) s
  cs.foldl (fun (s : State) c => s.modSlot c lead.cargo lead.slot (fun t => (t.joined g x.source).drop (fun y => y.same x))) s

/-- Firmware evaluates a slot of cluster c (R80, R85): the oldest step that has ended, of a linked slot the oldest whose tick is
over in its group. -/
def State.evaluate (s : State) (c : Fin 4) (t : ClipSlot) : State :=
  match t.live.find? (fun x => x.ended && (!t.linked || s.tickOver t.cargo t.slot x)) with
  | none => s
  | some x => if t.linked then s.evalLinked t x else (s.watchStep c t x).evalSlot c t x

/-- A reload of CARGO_CEILING (R84): applied at the end of the step in progress, or at once where none is, with a CLIP_RESTORE of
share 0 (log entry 159). -/
def State.reloadSlot (s : State) (c : Fin 4) (t : ClipSlot) (v : W32) : State :=
  let cs := if t.linked then s.clipGroup t.cargo else [c]
  let ts := cs.filterMap (fun c => s.slot? c t.cargo t.slot)
  let all := if t.linked then (List.finRange 4).filter (fun x => (s.slot? x t.cargo t.slot).isSome) else [c]
  if ts.any (fun t => !t.live.isEmpty) || ts.isEmpty || (!t.linked && !s.clusterUp c) then
    all.foldl (fun (s : State) c => s.modSlot c t.cargo t.slot (fun t => { t with reload := some v })) s
  else
    let s := s.keepReload all t v
    let s := s.clipEvent t cs (t.restore v 0).2
    all.foldl (fun (s : State) c => s.modSlot c t.cargo t.slot (fun t => { (t.restore v 0).1 with next := none })) s

/-- A slot in the state of R88, with a reload still pending. -/
def ClipSlot.initial (t : ClipSlot) (kept : Option W32) : ClipSlot :=
  let c := kept.getD t.record
  { t with
    cCal := c, ceiling := c, inFallback := false, fbNow := false, streak := 0, hist := [], live := [], steps := 0, lastShare := 0,
    lastClipped := 0, lastTotal := 0, next := none }

/-- The slots of a cluster return to the state of R88 at its restore; a linked slot takes its group's state, the ceiling in force
with the rest, where another cluster of the group is up; a reload that was pending is applied, without an event (R84, R85, R88; log
entry 159). -/
def State.restoreSlots (s : State) (c : Fin 4) : State :=
  let k := s.clusters[c]
  k.slots.foldl
    (fun (s : State) (t : ClipSlot) =>
      let kept := (k.reloads.find? (fun x => x.1 = t.cargo && x.2.1 = t.slot)).map (fun x => x.2.2)
      let i := t.initial kept
      let other := if t.linked then
          ((s.clipGroup t.cargo).filter (fun d => d ≠ c)).head?.bind (fun d => s.slot? d t.cargo t.slot)
        else none
      match other with
      | some g => s.modSlot c t.cargo t.slot (fun _ =>
          { i.joined g 0 with ceiling := g.ceiling, fbNow := g.fbNow, next := g.next })
      | none =>
        match t.reload with
        | some v =>
          (s.keepReload (if t.linked then s.clipAll t.cargo else [c]) t v).modSlot c t.cargo t.slot (fun _ => (i.restore v 0).1)
        | none => s.modSlot c t.cargo t.slot (fun _ => i)) s

end Sys2Proof.Machine
end

