-- ==== Sys2Proof/Machine/Cargo.lean ====
section
/-! DEFINITION. The meanings of the cargo commands, and what is put back on a cluster when it returns (R84, R88, R187, R200,
R214, R215, R245, R246, R257, R421 to R424). -/

namespace Sys2Proof.Machine

/-! ### What a cluster holds of a cargo -/

/-- The resident image is copied to a cluster that is up (R215). -/
def State.placeResident (s : State) (g : Cargo) (c : Fin 4) : State :=
  if s.clusterUp c && decide (c ∈ g.clusters) then s.clWrite c g.resDest (s.dram.readBytes (g.base + g.resOff) g.resLen) else s

/-- A cargo's locks take their initial levels on a cluster (R245). -/
def State.initLocks (s : State) (g : Cargo) (c : Fin 4) : State :=
  if c ∉ g.clusters then s
  else g.lockInit.zipIdx.foldl
    (fun (s : State) (x : Nat × Nat) =>
      (s.modCl c (fun k => { k with keeper := k.keeper.setLevel (g.lockFirst + x.2) x.1 })).settle (some c) (g.lockFirst + x.2)) s

/-- A set's tables are restored (R187): every sequence's length, first_live and status 0, every entry with valid and fill 0, its
frame kept. -/
def State.restoreSet (s : State) (st : SetDesc) : State :=
  (List.range st.seqs).foldl
    (fun (s : State) i =>
      let a := st.table + i * st.tableStride
      let l := s.devRead none a (16 + 4 * st.tableLen)
      let head := zeros 12 ++ (l.drop 12).take 4
      let entries := (List.range st.tableLen).flatMap (fun j => leBytes 4 (bits (field l (16 + 4 * j) 4) 0 24))
      (s.devWrite none a (head ++ entries)).1) s

/-- What a cluster gets back in its restore phase (R187, R215, R246, R527): resident images, locks, clip slots, cargo-owned
sets of its partition. -/
def State.restoreCluster (s : State) (c : Fin 4) : State :=
  let s := s.cargos.foldl (fun (s : State) g => s.placeResident g c) s
  let s := s.cargos.foldl (fun (s : State) g => s.initLocks g c) s
  let s := s.restoreSlots c
  let sets := (s.cargos.filter (fun g => c ∈ g.clusters)).flatMap (fun g =>
    (g.sets.map (fun x => SetDesc.ofBytes (s.dram.readBytes (g.base + x) 64))).filter
      (fun d => d.owned && decide (partOf d.table = some c)))
  sets.foldl State.restoreSet s

/-! ### CARGO_LOAD -/

/-- The cluster memory areas that a resident range may not touch, as (cluster, offset, bytes): imaging areas, audio rings,
receive stream rings, replay areas (R215). -/
def State.takenAreas (s : State) : List (Fin 4 × Nat × Nat) :=
  let w := s.cfg.committed
  (w.imgAreas ++ w.audAreas ++ s.streamAreas ++ w.replayAreas).filterMap (fun a => match a.place with
    | .cluster c o => some (c, o, a.len)
    | _ => none)

/-- The resident range leaves cluster memory or touches what R215 names. -/
def State.residentBad (s : State) (h : CargoHdr) (cl : List (Fin 4)) : Bool :=
  decide (0x1000000 < h.resDest + h.resLen) ||
    s.cargos.any (fun g => g.clusters.any (fun c => c ∈ cl) && overlap h.resDest h.resLen g.resDest g.resLen) ||
    s.takenAreas.any (fun a => a.1 ∈ cl && overlap h.resDest h.resLen a.2.1 a.2.2)

/-- The area of an adaptation entry meets the local ranges of TICK and INTERACTIVE entries of the committed or the running
timetable on the cluster (R200). -/
def State.adaptBad (s : State) (p : Point) (cl : List (Fin 4)) : Bool :=
  p.adapt && (s.sched.committed.toList ++ s.sched.tt.toList).any (fun t => t.entries.any (fun e =>
    decide (e.cluster ∈ cl ∧ e.cls ≤ 1) &&
      (let (w, k) := s.entryRanges e
       rangesMeet [(p.workLo, p.workLen)] (w ++ k))))

/-- A DRAM range lies in RETAIN regions of a context (R257). -/
def State.inRetain (s : State) (ctx : Nat) (a n : Nat) : Bool :=
  (blocksOf a n).all (fun b =>
    match spaceOf b with
    | .dram p _ => s.parts[p].regions.any (fun r => r.holds b && r.retain && decide (r.owner = ctx))
    | _ => false)

/-- The `n` lowest clip slot numbers free on a cluster (log entry 50). -/
def State.freeSlots (s : State) (c : Fin 4) (n : Nat) : List Nat :=
  ((List.range 512).filter (fun i => !s.clusters[c].slots.any (fun t => t.num = i))).take n

/-- A cargo's clip slots on a cluster as CARGO_LOAD leaves them (R88). -/
def cargoSlots (rd : Rd) (h : CargoHdr) (handle : Nat) (nums : List Nat) : List ClipSlot :=
  nums.zipIdx.map (fun (x : Nat × Nat) =>
    let r := h.slotsOff + 16 * x.2
    let v : W32 := BitVec.ofNat 32 (rd.le r 4)
    { cargo := handle, slot := x.2, num := x.1, record := v, cCal := v, ceiling := v, threshold := rd.le (r + 4) 4,
      depth := rd.le (r + 8) 1, linked := bit (rd.le (r + 9) 1) 0, inFallback := false, streak := 0, hist := [], live := [],
      reload := none, steps := 0, lastShare := 0, lastClipped := 0, lastTotal := 0, fbNow := false, next := none })

/-- A valid image is loaded (R421): handle, clip slots, locks, resident image. -/
def State.loadCargo (s : State) (ctx region base : Nat) (rd : Rd) (cl : List (Fin 4)) : State × Reply :=
  let h := CargoHdr.read rd
  let handle := ((List.range 255).find? (fun i => (s.cargo? i).isNone)).getD 255
  let reach := cargoReach rd h
  let g : Cargo :=
    { handle := handle, owner := ctx, region := region, base := base, len := h.len, clusters := cl,
      points := (List.range h.points).map (pointOf rd h), slots := h.slots, lockFirst := h.lockFirst,
      lockInit := (List.range h.lockN).map (fun i => rd.le (h.locksOff + 4 * i) 4), resOff := h.resOff, resLen := h.resLen,
      resDest := h.resDest, prot := reach.prot, layers := reach.layers, sets := cargoSets h reach, setsOff := h.setsOff, setCount := h.sets,
      videoL := h.videoL, videoS := h.videoS, audioA := h.audioA, adapterOff := h.adapterOff, adapterLen := h.adapterLen }
  let s := { s with cargos := s.cargos ++ [g] }
  let s := cl.foldl
    (fun (s : State) c =>
      let l := cargoSlots rd h handle (s.freeSlots c h.slots)
      let s := s.modCl c (fun k => { k with slots := k.slots ++ l, reloads := k.reloads.filter (fun r => r.1 ≠ handle) })
      (s.placeResident g c).initLocks g c) s
  (s, ok (leBytes 1 handle ++ zeros 3))

/-- The item of E_CARGO_DESC (R407): the index, in its table, of the clip slot record, entry point record or set descriptor at
image offset w; none for what stands outside these tables (DESIGN CHOICE, log entry 150). -/
def CargoHdr.descItem (h : CargoHdr) (w : Nat) : Option Nat :=
  let at_ (off size n : Nat) : Option Nat := if off ≤ w ∧ w < off + size * n then some ((w - off) / size) else none
  [at_ h.slotsOff 16 h.slots, at_ h.pointsOff 16 h.points, at_ h.setsOff 64 h.sets].findSome? id

/-- CARGO_LOAD (R77, R200, R214, R215, R245, R257, R421, R646). -/
def execCargoLoad (m : Fin 8) (s : State) : Host.Outcome State Fault Refusal :=
  .next (s.answer m 0x0301 (fun t =>
    let p := t.payload
    let off := field p 4 4
    let len := field p 8 4
    let x := s.region? (field p 0 4)
    let cl := (List.finRange 4).filter (fun c => bit (field p 12 1) c.val)
    let item := some (field p 0 4)
    let base := (x.map (fun y => y.2.base)).getD 0 + off
    let rd : Rd := fun o n => s.dram.readBytes (base + o) n
    s.checked
      [(decide (off % 64 ≠ 0), err 0x8006 (some 4)), (decide (field p 12 1 = 0 ∨ 15 < field p 12 1), err 0x8006 (some 12)),
       (decide (field p 13 3 ≠ 0), err 0x8006 (some 13)), (x.isNone, err 0x8007 (some 0) item),
       (x.any (fun y => decide (y.2.owner ≠ t.context) || !y.2.retain), err 0x8405 (some 0) item),
       (x.any (fun y => !s.on (clusterReach y.1)), err 0x8407 (some 0) item), (s.regionBusy (field p 0 4), err 0x8401 (some 0) item),
       (x.any (fun y => decide (y.2.len < off + len)), err 0x8006 (some 8)),
       (!(s.poisoned base len).isEmpty, err 0x8501 (((s.poisoned base len).min?).map (fun l => l - base)))]
      (fun s =>
        match CargoHdr.format rd len with
        | some w => (s, err 0x8501 (some w))
        | none =>
          let h := CargoHdr.read rd
          let others (c : Fin 4) : List (Nat × Nat) := (s.cargos.filter (fun g => c ∈ g.clusters)).flatMap (·.prot)
          let foreign := setForeign rd (cargoSets h (cargoReach rd h)) (s.inRetain t.context)
          let adapt := (((List.range h.points).map (pointOf rd h)).find? (fun q => s.adaptBad q cl)).map (fun q => q.headerOff + 8)
          match cargoDesc rd h cl s.inRegions others with
          | some w => (s, err 0x8502 (some w) (h.descItem w))
          | none =>
            let clash := s.cargos.any (fun g => g.clusters.any (fun c => c ∈ cl) &&
              overlap h.lockFirst h.lockN g.lockFirst g.lockInit.length)
            s.checked
              [(s.residentBad h cl, err 0x8502 (some 44)),
               (adapt.isSome, err 0x8502 adapt), (foreign.isSome, err 0x8405 foreign (foreign.bind h.descItem)), (clash, err 0x8503 (some 24)),
               (decide (64 ≤ s.cargos.length), err 0x8504), (cl.any (fun c => decide (512 < s.clusters[c].slots.length + h.slots)), err 0x8504)]
              (fun s => s.loadCargo t.context (field p 0 4) base rd cl))))

/-! ### The other cargo commands -/

/-- The checks on the cargo a command names in byte 0. -/
def State.cargoTarget (s : State) (t : Taken) (owner : Bool) : List (Bool × Reply) :=
  let c := field t.payload 0 1
  [((s.cargo? c).isNone, err 0x8007 (some 0) (some c)),
   (owner && (s.cargo? c).any (fun g => g.owner ≠ t.context), err 0x8004 (some 0) (some c))]

/-- CARGO_UNLOAD (R258, R422). -/
def execCargoUnload (m : Fin 8) (s : State) : Host.Outcome State Fault Refusal :=
  .next (s.answer m 0x0302 (fun t =>
    let c := field t.payload 0 1
    s.checked
      ([(decide (field t.payload 1 3 ≠ 0), err 0x8006 (some 1))] ++ s.cargoTarget t true ++
        [(s.cargoUsed c, err 0x8505 (some 0) (some c)),
         ((s.cargo? c).any (fun g => (s.cargoRegions g).any s.regionBusy), err 0x8401 (some 0) (some c))])
      (fun s =>
        ({ s with
           cargos := s.cargos.filter (fun g => g.handle ≠ c), adapters := s.adapters.filter (fun a => a.cargo ≠ c),
           clusters := s.clusters.map (fun (k : Cluster) =>
             { k with
               slots := k.slots.filter (fun t => t.cargo ≠ c), reloads := k.reloads.filter (fun r => r.1 ≠ c) }) }, ok []))))

/-- CARGO_INFO (R423). -/
def execCargoInfo (m : Fin 8) (s : State) : Host.Outcome State Fault Refusal :=
  .next (s.answer m 0x0303 (fun t =>
    s.checked ([(decide (field t.payload 1 3 ≠ 0), err 0x8006 (some 1))] ++ s.cargoTarget t false)
      (fun s =>
        match s.cargo? (field t.payload 0 1) with
        | none => (s, ok [])
        | some g =>
          (s, ok (leBytes 1 ((g.clusters.map (fun c => 2 ^ c.val)).sum) ++ leBytes 1 g.points.length ++ leBytes 2 g.videoL ++
            leBytes 2 g.videoS ++ leBytes 1 g.audioA ++ [0] ++ leBytes 2 g.slots ++ leBytes 2 g.lockInit.length ++
            leBytes 4 g.lockFirst ++
            g.points.flatMap (fun q =>
              leBytes 4 q.headerOff ++ leBytes 4 q.budget4 ++ leBytes 4 q.budget3 ++ leBytes 4 (b2n q.alt)))))))

/-- CARGO_CEILING (R84, R424). -/
def execCargoCeiling (m : Fin 8) (s : State) : Host.Outcome State Fault Refusal :=
  .next (s.answer m 0x0304 (fun t =>
    let p := t.payload
    let c := field p 0 1
    let cl := (List.finRange 4).filter (fun k => bit (field p 1 1) k.val)
    let slot := field p 2 2
    let v := field p 4 4
    let g := s.cargo? c
    s.checked
      (s.cargoTarget t true ++
        [(decide (field p 1 1 = 0 ∨ 15 < field p 1 1), err 0x8006 (some 1)),
         (g.any (fun g => !cl.all (fun k => decide (k ∈ g.clusters))), err 0x8006 (some 1)),
         (g.any (fun g => decide (g.slots ≤ slot)), err 0x8006 (some 2) (some slot)),
         (!(posNormal v || decide (v = 0x7F800000)), err 0x8006 (some 4))])
      (fun s =>
        let apply (s : State) (k : Fin 4) : State := match s.slot? k c slot with
          | some x => s.reloadSlot k x (BitVec.ofNat 32 v)
          | none => s
        let linked := cl.any (fun k => ((s.slot? k c slot).map (·.linked)).getD false)
        ((if linked then cl.take 1 else cl).foldl apply s, ok []))))

end Sys2Proof.Machine
end

