-- ==== Sys2Proof/Machine/Ticks.lean ====
section
/-! DEFINITION. The meanings of ticks and frame references, of clip evaluations and of array parity errors (R19 to R24, R80,
R115 to R117, R301 to R303). -/

namespace Sys2Proof.Machine

/-- The first instant after `now` of a series phase + k * period. -/
def nextMatch (now phase period : Nat) : Nat :=
  if now < phase then phase else phase + ((now - phase) / period + 1) * period

/-- CONTROL_TICK (R19): SYSTIME has crossed the next multiple of a CONTROL source. -/
def execControlTick (k : Fin 16) (s : State) : Host.Outcome State Fault Refusal :=
  let t := s.sched.src[k]
  .next (if t.kind = 4 ∧ 0 < t.periodUs ∧ t.due ≤ s.now then
    (s.raiseTick k false TickInfo.plain).settleStop |> fun s =>
      { s with
        sched := { s.sched with
          src := vmod s.sched.src k (fun t => { t with due := nextMatch s.now (1000 * t.phaseUs) (1000 * t.periodUs) }) } }
  else s)

/-- A trigger follows a reference (R302, R303): its pulse, or trig_late. -/
def State.trigger (s : State) (ref : Nat) (m : Fin 2) : State :=
  if s.key (.trig m .mode) = 0 then s else
  let off := s.key (.trig m .offset)
  let t := ref + off
  if (s.img.frameSrc < 2 && decide (off < 100)) || s.img.trig[m].pulses.any (fun p => decide (t < p.2)) then
    { s with img := { s.img with trigLate := Vector.replicate 2 true } }
  else
    { s with
      img := { s.img with
        trig := vmod s.img.trig m (fun x => { x with pulses := x.pulses ++ [(t, t + s.key (.trig m .width))] }) } }

/-- A frame reference (R301 to R303, R320): a tick of every FRAME source, the stamp, the triggers, and the I3C transfers that
name the tick; nothing but the SPURIOUS_TICK of R24 where it is discarded. -/
def State.reference (s : State) : State :=
  let l := (List.finRange 16).filter (fun k => s.sched.src[k].kind = 3)
  let soon := (l.head?.map s.tooSoon).getD false
  let seq := l.head?.map (fun k => s.sched.src[k].next.toNat % 2 ^ 32)
  let now := s.now
  let s := l.foldl (fun (s : State) k => s.raiseTick k false TickInfo.plain) s
  if soon then s.settleStop
  else
    let s := { s with
      img := { s.img with
        ref := s.dev.systime, refSeen := true,
        i3c := s.img.i3c.map (fun (q : List I3cXfer) => q.map (fun (x : I3cXfer) =>
          if x.due.isNone ∧ seq = some x.refSeq then { x with due := some (now + x.delay) } else x)) } }
    ((s.trigger now 0).trigger now 1).settleStop

/-- FRAME_GENERATOR_MATCH (R301). -/
def execFrameGeneratorMatch (s : State) : Host.Outcome State Fault Refusal :=
  .next (if s.on 4 && s.img.frameSrc = 2 && decide (s.img.genNext ≤ s.now) then
    State.reference { s with img := { s.img with genNext := nextMatch s.now s.img.genPhase s.img.genPeriod } }
  else s)

/-- FRAME_REF_EDGE (R301): an edge of FRAME_REF, rising or falling, that IMG_FRAME_SRC selects. -/
def execFrameRefEdge (rising : Bool) (s : State) : Host.Outcome State Fault Refusal :=
  .next (if s.on 4 && s.img.frameSrc = (if rising then 0 else 1) then s.reference else s)

/-- BLANK_TICK (R21, R155): the next BLANK tick of a ROWGROUP source: the j-th one j nominal intervals after the
last-row tick. -/
def execBlankTick (k : Fin 16) (s : State) : Host.Outcome State Fault Refusal :=
  let t := s.sched.src[k]
  .next (
    if t.kind = 1 && decide (0 < t.blanks) &&
        decide (t.blankAt * 1000 + ((t.blankNo + 1 : Nat) * s.srcIntervalQ k).floor.toNat ≤ s.now * 1000) then
      let x := s.img.rx[Fin.ofNat 2 t.bind]
      let s := { s with
        sched := { s.sched with src := vmod s.sched.src k (fun t => { t with blanks := t.blanks - 1, blankNo := t.blankNo + 1 }) } }
      let f := (x.heights.head?.map (·.1)).getD x.frame.toNat
      (s.raiseTick k false ⟨f, 0, 0, true, false, false, assoc x.heights f, x.heights⟩).settleStop
    else s)

/-- TICK_LOST (R23): no tick for four nominal intervals, once in a gap. -/
def execTickLost (k : Fin 16) (s : State) : Host.Outcome State Fault Refusal :=
  let t := s.sched.src[k]
  .next (match t.last with
    | some l =>
      if t.kind ≠ 0 && t.kind ≠ 4 && !t.lost && decide (l * 1000 + 4 * s.srcInterval k < s.now * 1000) then
        let s := { s with sched := { s.sched with src := vmod s.sched.src k (fun t => { t with lost := true }) } }
        s.event 0x0102 0 0xFF true (leBytes 1 k.val ++ w32 (t.next - 1 : W64).toNat)
      else s
    | none => s)

/-- CLIP_STEP_EVALUATION (R80, R85, R610): firmware evaluates a step that has ended of clip slot `slot` of cluster c. -/
def execClipStepEvaluation (c : Fin 4) (slot : Fin 512) (s : State) : Host.Outcome State Fault Refusal :=
  .next (if !s.fwUp || !s.clusterUp c then s else
    match s.clusters[c].slots.find? (fun t => t.num = slot.val) with
    | some t => s.evaluate c t
    | none => s)

/-! ### Array parity -/

/-- The ARRAY_PARITY event, and the test of the array that follows (R115 to R117). -/
def State.parityEvent (s : State) (co : CoreId) (set stopped : Nat) : State :=
  (s.event 0x030C 0 co.c.val true (leBytes 1 set ++ leBytes 1 stopped)).queueTest (.array co) 0x030C none

/-- A parity stop of the share on a core (R117), in pass `pass` of its layer. -/
def State.parityStop (s : State) (co : CoreId) (set pass : Nat) : State :=
  match s.readyOp co .matrix [0x01] with
  | some (r, h, _) => ((s.parityEvent co set 1).stopShare co r h (some pass)).settleStop
  | none => s

/-- ACTIVE_SET_PARITY_ERROR (R115) in pass `pass`: the pass is repeated with the same bits; a second error in the same pass stops
the share (R117). -/
def execActiveSetParityError (at_ : CorePass) (s : State) : Host.Outcome State Fault Refusal :=
  .next (match s.readyOp at_.co .matrix [0x01] with
    | some (_, h, _) =>
      if h.parity = some at_.pass then s.parityStop at_.co 0 at_.pass
      else (s.modShare at_.co (fun h => { h with parity := some at_.pass })).parityEvent at_.co 0 0
    | none => s)

/-- SHADOW_SET_PARITY_ERROR (R116). -/
def execShadowSetParityError (co : CoreId) (s : State) : Host.Outcome State Fault Refusal :=
  .next (match s.readyOp co .matrix [0x01] with
    | some _ => s.parityEvent co 1 0
    | none => s)

/-- ARRAY_PARITY_STOP (R117): a second error in the active set in one pass, an error of the code buffer or of the accumulator
file. -/
def execArrayParityStop (at_ : CorePass) (set : ParityStop) (s : State) : Host.Outcome State Fault Refusal :=
  let co := at_.co
  let pass := at_.pass
  .next (match set with
    | .activeAgain => if (s.shareOn co).any (fun x => x.2.parity = some pass) then s.parityStop co 0 pass else s
    | .codeBuffer => s.parityStop co 2 pass
    | .accumulator => s.parityStop co 3 pass)

end Sys2Proof.Machine
end

