-- ==== Sys2Proof/Machine/Commit.lean ====
section
/-! DEFINITION. The checks and the effect of CFG_COMMIT, and the meanings of the CFG commands (R414 to R419, R645). -/

namespace Sys2Proof.Machine

/-- A failure that names a key. -/
def badKey (code : Nat) (k : Key) : Reply := err code none none k.name

/-- The first failure of a list of checks. -/
def firstErr (l : List (Bool × Reply)) : Option Reply := (l.find? (fun x => x.1)).map (·.2)

/-! ### Completeness (R416) -/

/-- E_CONFIG_INCOMPLETE. `boot`: RUN_TIMETABLE is held at 0 (R594). A count that no row-group has, a CONTROL or generator
phase not below its period, and a timetable key that names nothing readable are inconsistent keys (log entry 82). -/
def KeySet.incomplete (w : KeySet) (tt : Option (List Byte)) (boot : Bool) : Option Reply :=
  let bad (k : Key) : Reply := badKey 0x8104 k
  let off (n : Nat) : Bool := decide (KeySet.get w (.rx (Fin.ofNat 2 n) .phy) = 0)
  let entry := ((tt.map ttEntries).getD []).find? (fun e => w.kind e.2.source = 0)
  let src (k : Fin 16) : Option Reply :=
    match w.kind k with
    | 1 => firstErr [(decide (1 < w.bind k) || off (w.bind k), bad (.tick k .bind)),
        (decide (w.tickCount k ∉ [8, 16, 32, 64]), bad (.tick k .count))]
    | 2 => firstErr [(decide ((w.portCfg (Fin.ofNat 5 (w.bind k))).inMask = 0), bad (.tick k .bind))]
    | 4 => firstErr [(decide (KeySet.get w (.tick k .period) = 0), bad (.tick k .period)),
        (decide (KeySet.get w (.tick k .period) ≤ KeySet.get w (.tick k .phase)), bad (.tick k .phase))]
    | _ => none
  let twice (k : Fin 16) : Bool := w.kind k = 1 &&
    (List.finRange 16).any (fun j => decide (j < k) && decide (w.kind j = 1 ∧ w.bind j = w.bind k ∧ w.tickCount j ≠ w.tickCount k))
  let chain (n : Fin 2) : Bool :=
    let x := KeySet.get w (.tx n .src)
    decide (x ≠ 0) && off (x - 1)
  if !boot && tt.isNone then some (bad .runTimetable)
  else
    match entry with
    | some e => some (err 0x8104 (some (e.1 + 2)) (some e.2.id) (Key.tick e.2.source .kind).name)
    | none =>
      match (List.finRange 16).findSome? src with
      | some r => some r
      | none =>
        match (List.finRange 16).find? twice with
        | some k => some (bad (.tick k .count))
        | none =>
          match (List.finRange 2).find? chain with
          | some n => some (bad (.tx n .src))
          | none => if KeySet.get w .imgGenPeriod ≤ KeySet.get w .imgGenPhase then some (bad .imgGenPhase) else none

/-- E_MEM_SHARES (R269). -/
def KeySet.shares (w : KeySet) : Option Reply :=
  if 64 < KeySet.get w .memTick + KeySet.get w .memInteractive + KeySet.get w .memBackground + KeySet.get w .memAdapt ∨
      KeySet.get w .memTick < 16 then
    some (badKey 0x8105 .memTick)
  else none

/-! ### Imaging (R118, R125, R129, R144, R283, R288, R295, R297, R306, R310) -/

/-- Lanes and rate lie in the range of a PHY (R283). -/
def phyOk (phy lanes rate : Nat) : Bool :=
  if phy = 1 then decide (lanes ∈ [1, 2, 4, 8] ∧ rate ≤ 4500) else decide (lanes ≤ 4)

/-- Capacity in bit/s (R283). -/
def phyCap (phy lanes rate : Nat) : Rat :=
  ((lanes * rate * 1000000 : Nat) : Rat) * (if phy = 1 then 1 else 16 / 7)

/-- The interval of the input row-groups of a transmitter's chain: of the source of its entry where the timetable has it as a
ROWGROUP entry, else of a source of its receiver (R307). -/
def KeySet.txInterval (w : KeySet) (es : List Entry) (t : TxCfg) : Rat :=
  match es.find? (fun e => e.id = t.entry && w.kind e.source = 1) with
  | some e => w.intervalQ e.source
  | none => ((w.rowSources (Fin.ofNat 2 (t.src - 1))).head?.map w.intervalQ).getD 0

/-- E_IMG_RATE (R288, R310). -/
def KeySet.imgRate (w : KeySet) (es : List Entry) : Option Reply :=
  let on := (List.finRange 2).filter (fun n => decide ((w.rxCfg n).phy ≠ 0))
  let rx (n : Fin 2) : Option Reply :=
    let x := w.rxCfg n
    firstErr
      [(!phyOk x.phy x.lanes x.rate, badKey 0x8201 (.rx n .lanes)),
       (decide ((9 : Rat) / 10 * phyCap x.phy x.lanes x.rate * (x.linePs : Nat) / 1000000000000 < (x.width * rawBits x.dt : Nat)),
        badKey 0x8201 (.rx n .rate)),
       (decide (x.lines < x.height + 2), badKey 0x8201 (.rx n .lines))]
  let total : Rat := (on.map (fun n => (((w.rxCfg n).width * 1000 : Nat) : Rat) / ((w.rxCfg n).linePs : Nat))).sum
  let tx (n : Fin 2) : Option Reply :=
    let t := w.txCfg n
    let iv := w.txInterval es t
    if t.src = 0 ∨ t.phy = 0 then none
    else firstErr
      [(!phyOk t.phy t.lanes t.rate, badKey 0x8201 (.tx n .lanes)),
       (decide (0 < iv) && decide ((9 : Rat) / 10 * phyCap t.phy t.lanes t.rate * iv / 1000000000000 <
          (t.width * txBits t.dt * t.group : Nat)), badKey 0x8201 (.tx n .rate))]
  match on.findSome? rx with
  | some r => some r
  | none => if 4 < total then some (badKey 0x8201 (.rx 0 .linePs)) else (List.finRange 2).findSome? tx

/-- The table block that a receiver's key names, as CFG_COMMIT copies it (R294, R295): from a current region whose partition can
be reached and that the block does not leave. -/
def State.tableBlock (s : State) (v : Nat) : Option (List Byte) :=
  let off := v % 0x100000000
  match s.region? (v / 0x100000000) with
  | some (p, r) =>
    if !s.on (clusterReach p) || decide (r.len < off + 34496) then none
    else
      let n := leVal (s.dram.readBytes (r.base + off + 4) 4)
      if r.len < off + 34496 + 4 * n then none
      else some (s.dram.readBytes (r.base + off) (34496 + 4 * min n 65536))
  | none => none

/-- A table block breaks R295. -/
def tableBad (x : RxCfg) (l : List Byte) : Bool :=
  let a := field l 1 1
  let e := field l 2 1
  let n := field l 4 4
  let d := (List.range n).map (fun i => field l (34496 + 4 * i) 4)
  decide (7 < field l 0 1) || decide (field l 3 1 ≠ 0) || !allZero ((l.drop 8).take 56) || decide (65536 < n) ||
    decide (a < 5 ∨ 8 < a) || decide (e < 5 ∨ 8 < e) || decide (63 < (x.width - 1) / 2 ^ a) ||
    decide (63 < (x.height - 1) / 2 ^ e) || (d.zip (d.drop 1)).any (fun p => decide (p.2 ≤ p.1)) ||
    d.any (fun v => decide (x.height ≤ v / 65536 ∨ x.width ≤ v % 65536))

/-- E_IMG_TABLE (R295). -/
def State.imgTable (s : State) (w : KeySet) : Option Reply :=
  (List.finRange 2).findSome? (fun n =>
    let v := KeySet.get w (.rx n .tables)
    if v = 0 then none
    else
      match s.tableBlock v with
      | none => some (badKey 0x8202 (.rx n .tables))
      | some l => if tableBad (w.rxCfg n) l then some (badKey 0x8202 (.rx n .tables)) else none)

/-- The stacks of a cargo's programs, as bytes read by offset from each header (R129). -/
def State.cargoStacks (s : State) (g : Cargo) : List (Nat → Nat → List Byte) :=
  let rd : Rd := fun off n => s.dram.readBytes (g.base + off) n
  let h := CargoHdr.read rd
  let xs := ((List.range h.points).filterMap (progOf rd h)).flatMap (fun (p : Prog) =>
    (p.execs rd).filterMap (fun e => match execOf rd h e.2 with
      | some (.stack, x) => some x
      | _ => none))
  xs.eraseDups.map (fun x => fun off n => rd (x + off) n)

/-- The planes a stack makes of its input plane, a width and a height where that is known, newest first (R125): a plane of width or
height 0 survives no window. -/
def planesOf (width : Nat) (rows : Option Nat) (gs : List WGroup) : List (Nat × Option Nat) :=
  gs.foldl
    (fun (l : List (Nat × Option Nat)) g =>
      let p := l.headD (width, rows)
      (windowOut p.1 g.pl g.pr g.cx g.sx, p.2.map (fun h => windowOut h g.pt g.pb g.cy g.sy)) :: l)
    [(width, rows)]

/-- The heights that a chain's earlier planes have at a width, for a stack that reads no band slots (log entry 86). -/
def heightsAt (planes : List (Nat × Option Nat)) (width : Nat) : List (Option Nat) :=
  let l := (planes.filterMap (fun p => if p.1 = width then p.2 else none)).eraseDups
  if l.isEmpty then [none] else l.map some

/-- Follow the planes through a chain's stacks (R125): none where a stack leaves none of its input. -/
def chainPlanes (width rows : Nat) : List (Bool × Nat × List WGroup) → List (Nat × Option Nat) → Option (List (Nat × Option Nat))
  | [], planes => some planes
  | (slots, w, gs) :: t, planes =>
    let outs := if slots then [planesOf width (some rows) gs] else (heightsAt planes w).map (fun h => planesOf w h gs)
    let dead (l : List (Nat × Option Nat)) : Bool := l.any (fun p => p.1 = 0 || p.2 = some 0)
    if outs.all dead then none else chainPlanes width rows t (planes ++ (outs.filter (fun l => !dead l)).flatten)

/-- A receiver breaks R118, R125 or R129 for its chain (R144). -/
def State.chainBad (s : State) (w : KeySet) (es : List Entry) (n : Fin 2) : Option Reply :=
  let x := w.rxCfg n
  let b := x.bandW
  let handles := ((es.filter (fun e => w.kind e.source = 1 && w.bind e.source = n.val)).map (·.cargo)).eraseDups
  let chain := (handles.filterMap s.cargo?).flatMap s.cargoStacks
  let bad (k : RxKey) : Option Reply := some (badKey 0x8203 (.rx n k))
  if b % 8 ≠ 0 ∨ b < 64 ∨ 512 < b ∨ x.plane < 15 * b + 32 ∨ 16 * b < x.plane then bad .band
  else chain.findSome? (fun rd =>
    let k := StackHdr.ofBytes (rd 0 64)
    let gs := groupsOf (stackOps rd k.count 64)
    let (lam, rho, _) := halos gs
    if b % (gs.map (·.sx)).prod ≠ 0 then bad .band
    else if k.slots && decide (x.selvL < lam) then bad .selvL
    else if k.slots && decide (x.selvR < rho) then bad .selvR
    else none) |>.orElse (fun _ =>
      if (chainPlanes x.plane x.planeH (chain.map (fun rd =>
          let k := StackHdr.ofBytes (rd 0 64)
          (k.slots, k.inWidth, groupsOf (stackOps rd k.count 64)))) []).isNone then bad .width
      else none)

/-- E_IMG_GEOMETRY: chains, output widths, areas within memory and apart (R144, R297, R306). -/
def State.imgGeometry (s : State) (w : KeySet) (es : List Entry) : Option Reply :=
  let rx := ((List.finRange 2).filter (fun n => decide ((w.rxCfg n).phy ≠ 0))).findSome? (s.chainBad w es)
  let tx := (List.finRange 2).findSome? (fun n =>
    let t := w.txCfg n
    if t.src ≠ 0 ∧ (t.width < 15 * t.band + 8 ∨ 16 * t.band < t.width) then some (badKey 0x8203 (.tx n .band)) else none)
  let area := ((w.imgAreas.find? (fun a => !a.fits)).orElse (fun _ => firstLap [] w.imgAreas)).map
    (fun (a : Area) => badKey 0x8203 a.key)
  (rx.orElse (fun _ => tx)).orElse (fun _ => area)

/-! ### Audio (R330 to R332, R336, R339, R343, R345, R359, R536, R539) -/

/-- E_AUD_FORMAT of a TDM port. -/
def KeySet.audFormat (w : KeySet) (n : Fin 4) : Option Reply :=
  let c := w.tdmCfg n
  let bad (k : TdmKey) : Reply := badKey 0x8302 (.tdm n k)
  firstErr
    [(decide (49152000 < KeySet.get w (.apll (Fin.ofNat 2 c.apll) .fs) * c.frameBits), bad .frameBits),
     (decide (c.frameBits < KeySet.get w (.tdm n .offset) + c.slots * c.width), bad .slots),
     (decide (c.width < c.dataBits), bad .dataBits), (decide (2 ^ c.slots ≤ c.inMask), bad .inMask),
     (decide (2 ^ c.slots ≤ c.outMask), bad .outMask)]

/-- The look-ahead A of the cargo of an entry (R343). -/
def State.aheadOf (s : State) (es : List Entry) (id : Nat) : Nat :=
  ((es.find? (fun e => e.id = id)).bind (fun e => s.cargo? e.cargo)).elim 0 (·.audioA)

/-- The sources that a port's bypass map names: (port, element). -/
def PortCfg.bypassSrcs (c : PortCfg) : List (Nat × Nat) :=
  ((c.bypass.take c.eOut).map (fun b => (b.toNat / 32, b.toNat % 32))).filter (fun x => x.1 ≠ 7)

/-- Blocks of a bypass source's ring that R345 asks for: A + 3 + ceil(W / T_blk). -/
def State.bypassDepth (s : State) (w : KeySet) (es : List Entry) (n : Fin 4) : Nat :=
  let c := w.tdmCfg n
  let fs := w.portFs (Fin.ofNat 5 n.val)
  s.aheadOf es c.outEntry + 3 + (KeySet.get w .audAlign * fs + c.block * 1000000 - 1) / (c.block * 1000000)

/-- E_AUD_GEOMETRY: rings as R336 asks, apart from one another and from the imaging areas, bypass sources deep enough. -/
def State.audGeometry (s : State) (w : KeySet) (es : List Entry) : Option Reply :=
  let rings := w.audAreas
  let shape := rings.find? (fun a => !a.fits || decide (a.place.off % 64 ≠ 0))
  let depth := (List.finRange 4).find? (fun n =>
    (w.tdmCfg n).bypassSrcs.any (fun x => decide (x.1 ≤ 4) &&
      decide ((w.portCfg (Fin.ofNat 5 x.1)).inK < s.bypassDepth w es n)))
  match shape.orElse (fun _ => firstLap w.imgAreas rings) with
  | some a => some (badKey 0x8303 a.key)
  | none => depth.map (fun n => badKey 0x8303 (.tdm n .bypass))

/-- E_AUD_DOMAIN: sources bound with another count (R339), output bindings and bypass maps (R343, R345), PORT mode (R359). -/
def KeySet.audDomain (w : KeySet) : Option Reply :=
  let tick := (List.finRange 16).find? (fun k => w.kind k = 2 &&
    decide (w.tickCount k ≠ (w.portCfg (Fin.ofNat 5 (w.bind k))).block))
  let same (c : PortCfg) (p : Nat) : Bool :=
    let d := w.portCfg (Fin.ofNat 5 p)
    decide (p ≤ 4 ∧ d.apll = c.apll ∧ d.block = c.block)
  let out (n : Fin 4) : Option Reply :=
    let c := w.tdmCfg n
    let k : Fin 16 := Fin.ofNat 16 c.outTick
    if c.outMask = 0 then none
    else firstErr
      [(!(decide (w.kind k = 2) && same c (w.bind k)), badKey 0x8304 (.tdm n .outTick)),
       (!c.bypassSrcs.all (fun x => same c x.1 && decide (x.2 < (w.portCfg (Fin.ofNat 5 x.1)).eIn)), badKey 0x8304 (.tdm n .bypass))]
  let apll (m : Fin 2) : Option Reply :=
    let d := w.tdmCfg (Fin.ofNat 4 (KeySet.get w (.apll m .port)))
    if KeySet.get w (.apll m .mode) = 1 ∧ (!d.slave ∨ d.apll ≠ m.val) then some (badKey 0x8304 (.apll m .port)) else none
  match tick with
  | some k => some (badKey 0x8304 (.tick k .count))
  | none => ((List.finRange 4).findSome? out).orElse (fun _ => (List.finRange 2).findSome? apll)

/-- E_CASCADE_CONFIG (R536, R539), of what is in use: tracks and the stage 1 record while some stage has a record, a stage's
replay area and locks while it has one (log entry 81). -/
def KeySet.cascade (w : KeySet) : Option Reply :=
  let used := (List.finRange 3).any (fun i => KeySet.get w (.cascRec i) ≠ 0)
  let e := w.pdmCfg.eIn
  let inX (v n : Nat) : Bool := match audPlace v with
    | .dspX 0 o => decide (o % 64 = 0 ∧ o + n ≤ 0x40000)
    | _ => false
  let stride := (64 + KeySet.get w (.pdm .block) * 2 + 63) / 64 * 64
  let track (k : Fin 4) : Option Reply :=
    let src := KeySet.get w (.cascTrackSrc k)
    if KeySet.get w .cascTracks ≤ k.val then none
    else if src = 0x80 then
      if inX (KeySet.get w .cascDspTrack) (KeySet.get w .cascDspK * stride) then none else some (badKey 0x8B03 .cascDspTrack)
    else if src < 0x10 ∧ e ≤ src then some (badKey 0x8B03 (.cascTrackSrc k))
    else none
  let rec1 := KeySet.get w (.cascRec 0)
  let areas := w.replayAreas
  let lap := (areas.find? (fun a => !a.fits)).orElse (fun _ => firstLap (w.imgAreas ++ w.audAreas) areas)
  let ref (n : Fin 2) (k : StageKey) : Option Reply :=
    let r : W32 := BitVec.ofNat 32 (KeySet.get w (.stage n k))
    if refValid r && (decide (refScope r ≠ 1) || !refLegal r) then some (badKey 0x8B03 (.stage n k)) else none
  if !used then none
  else
    match (List.finRange 4).findSome? track with
    | some r => some r
    | none =>
      if rec1 ≠ 0 ∧ !inX rec1 48 then some (badKey 0x8B03 (.cascRec 0))
      else
        match lap with
        | some a => some (badKey 0x8B03 a.key)
        | none => ((List.finRange 2).filter w.stageUsed).findSome? (fun n =>
            (ref n .dataLock).orElse (fun _ => ref n .creditLock))

/-- The checks of CFG_COMMIT in the order of R416. `boot`: at boot, with no timetable (R594). -/
def State.commitCheck (s : State) (w : KeySet) (tt : Option (List Byte)) (boot : Bool) : Option Reply :=
  let es := ((tt.map ttEntries).getD []).map (·.2)
  let step (a : Option Reply) (f : Unit → Option Reply) : Option Reply := a.orElse f
  let a := w.incomplete tt boot
  let a := step a (fun _ => w.shares)
  let a := step a (fun _ => w.imgRate es)
  let a := step a (fun _ => s.imgTable w)
  let a := step a (fun _ => s.imgGeometry w es)
  let a := step a (fun _ => (List.finRange 4).findSome? w.audFormat)
  let a := step a (fun _ => s.audGeometry w es)
  let a := step a (fun _ => w.audDomain)
  let a := step a (fun _ => w.cascade)
  step a (fun _ => match tt with
    | some l => s.ttCheck w l
    | none => none)

/-! ### What a commit does (R291, R295, R357, R358, R417, R645) -/

/-- The tick sources after a commit: one whose keys changed starts anew. -/
def State.commitTicks (s : State) (o w : KeySet) : State :=
  let changed := (List.finRange 16).filter (fun k => decide (w.tick k ≠ o.tick k))
  let new (k : Fin 16) : TickSrc :=
    let (kind, bind, count, period, phase) := w.tick k
    { TickSrc.off with
      kind := kind, bind := bind, count := count, periodUs := period, phaseUs := phase,
      due := if period = 0 then 0 else nextMatch s.now (1000 * phase) (1000 * period) }
  { s with
    sched := { s.sched with
      src := changed.foldl (fun v k => vset v k (new k)) s.sched.src,
      ovr := s.sched.ovr.filter (fun r => r.source ∉ changed) },
    img := { s.img with
      refTicks := if changed.any (fun k => o.kind k = 3 || w.kind k = 3) then [] else s.img.refTicks } }

/-- VAUX follows AUD_VAUX_EN while LISTEN is powered (R357). -/
def State.vauxSync (s : State) : State :=
  let en := s.key .audVauxEn = 1
  if !s.on 1 || s.aud.vaux.enabled = en then s
  else if en then
    { s with
      aud := { s.aud with
        vaux := { s.aud.vaux with enabled := true, ramping := true, rampDone := none }, pdmClk := false } }
  else
    { s with
      aud := { s.aud with
        vaux := { s.aud.vaux with enabled := false, ramping := false, on := false, rampDone := none } } }

/-- The working set becomes the committed set (R417): what changes at the commit itself. -/
def State.applyCommit (s : State) (w : KeySet) (tt : Option Timetable) : State :=
  let o := s.cfg.committed
  let s := { s with
    cfg := { s.cfg with committed := w, txn := none }, sched := { s.sched with committed := tt } }
  let s := s.commitTicks o w
  let rx (n : Fin 2) (x : Rx) : Rx :=
    let v := KeySet.get w (.rx n .tables)
    { x with
      tablesNext := some (if v = 0 then none else (s.tableBlock v).map (fun l => Mem.empty.writeBytes 0 l)),
      blackNext := some ((List.finRange 4).map (fun p => KeySet.get w (.rxBlack n p))) }
  let res := Vector.ofFn (fun g =>
    if KeySet.get o (.resEntry g) = KeySet.get w (.resEntry g) ∧ KeySet.get o (.resAddr g) = KeySet.get w (.resAddr g) then
      s.img.results[g]
    else ⟨none, true⟩)
  let s := { s with img := { s.img with rx := Vector.ofFn (fun n => rx n s.img.rx[n]), results := res } }
  s.vauxSync

/-- A timetable is staged (R49, R50). Answers whether it replaced one. -/
def State.stage (s : State) (t : Timetable) : State × Bool :=
  ({ s with sched := { s.sched with staged := some (t, s.now) } }, s.sched.staged.isSome)

/-- A timetable would change D of a transmitter in use (R310). -/
def State.delayChanges (s : State) (t : Timetable) : Option (Fin 2) :=
  (List.finRange 2).find? (fun n =>
    let c := s.img.tx[n].cfg
    decide (c.src ≠ 0) && decide (s.txDelay (some t) c.entry ≠ s.txDelay s.sched.tt c.entry))

/-- A video chain's latency exceeds 48 % of its frame period (R53, R54). -/
def State.latencyBound (s : State) (w : KeySet) (es : List Entry) : Bool :=
  (List.finRange 2).any (fun n =>
    let x := w.rxCfg n
    decide (x.phy ≠ 0) && (w.rowSources n).any (fun k =>
      let gs := (es.filter (fun e => e.source = k)).filterMap (fun e => s.cargo? e.cargo)
      let tick := w.intervalQ k
      gs.any (fun g =>
        let ls := g.videoL + g.videoS
        decide (ls ≠ 0) && decide ((48 : Rat) / 100 * (x.lines * x.linePs : Nat) <
          (x.linePs : Nat) + 6000000 + tick + tick * (ls + 1 : Nat) + 9000000))))

/-- CFG_COMMIT of a working set (R416 to R418). -/
def State.commit (s : State) (w : KeySet) : State × Reply :=
  let v := KeySet.get w .runTimetable
  let src := if v = 0 then none else s.ttBytes (v / 0x100000000) (v % 0x100000000)
  match s.commitCheck w (src.map (·.1)) false with
  | some r => (State.enterHold { s with cfg := { s.cfg with txn := some (w, s.now) } }, r)
  | none =>
    let tt := src.map (fun x => ttOf x.1 x.2)
    let stage := s.active && decide (v ≠ KeySet.get s.cfg.committed .runTimetable)
    match (if stage then tt.bind s.delayChanges else none) with
    | some n => ({ s with cfg := { s.cfg with txn := some (w, s.now) } }, err 0x8204 none (some n.val) Key.runTimetable.name)
    | none =>
      let late := s.latencyBound w (((src.map (fun x => ttEntries x.1)).getD []).map (·.2))
      let s := s.applyCommit w tt
      let (s, replaced) := match tt with
        | some t => if stage then s.stage t else (s, false)
        | none => (s, false)
      let s := if s.dev.state = .configHold then s.setState .ready else s
      (s, ⟨if replaced then 0x4001 else if late then 0x4002 else 0, []⟩)

/-! ### The commands -/

/-- CFG_BEGIN (R414). -/
def execCfgBegin (m : Fin 8) (s : State) : Host.Outcome State Fault Refusal :=
  .next (s.answer m 0x0201 (fun _ => s.checked [(s.cfg.txn.isSome, err 0x8102)] (fun s =>
    ({ s with cfg := { s.cfg with txn := some (s.cfg.committed, s.now) } }, ok []))))

/-- The records of a CFG_SET payload from an offset: (offset, name, value bytes), or the failure (R412, R415). -/
def cfgRecords (p : List Byte) : Nat → Nat → Except Reply (List (Nat × List Byte × List Byte))
  | 0, off => if off = p.length then .ok [] else .error (err 0x8002)
  | n + 1, off =>
    let vlen := field p (off + 32) 2
    let next := off + 36 + (vlen + 3) / 4 * 4
    if p.length < off + 36 ∨ p.length < next then .error (err 0x8002)
    else if field p (off + 34) 2 ≠ 0 ∨ !allZero ((p.drop (off + 36 + vlen)).take (next - (off + 36 + vlen))) then
      .error (err 0x8006 (some (off + 34)))
    else (cfgRecords p n next).map (fun l => (off, (p.drop off).take 32, (p.drop (off + 36)).take vlen) :: l)

/-- Apply records to a set in order (R415). -/
def setRecords (w : KeySet) : List (Nat × List Byte × List Byte) → Except Reply KeySet
  | [] => .ok w
  | (off, name, v) :: t =>
    match Key.find name with
    | none => .error (err 0x8103 (some off) none name)
    | some k =>
      if v.length = k.vlen ∧ k.inRange (leVal v) then setRecords (w.put k (leVal v)) t
      else .error (err 0x8006 (some (off + 36)) none name)

/-- CFG_SET (R415): every record applies, or none. -/
def execCfgSet (m : Fin 8) (s : State) : Host.Outcome State Fault Refusal :=
  .next (s.answer m 0x0202 (fun t =>
    let p := t.payload
    if p.length < 4 then (s, err 0x8002)
    else if field p 0 2 < 1 ∨ 64 < field p 0 2 then (s, err 0x8006 (some 0))
    else if field p 2 2 ≠ 0 then (s, err 0x8006 (some 2))
    else
      match cfgRecords p (field p 0 2) 4 with
      | .error r => (s, r)
      | .ok l =>
        match s.cfg.txn with
        | none => (s, err 0x8101)
        | some (w, _) =>
          match setRecords w l with
          | .error r => ({ s with cfg := { s.cfg with txn := some (w, s.now) } }, r)
          | .ok w => ({ s with cfg := { s.cfg with txn := some (w, s.now) } }, ok [])))

/-- CFG_COMMIT (R416 to R418). -/
def execCfgCommit (m : Fin 8) (s : State) : Host.Outcome State Fault Refusal :=
  .next (s.answer m 0x0203 (fun _ =>
    match s.cfg.txn with
    | none => (s, err 0x8101)
    | some (w, _) => s.commit w))

/-- CFG_ABORT (R419). -/
def execCfgAbort (m : Fin 8) (s : State) : Host.Outcome State Fault Refusal :=
  .next (s.answer m 0x0204 (fun _ =>
    match s.cfg.txn with
    | none => (s, err 0x8101)
    | some _ => ({ s with cfg := { s.cfg with txn := none } }, ok [])))

/-- A key's value in the CFG_SET form (R415). -/
def cfgRecord (k : Key) (v : Nat) : List Byte := padTo 32 k.name ++ leBytes 2 k.vlen ++ zeros 2 ++ leBytes k.vlen v

/-- CFG_GET (R415). -/
def execCfgGet (m : Fin 8) (s : State) : Host.Outcome State Fault Refusal :=
  .next (s.answer m 0x0205 (fun t =>
    let p := t.payload
    let name := (p.drop 4).take 32
    if 1 < field p 0 1 then (s, err 0x8006 (some 0))
    else if field p 1 3 ≠ 0 then (s, err 0x8006 (some 1))
    else
      match Key.find name with
      | none => (s, err 0x8103 (some 4) none name)
      | some k =>
        if field p 0 1 = 0 then (s, ok (cfgRecord k (s.key k)))
        else
          match s.cfg.txn with
          | none => (s, err 0x8101)
          | some (w, _) => (s, ok (cfgRecord k (KeySet.get w k)))))

end Sys2Proof.Machine
end

