-- ==== Sys2Proof/Machine/Dram.lean ====
section
/-! DEFINITION. The meanings of DRAM: arbiters, budgets, BAR2, ECC, maintenance, zero fills (R249 to R282). -/

namespace Sys2Proof.Machine

/-! ### Arbiters and budgets -/

/-- What each class gets in a window of `a` slots, by its minimums and what it wants (R267, R268). -/
def grants (a : Nat) (mins wants : List Nat) : List Nat :=
  let base := (mins.zip wants).map (fun x => min x.1 x.2)
  let left := a - base.sum
  ((base.zip wants).foldl (fun (x : List Nat × Nat) bw =>
    let more := min (bw.2 - bw.1) x.2
    (x.1 ++ [bw.1 + more], x.2 - more)) ([], left)).1

/-- ARBITER_WINDOW (R267, R268, R270, R271): a window of a channel, with the slots each class wants, the slots set aside, and
whether a TICK request waits longer than 256 slots at its end. -/
def execArbiterWindow (p : Fin 4) (ch : Fin 2) (wantTick wantInteractive wantBackground wantAdapt : Nat) (setAside : Nat)
    (short : Bool) (s : State) : Host.Outcome State Fault Refusal :=
  .next (if !s.clusterUp p then s else
    let wants := [wantTick, wantInteractive, wantBackground, wantAdapt]
    let aside := min setAside 256
    let a := 256 - aside
    let mins := s.cfg.mem.map (fun x => a * x / 64)
    let got := grants a mins wants
    let held := (wants.zip (got.zip mins)).map (fun x => short && decide (0 < x.1 ∧ x.2.1 ≤ x.2.2))
    let b := 64 * p.val
    let s := got.zipIdx.foldl (fun (s : State) g => s.count (b + 22 + 4 * ch.val + g.2) g.1) s
    let s := held.zipIdx.foldl (fun (s : State) h => if h.1 then s.count (b + 30 + h.2) 1 else s) s
    let s := (if short then s.count (b + 34) 1 else s).count (b + 35) aside
    s.modPart p (fun x =>
      { x with
        arb := vmod x.arb ch (fun y =>
          { frameWin := y.frameWin + 1, frameShort := y.frameShort + b2n short,
            frameHeldAll := y.frameHeldAll && (!short || (held.getD 2 false && held.getD 3 false)) }) }))

/-- BUDGET_PERIOD (R265): a new microsecond begins, and traffic that waited for it proceeds: attention page reads, then barges. -/
def execBudgetPeriod (s : State) : Host.Outcome State Fault Refusal :=
  .next (if s.now / 1000 = s.period then s
    else
      let s := State.payOps { s with used := [], period := s.now / 1000 }
      s.barges.foldl (fun (s : State) (b : Barge) => if b.owed.isEmpty then s else s.pay b b.owed) s)

/-! ### Row ranges (R273 to R279) -/

/-- The row range of an address. -/
def rowRange (a : Nat) : Nat := a / 0x100000 * 0x100000

/-- A row range is to be tested (R273, R274): it merges with a test of it that waits or runs. -/
def State.queueRange (s : State) (p : Fin 4) (base : Nat) : State :=
  let x := s.parts[p]
  if base ∈ x.queue || x.test.any (fun t => t.base = base) then s else s.modPart p (fun x => { x with queue := x.queue ++ [base] })

/-- A maintenance event (R282): paused or resumed, activity, position. -/
def State.maint (s : State) (p : Fin 4) (resumed : Bool) (activity pos : Nat) : State :=
  s.event (if resumed then 0x030B else 0x030A) 0 p.val true (leBytes 1 activity ++ leBytes 8 pos)

/-- The device address of the next line of the patrol scrub. -/
def State.scrubAt (s : State) (p : Fin 4) : Nat := 0x200000000 * p.val + s.parts[p].scrub

/-- A running scrub pauses. -/
def State.pauseScrub (s : State) (p : Fin 4) : State :=
  if s.parts[p].scrubState = 1 then
    (s.modPart p (fun x => { x with scrubState := 2 })).maint p false 2 (s.scrubAt p)
  else s

/-- The time with the reach off does not count toward the scrub's period (R280). -/
def Part.wake (x : Part) (now : Nat) : Part :=
  { x with scrubDue := x.scrubDue + (x.offAt.map (fun t => now - t)).getD 0, offAt := none }

/-- A channel's retraining starts. -/
def State.startRetrain (s : State) (p : Fin 4) (ch : Fin 2) : State :=
  s.modPart p (fun x =>
    { x with
      retrain := vmod x.retrain ch (fun r => { r with state := 1 }), retrainNext := x.retrainNext.filter (fun c => c ≠ ch) })

/-- A channel's retraining is paused (R282). -/
def State.pauseRetrain (s : State) (p : Fin 4) (ch : Fin 2) : State :=
  (s.modPart p (fun x =>
    { x with
      retrain := vmod x.retrain ch (fun r => { r with state := 2 }),
      retrainNext := x.retrainNext.filter (fun c => c ≠ ch) })).maint p false 1 ch.val

/-- When nothing higher runs, what was paused resumes: retraining, channel 0 first, then the scrub (R282). -/
def State.resumeMaint (s : State) (p : Fin 4) : State :=
  let x := s.parts[p]
  if x.test.isSome || x.retrain.toList.any (fun r => r.state = 1) then s
  else
    match (List.finRange 2).find? (fun ch => x.retrain[ch].state = 2 || ch ∈ x.retrainNext) with
    | some ch =>
      let was := x.retrain[ch].state = 2
      let s := s.startRetrain p ch
      if was then s.maint p true 1 ch.val else s
    | none =>
      if x.scrubState = 2 then (s.modPart p (fun x => { x with scrubState := 1 })).maint p true 2 (s.scrubAt p) else s

/-- A host's test of a row range has ended (R575): 0 pass, 1 repaired, 2 without a spare. -/
def State.hostRangeDone (s : State) (p : Fin 4) (base result : Nat) : State :=
  (s.health.host.filter (fun h => h.range = some base)).foldl
    (fun (s : State) (h : HostTest) =>
      let left := 16 - s.parts[p].spares.length
      let s := { s with health := { s.health with host := s.health.host.filter (fun x => x.mbox ≠ h.mbox) } }
      s.replyFor h.mbox 0x0901 (ok (leBytes 1 (b2n (decide (result ≠ 2))) ++ leBytes 1 (b2n (decide (result = 0))) ++
        leBytes 1 (b2n (decide (result = 1))) ++ leBytes 1 0 ++ leBytes 2 left ++ zeros 2))) s

/-- The lowest free spare of a partition. -/
def Part.freeSpare (x : Part) : Option Nat := (List.range 16).find? (fun n => !x.spares.any (fun e => e.1 = n))

/-- The first range that waits is to be tested now (R277, R279, R282): it is copied to a spare, once a retraining in progress has ended
its channel; with no spare free, DRAM_NO_SPARE once. A range whose test was abandoned keeps the spare it had (R554); one that a
failed test replaced keeps that spare for good, and is tested with another. -/
def State.rowTest (s : State) (p : Fin 4) : State :=
  let x := s.parts[p]
  match x.queue with
  | [] => s
  | base :: rest =>
    match (assoc x.kept base).or x.freeSpare with
    | none =>
      if base ∈ x.noSpare then s
      else
        let s := s.modPart p (fun x => { x with noSpare := base :: x.noSpare })
        (s.event 0x0309 0 p.val true (leBytes 8 base)).hostRangeDone p base 2
    | some n =>
      if x.retrain.toList.any (fun r => r.state = 1) then
        x.retrainNext.foldl (fun (s : State) ch => s.pauseRetrain p ch) (s.modPart p (fun x => { x with testDue := true }))
      else
        (s.pauseScrub p).modPart p (fun x =>
          { x with
            test := some ⟨base, n, .copying⟩, spares := (n, base) :: x.spares.filter (fun e => e ≠ (n, base)), queue := rest,
            ready := x.ready.filter (fun b => b ≠ base), kept := assocDel x.kept base, testDue := false,
            noSpare := x.noSpare.filter (fun b => b ≠ base) })

/-- ROW_RANGE_TEST_START (R273, R274, R277, R279, R282): after the tick that was current when the range was found (log entry 128). -/
def execRowRangeTestStart (p : Fin 4) (s : State) : Host.Outcome State Fault Refusal :=
  .next (
    let x := s.parts[p]
    if !s.fwUp || !s.clusterUp p || x.test.isSome || !(x.queue.head?.any (fun b => decide (b ∈ x.ready) || !s.fed p)) then s
    else s.rowTest p)

/-- ROW_RANGE_COPY_DONE (R277, R278): accesses, those held among them, go to the spare, and the test begins. -/
def execRowRangeCopyDone (p : Fin 4) (s : State) : Host.Outcome State Fault Refusal :=
  .next (match s.parts[p].test with
    | some t =>
      if t.phase = .copying ∧ s.clusterUp p then
        (s.modPart p (fun x => { x with test := some { t with phase := .testing } })).releaseHeld p
      else s
    | none => s)

/-- The DRAM_TEST event (R277; log entry 55): result 0 sound, 1 faulty and replaced. -/
def State.dramTest (s : State) (p : Fin 4) (t : RowTest) (result : Nat) : State :=
  let s := s.modPart p (fun x => { x with test := none })
  let s := s.event 0x0308 0 p.val true (leBytes 8 t.base ++ leBytes 1 result ++ leBytes 1 t.spare)
  ((s.releaseHeld p).hostRangeDone p t.base result).resumeMaint p

/-- ROW_RANGE_TEST_DONE (R277): a pass begins the copy back; a fail keeps the spare. -/
def execRowRangeTestDone (p : Fin 4) (pass : Bool) (s : State) : Host.Outcome State Fault Refusal :=
  .next (match s.parts[p].test with
    | some t =>
      if ¬ (t.phase = .testing ∧ s.clusterUp p ∧ s.fwUp) then s
      else if pass then s.modPart p (fun x => { x with test := some { t with phase := .copyBack } })
      else s.dramTest p t 1
    | none => s)

/-- ROW_RANGE_COPY_BACK_DONE (R277): the spare is freed. -/
def execRowRangeCopyBackDone (p : Fin 4) (s : State) : Host.Outcome State Fault Refusal :=
  .next (match s.parts[p].test with
    | some t =>
      if t.phase = .copyBack ∧ s.clusterUp p ∧ s.fwUp then
        (s.modPart p (fun x => { x with spares := x.spares.filter (fun e => e ≠ (t.spare, t.base)) })).dramTest p t 0
      else s
    | none => s)

/-- PATROL_SCRUB_LINE (R280, R282): the scrub reads its next line; what it finds there comes as an event of its own. A pass begins once
MEM_SCRUB_HOURS have passed since the one before began. -/
def execPatrolScrubLine (p : Fin 4) (s : State) : Host.Outcome State Fault Refusal :=
  .next (
    let x := s.parts[p]
    if !s.clusterUp p || x.scrubState = 2 || x.test.isSome || x.retrain.toList.any (fun r => r.state = 1) then s
    else if x.scrub = 0 && decide (s.now < x.scrubDue) then s
    else
      let next := (x.scrub + 64) % 0x200000000
      s.modPart p (fun x =>
        { x with
          scrub := next, scrubState := if next = 0 then 0 else 1,
          scrubDue := if x.scrub = 0 then s.now + s.key .memScrubHours * 3600000000000 else x.scrubDue }))

/-- A channel's retraining is due (R281): 100 ms after its last, or at a temperature, in sixteenths of a degree, 8 °C from that of its
last (log entry 175). -/
def Retrain.due (r : Retrain) (now : Nat) (temp : Int) : Bool :=
  decide (r.last + 100000000 ≤ now) || r.temp.any (fun t => decide (128 ≤ (temp - t).natAbs))

/-- One channel's retraining falls due: it starts, waits for the other channel's to end, or is paused before it begins (R282). -/
def State.retrainOne (s : State) (p : Fin 4) (temp : Int) (ch : Fin 2) : State :=
  let x := s.parts[p]
  if x.retrain[ch].state ≠ 0 || ch ∈ x.retrainNext || !x.retrain[ch].due s.now temp then s
  else
    let s := s.modPart p (fun x => { x with retrain := vmod x.retrain ch (fun r => { r with temp := some temp }) })
    if x.test.isSome || x.testDue then s.pauseRetrain p ch
    else if x.retrain.toList.any (fun r => r.state = 1) then s.modPart p (fun x => { x with retrainNext := x.retrainNext ++ [ch] })
    else (s.pauseScrub p).startRetrain p ch

/-- CHANNEL_RETRAIN (R281, R282): a channel's retraining is due, by its period or a change of temperature; channel 0 goes before
channel 1 where both are due. -/
def execChannelRetrain (stack : StackTemp) (ch : Fin 2) (s : State) : Host.Outcome State Fault Refusal :=
  let p := stack.p
  let temp := stack.temp
  .next (
    if !s.clusterUp p || !s.parts[p].retrain[ch].due s.now temp then s
    else if ch = 0 then s.retrainOne p temp 0 else (s.retrainOne p temp 0).retrainOne p temp 1)

/-- CHANNEL_RETRAIN_DONE (R281, R282): a row-range test that waited for it begins, else what was paused resumes. -/
def execChannelRetrainDone (p : Fin 4) (ch : Fin 2) (s : State) : Host.Outcome State Fault Refusal :=
  .next (if s.parts[p].retrain[ch].state = 1 ∧ s.clusterUp p then
      let s := s.modPart p (fun x => { x with retrain := vmod x.retrain ch (fun r => { r with state := 0, last := s.now }) })
      let s := if s.parts[p].testDue then (s.modPart p (fun x => { x with testDue := false })).rowTest p else s
      s.resumeMaint p
    else s)

/-! ### Errors and BAR2 -/

/-- DRAM_CORRECTABLE_ERROR (R273): the error counts against its row range. -/
def execDramCorrectableError (addr : Nat) (s : State) : Host.Outcome State Fault Refusal :=
  .next (match spaceOf addr with
    | .dram p _ =>
      if !s.clusterUp p then s
      else
        let base := rowRange addr
        let l := s.now :: ((assoc s.parts[p].ce base).getD []).filter (fun t => s.now < t + 1000000000)
        if s.key .memCeLimit ≤ l.length then
          (s.modPart p (fun x => { x with ce := assocDel x.ce base })).queueRange p base
        else s.modPart p (fun x => { x with ce := assocSet x.ce base l })
    | _ => s)


/-- DRAM_UE (R274): a read of a line finds an uncorrectable error; the line is poisoned. -/
def execDramUe (addr : Nat) (reader : DramReader) (s : State) : Host.Outcome State Fault Refusal :=
  .next (match spaceOf addr with
    | .dram p _ =>
      let l := lineOf addr
      if !s.clusterUp p || decide (l ∈ s.poison) then s
      else
        let s := { s with poison := l :: s.poison }
        (s.event 0x0307 0 p.val true (leBytes 8 l ++ leBytes 1 (match reader with
          | .barge => 0
          | .pagePort => 1
          | .host => 2
          | .scrub => 3))).queueRange p (rowRange l)
    | _ => s)

/-- A legal BAR2 access: within one 4 KiB page of DRAM. -/
def bar2Ok (addr len : Nat) : Bool := decide (0 < len ∧ addr / 4096 = (addr + len - 1) / 4096 ∧ addr < 0x800000000)

/-- BAR2_READ (R252, R253, R274, R278): its completion, unless a copy of its row range holds it. -/
def execBar2Read (addr : Nat) (len : Nat) (s : State) : Host.Outcome State Fault Refusal :=
  .next (match spaceOf addr with
    | .dram p a =>
      if !bar2Ok addr len then s
      else if s.copying a len then s.modPart p (fun x => { x with held := x.held ++ [⟨a, false, len, []⟩] })
      else s.hostRead p a len
    | _ => s)

/-- BAR2_WRITE (R252, R253, R275, R278). -/
def execBar2Write (addr : Nat) (data : List Byte) (s : State) : Host.Outcome State Fault Refusal :=
  .next (match spaceOf addr with
    | .dram p a =>
      if !bar2Ok addr data.length then s
      else if s.copying a data.length then s.modPart p (fun x => { x with held := x.held ++ [⟨a, true, data.length, data⟩] })
      else s.hostStore p a data
    | _ => s)

/-- REGION_ZERO_FILL_DONE (R256, R278): the region reads as zeros, and REGION_ALLOC replies. -/
def execRegionZeroFillDone (m : Fin 8) (s : State) : Host.Outcome State Fault Refusal :=
  .next (match s.mboxes[m].taken, s.mboxes[m].flight with
    | some t, some x =>
      let p : Fin 4 := Fin.ofNat 4 (x.args.getD 0 0)
      if ¬ (t.command = 0x0412 ∧ s.clusterUp p ∧ s.serving) then s
      else
        match s.parts[p].regions.find? (fun r => r.slot = x.args.getD 1 0) with
        | some r =>
          if s.copying r.base r.len then s else
          let s := { s with dram := s.dram.zero r.base r.len, poison := s.poison.filter (fun l => !r.holds l) }
          (s.modRegion p r.slot (fun r => { r with update := false })).reply m (ok x.reply)
        | none => s
    | _, _ => s)

end Sys2Proof.Machine
end

