-- ==== Sys2Proof/Machine/DspFn.lean ====
section
/-! DEFINITION. What a DSP computes (chapter 10): addressing, multiply and accumulate, integer operations, division, and
the registers and flags they leave. -/

namespace Sys2Proof.Machine

/-- A fault of an instruction (R369): its cause, the bus, and the word address of the access, where there is one. -/
structure DFault where
  cause : Nat
  bus : Nat
  addr : Option Nat
deriving DecidableEq, Repr

/-- ILLEGAL. -/
def DFault.illegal : DFault := ⟨1, 0, none⟩

/-! ### Registers (R368, R369) -/

/-- The active bank. -/
def Dsp.bankNo (d : Dsp) : Fin 3 := Fin.ofNat 3 (bits d.sr.toNat 22 2)

/-- The registers of the active bank. -/
def Dsp.regs (d : Dsp) : DspBank := d.bank[d.bankNo]

/-- The DSP with the active bank changed. -/
def Dsp.modBank (d : Dsp) (f : DspBank → DspBank) : Dsp := { d with bank := vmod d.bank d.bankNo f }

/-- Data register n: x0 to x7, then y0 to y7. -/
def Dsp.reg (d : Dsp) (n : Fin 16) : W32 := if n.val < 8 then d.regs.x[Fin.ofNat 8 n.val] else d.regs.y[Fin.ofNat 8 n.val]

/-- The DSP with a data register written. -/
def Dsp.setReg (d : Dsp) (n : Fin 16) (v : W32) : Dsp :=
  d.modBank (fun b =>
    if n.val < 8 then { b with x := vset b.x (Fin.ofNat 8 n.val) v } else { b with y := vset b.y (Fin.ofNat 8 n.val) v })

/-- The DSP with a pointer written. -/
def Dsp.setPtr (d : Dsp) (n : Fin 8) (v : Nat) : Dsp := d.modBank (fun b => { b with p := vset b.p n (BitVec.ofNat 24 v) })

/-- The DSP with an accumulator written. -/
def Dsp.setAcc (d : Dsp) (n : Fin 4) (v : BitVec 72) : Dsp := { d with acc := vset d.acc n v }

/-- The current interrupt level, sr.il. -/
def Dsp.level (d : Dsp) : Nat := bits d.sr.toNat 24 3

/-- A word with one bit set or cleared. -/
def putBit (w : W32) (i : Nat) (b : Bool) : W32 := if b then w ||| (1#32 <<< i) else w &&& ~~~(1#32 <<< i)

/-- The condition flags an instruction writes (R370): n, z, vl; c where it is one that gives a carry; v sticks. -/
def Dsp.flags (d : Dsp) (n z : Bool) (c : Option Bool) (vl : Bool) : Dsp :=
  let w := putBit (putBit (putBit d.sr 0 n) 1 z) 3 vl
  let w := match c with
    | some b => putBit w 2 b
    | none => w
  { d with sr := if vl then putBit w 6 true else w }

/-- The flags of a 32-bit result. -/
def Dsp.flags32 (d : Dsp) (r : W32) (c : Option Bool) (vl : Bool) : Dsp := d.flags (r.getLsbD 31) (r == 0) c vl

/-- The flags of an accumulator result. -/
def Dsp.flags72 (d : Dsp) (r : BitVec 72) (vl : Bool) : Dsp := d.flags (r.getLsbD 71) (r == 0) none vl

/-! ### Addressing (R371, R372) -/

/-- The low k bits reversed. -/
def bitrev : Nat → Nat → Nat
  | 0, _ => 0
  | k + 1, v => v % 2 * 2 ^ k + bitrev k (v / 2)

/-- The modify rule (R372): none where the modulo register's mode or length raises ILLEGAL. -/
def dspModify (p : Nat) (d : Int) (m : W32) : Option Nat :=
  let mode := bits m.toNat 30 2
  let page := p / 0x10000 * 0x10000
  let base := bits m.toNat 18 12 * 16
  let len := bits m.toNat 0 17
  let o : Int := (p % 0x10000 : Nat) - (base : Int)
  let back (o : Int) : Nat := page + wrapN 16 ((base : Int) + o)
  match mode with
  | 0 => some (wrapN 24 ((p : Int) + d))
  | 1 => if len = 0 then none else some (back ((o + d) % (len : Int)))
  | 2 =>
    let k := Nat.log2 len
    if len = 0 ∨ len ≠ 2 ^ k then none
    else some (back (bitrev k ((bitrev k (wrapN k o) + bitrev k (wrapN k d)) % len)))
  | _ => none

/-- The modify rule applied to a pointer of the active bank. -/
def Dsp.modify (d : Dsp) (n : Fin 8) (by_ : Int) : Option Nat := dspModify (d.regs.p[n]).toNat by_ (d.regs.m[n])

/-- The address a load or store uses and the pointer afterwards (R371): none raises ILLEGAL. -/
def Dsp.address (d : Dsp) (mode : Nat) (p : Fin 8) (imm : W16) : Option (Nat × Option Nat) :=
  let a := (d.regs.p[p]).toNat
  let n := imm.toInt
  let after (by_ : Int) : Option (Nat × Option Nat) := (d.modify p by_).map (fun q => (a, some q))
  match mode with
  | 0 => some (a, none)
  | 1 => after 1
  | 2 => after (-1)
  | 3 => after 2
  | 4 => if -128 ≤ n ∧ n ≤ 127 then after n else none
  | 5 => if -128 ≤ n ∧ n ≤ 127 then (d.modify p n).map (fun q => (q, none)) else none
  | 6 => some (imm.toNat, none)
  | _ => none

/-! ### Multiply and accumulate (R376, R377) -/

/-- Saturate to 72 bits: the value and whether it saturated. -/
def sat72 (v : Int) : BitVec 72 × Bool :=
  if v < -(2 ^ 71 : Int) then (BitVec.ofInt 72 (-(2 ^ 71 : Int)), true)
  else if (2 ^ 71 : Int) ≤ v then (BitVec.ofInt 72 ((2 ^ 71 : Int) - 1), true)
  else (BitVec.ofInt 72 v, false)

/-- Saturate to 32 bits. -/
def sat32 (v : Int) : W32 × Bool :=
  if v < -(2 ^ 31 : Int) then (0x80000000#32, true)
  else if (2 ^ 31 : Int) ≤ v then (0x7FFFFFFF#32, true)
  else (BitVec.ofInt 32 v, false)

/-- prod of R376. -/
def dspProd (a b : W32) (f : Bool) : Int := if f then 2 * (a.toInt * b.toInt) else a.toInt * b.toInt

/-- The operations of the MAC class (R374). -/
inductive MacOp where
  | mpy | mac | msu | mpyd | macd | msud
deriving DecidableEq, Repr

/-- Whether an operation is a D form. -/
def MacOp.double : MacOp → Bool
  | .mpyd | .macd | .msud => true
  | _ => false

/-- The arithmetic of a MAC class instruction, on registers already loaded (R376). -/
def Dsp.macArith (d : Dsp) (op : MacOp) (a : MacArgs) : Dsp :=
  let b := d.regs
  let p := dspProd b.x[a.x] b.y[a.y] a.f
  let x2 := 2 * (a.x.val % 4)
  let y2 := 2 * (a.y.val % 4)
  let pd := dspProd b.x[Fin.ofNat 8 x2] b.y[Fin.ofNat 8 y2] a.f + dspProd b.x[Fin.ofNat 8 (x2 + 1)] b.y[Fin.ofNat 8 (y2 + 1)] a.f
  let acc := (d.acc[a.acc]).toInt
  let (r, sat) := sat72 (match op with
    | .mpy => p
    | .mac => acc + p
    | .msu => acc - p
    | .mpyd => pd
    | .macd => acc + pd
    | .msud => acc - pd)
  (d.setAcc a.acc r).flags72 r sat

/-- NARROW (R377). -/
def Dsp.narrow (d : Dsp) (acc : Fin 4) (reg : Fin 16) (sh : Nat) : Dsp :=
  let (r, sat) := sat32 ((d.acc[acc]).toInt.tdiv (2 ^ sh : Nat))
  (d.setReg reg r).flags32 r none sat

/-- ASRA (R377). -/
def Dsp.asra (d : Dsp) (acc : Fin 4) (sh : Nat) : Dsp :=
  let r := (d.acc[acc]).sshiftRight sh
  (d.setAcc acc r).flags72 r false

/-- CLR. -/
def Dsp.clrAcc (d : Dsp) (acc : Fin 4) : Dsp := (d.setAcc acc 0).flags72 0 false

/-- LDA (R369). -/
def Dsp.lda (d : Dsp) (acc : Fin 4) (reg : Fin 16) (sh : Nat) : Dsp :=
  let r := ((d.reg reg).signExtend 72) <<< sh
  (d.setAcc acc r).flags72 r false

/-- ADDA: the second accumulator added to the first. The spec states no result for a sum beyond 72 bits: there the
accumulator and vl are free, from `free` (log entry 63). -/
def Dsp.adda (d : Dsp) (acc acc2 : Fin 4) (free : Nat) : Dsp :=
  let v := (d.acc[acc]).toInt + (d.acc[acc2]).toInt
  let (r, sat) := sat72 v
  if sat then
    let r := BitVec.ofNat 72 (free / 2)
    (d.setAcc acc r).flags72 r (free % 2 = 1)
  else (d.setAcc acc r).flags72 r false

/-- A field of an accumulator read by MOVA (R369). -/
def accField (v : BitVec 72) : AccField → W32
  | .ext => (v.extractLsb' 64 8).signExtend 32
  | .hi => v.extractLsb' 32 32
  | .lo => v.extractLsb' 0 32

/-- A field of an accumulator written by MOVA (R369). -/
def setAccField (v : BitVec 72) (f : AccField) (w : W32) : BitVec 72 :=
  match f with
  | .ext => (w.setWidth 8 ++ v.extractLsb' 0 64).cast rfl
  | .hi => ((v.extractLsb' 64 8 ++ w) ++ v.extractLsb' 0 32).cast rfl
  | .lo => (v.extractLsb' 32 40 ++ w).cast rfl

/-- MOVA (R369): one field moved, nothing else changed; the flags are those of the value moved (log entry 64). -/
def Dsp.mova (d : Dsp) (acc : Fin 4) (f : AccField) (toReg : Bool) (reg : Fin 16) : Dsp :=
  if toReg then
    let v := accField (d.acc[acc]) f
    (d.setReg reg v).flags32 v none false
  else
    let r := setAccField (d.acc[acc]) f (d.reg reg)
    (d.setAcc acc r).flags32 (accField r f) none false

/-! ### Integer operations (R378, R380) -/

/-- The register operations of the ALU class. -/
inductive AluOp where
  | add | adds | sub | subs | cmp | neg | abs | min | max | mul | and | or | xor | not | shl | lsr | asr
deriving DecidableEq, Repr

/-- Whether an exact result lies outside 32 bits. -/
def beyond32 (v : Int) : Bool := decide (v < -(2 ^ 31 : Int) ∨ (2 ^ 31 : Int) ≤ v)

/-- Result, carry where the operation gives one, and vl (R378, R68, R69). One-source operations take source a; ADD, SUB
and CMP give c (log entry 64). -/
def aluResult (op : AluOp) (a b : W32) : W32 × Option Bool × Bool :=
  let x := a.toInt
  let y := b.toInt
  match op with
  | .add => (a + b, some (decide (2 ^ 32 ≤ a.toNat + b.toNat)), beyond32 (x + y))
  | .adds => ((sat32 (x + y)).1, none, (sat32 (x + y)).2)
  | .sub => (a - b, some (decide (b.toNat ≤ a.toNat)), beyond32 (x - y))
  | .subs => ((sat32 (x - y)).1, none, (sat32 (x - y)).2)
  | .cmp => (a - b, some (decide (b.toNat ≤ a.toNat)), beyond32 (x - y))
  | .neg => ((sat32 (-x)).1, none, (sat32 (-x)).2)
  | .abs => ((sat32 (if x < 0 then -x else x)).1, none, (sat32 (if x < 0 then -x else x)).2)
  | .min => (if x ≤ y then a else b, none, false)
  | .max => (if y ≤ x then a else b, none, false)
  | .mul => (a * b, none, beyond32 (x * y))
  | .and => (a &&& b, none, false)
  | .or => (a ||| b, none, false)
  | .xor => (a ^^^ b, none, false)
  | .not => (~~~a, none, false)
  | .shl => (if b.toNat < 32 then a <<< b.toNat else 0, none, false)
  | .lsr => (if b.toNat < 32 then a >>> b.toNat else 0, none, false)
  | .asr => (a.sshiftRight (Nat.min b.toNat 32), none, false)

/-- Source b: a register, or the immediate, sign-extended. -/
def Dsp.srcB (d : Dsp) : DspSrc → W32
  | .reg r => d.reg r
  | .imm v => v.signExtend 32

/-- An ALU instruction: CMP writes no register. -/
def Dsp.alu (d : Dsp) (op : AluOp) (a : AluArgs) : Dsp :=
  let r := aluResult op (d.reg a.ra) (d.srcB a.b)
  (if op = .cmp then d else d.setReg a.rd r.1).flags32 r.1 r.2.1 r.2.2

/-! ### Division (R379) -/

/-- An accumulator of its three fields. -/
def accOf (ext : BitVec 8) (hi lo : W32) : BitVec 72 := ((ext ++ hi) ++ lo).cast rfl

/-- The flags n and z the division instructions leave: the spec states no result for them (log entry 65). -/
def Dsp.freeNZ (d : Dsp) (free : Nat) (vl : Bool) : Dsp := d.flags (free % 2 = 1) (free / 2 % 2 = 1) none vl

/-- DIVINIT: the dividend is source a, the divisor source b. -/
def Dsp.divinit (d : Dsp) (acc : Fin 4) (a : AluArgs) (free : Nat) : Dsp :=
  let n := (d.reg a.ra).toInt
  let v := (d.srcB a.b).toInt
  let d := { d with sr := putBit (putBit (putBit d.sr 19 (decide (n < 0) != decide (v < 0))) 18 (n < 0)) 20 (v = 0) }
  (d.setAcc acc (accOf 0 0 (BitVec.ofNat 32 n.natAbs))).freeNZ free false

/-- DIVS: one step, with the divisor of source b. -/
def Dsp.divs (d : Dsp) (acc : Fin 4) (a : AluArgs) (free : Nat) : Dsp :=
  let v := d.acc[acc]
  let hi := (accField v .hi).toNat
  let lo := (accField v .lo).toNat
  let r := 2 * hi + lo / 2 ^ 31
  let m := (d.srcB a.b).toInt.natAbs
  let lo' := 2 * lo % 2 ^ 32
  let r' := if m ≤ r then r - m else r
  let lo' := if m ≤ r then lo' + 1 else lo'
  (d.setAcc acc (accOf (v.extractLsb' 64 8) (BitVec.ofNat 32 r') (BitVec.ofNat 32 lo'))).freeNZ free false

/-- DIVEND: quotient in lo, remainder in hi. -/
def Dsp.divend (d : Dsp) (acc : Fin 4) (free : Nat) : Dsp :=
  let v := d.acc[acc]
  let hi : Int := (accField v .hi).toNat
  let lo : Int := (accField v .lo).toNat
  let dzp := d.sr.getLsbD 20
  let qs := d.sr.getLsbD 19
  let rs := d.sr.getLsbD 18
  let r : Int := if rs then -hi else hi
  let q : Int := if dzp then (if rs then -2147483648 else 2147483647) else if qs then -lo else lo
  let ovf := !dzp && decide (2147483647 < q)
  let d := d.setAcc acc (accOf 0 (BitVec.ofInt 32 (if ovf then 0 else r)) (BitVec.ofInt 32 (if ovf then 2147483647 else q)))
  let d := d.freeNZ free ovf
  if dzp then { d with sr := putBit d.sr 7 true } else d

/-! ### Control registers and conditions (R369, R374) -/

/-- A branch condition. -/
def Dsp.holds (d : Dsp) : DspCond → Bool
  | .always => true
  | .z => d.sr.getLsbD 1
  | .nz => !d.sr.getLsbD 1
  | .n => d.sr.getLsbD 0
  | .nn => !d.sr.getLsbD 0
  | .c => d.sr.getLsbD 2
  | .nc => !d.sr.getLsbD 2
  | .vl => d.sr.getLsbD 3
  | .greater => !d.sr.getLsbD 0 && !d.sr.getLsbD 1
  | .lessEq => d.sr.getLsbD 0 || d.sr.getLsbD 1

/-- The tasks of a DSP with what is kept of each. -/
def Dsp.taskList (d : Dsp) : List (DspTask × TaskSt) := ((d.image.map (·.tasks)).getD []).zip d.tasks

/-- A task has a run requested that has not started. -/
def TaskSt.requested (t : TaskSt) : Bool := (t.cur.map (fun r => !r.started)).getD false

/-- Whether a request of a level is pending (R387): a task's, an SWI's, or a TICK_OVERRUN. -/
def Dsp.pendingAt (d : Dsp) (l : Nat) : Bool :=
  if l = 7 then !d.ovrReq.isEmpty
  else d.swi.getLsbD l || d.taskList.any (fun t => decide (t.1.level = l) && t.2.requested)

/-- ip. -/
def Dsp.ip (d : Dsp) : Nat := ((List.range 8).map (fun l => if 0 < l ∧ d.pendingAt l then 2 ^ l else 0)).sum

/-- A control register read by MOVC (R369): none raises ILLEGAL. rpc with an empty interrupt stack is free (log entry
66). -/
def Dsp.ctlRead (d : Dsp) (n : Nat) (free : Nat) : Option W32 :=
  if n < 8 then some ((d.regs.p[Fin.ofNat 8 n]).setWidth 32)
  else if n < 16 then some (d.regs.m[Fin.ofNat 8 n])
  else match n with
  | 16 => some d.sr
  | 17 => some d.ie
  | 18 => some (BitVec.ofNat 32 d.ip)
  | 19 => some d.lc
  | 20 => some d.rc
  | 21 => some (d.regs.lr.setWidth 32)
  | 22 => some d.fcause
  | 23 => some d.faddr
  | 24 => some (match d.stack with
    | f :: _ => BitVec.ofNat 32 f.ret
    | [] => BitVec.ofNat 32 (free % 32768))
  | 25 => some d.xwin
  | 26 => some d.cyc
  | 27 => some (BitVec.ofNat 32 d.task)
  | _ => none

/-- A control register written by MOVC: only its RW bits; a read-only register keeps its value. -/
def Dsp.ctlWrite (d : Dsp) (n : Nat) (v : W32) : Option Dsp :=
  if n < 8 then some (d.modBank (fun b => { b with p := vset b.p (Fin.ofNat 8 n) (v.setWidth 24) }))
  else if n < 16 then some (d.modBank (fun b => { b with m := vset b.m (Fin.ofNat 8 n) (v &&& 0xFFFDFFFF) }))
  else match n with
  | 16 => some { d with sr := (d.sr &&& ~~~0x001C00CF#32) ||| (v &&& 0x001C00CF) }
  | 17 => some { d with ie := v &&& 0x7E }
  | 19 => some { d with lc := v }
  | 21 => some (d.modBank (fun b => { b with lr := v.setWidth 15 }))
  | 24 =>
    match d.stack with
    | f :: t => some { d with stack := { f with ret := v.toNat % 32768 } :: t }
    | [] => some d
  | 25 => some { d with xwin := v &&& 0x80000003 }
  | 18 | 20 | 22 | 23 | 26 | 27 => some d
  | _ => none

end Sys2Proof.Machine
end

