-- ==== Sys2Proof/Machine/DspOps.lean ====
section
/-! DEFINITION. How a DSP executes: its memories and the window, faults, the interrupt stack, overruns of its tasks, and
one instruction (chapter 10). -/

namespace Sys2Proof.Machine

/-! ### Condition and tests -/

/-- The event ring a DSP's events go to: that of the context that loaded it (R396). -/
def Dsp.ctx (d : Dsp) : Nat := d.owner.getD 0

/-- A block of a DSP's memory is under test: the DSP is held at an instruction boundary (R552). -/
def State.dspHeld (s : State) (d : Fin 4) : Bool :=
  s.health.tests.any (fun t =>
    decide (t.st = .running) && (match t.unit with
      | .dspBlock e _ => decide (e = d)
      | _ => false))

/-- A DSP executes instructions: RUNNING, powered, not held by a test. -/
def State.dspRuns (s : State) (d : Fin 4) : Bool := s.dsps[d].cond = 1 && s.on (dspReach d) && !s.dspHeld d

/-- A task run has started and has not completed. -/
def Dsp.inTask (d : Dsp) : Bool := d.tasks.any (fun t => (t.cur.map (·.started)).getD false)

/-- The fixed point of a DSP block's test (R551): between two task runs, the first pending one starts. -/
def State.dspTests (s : State) (d : Fin 4) : State :=
  if !s.fwUp || !s.on (dspReach d) || s.dspHeld d || s.dsps[d].inTask then s
  else
    match s.health.tests.find? (fun t =>
        decide (t.st = .pending) && (match t.unit with
          | .dspBlock e _ => decide (e = d)
          | _ => false)) with
    | some t => s.runTest t.tid
    | none => s

/-- The trace unit of a DSP (R601). -/
def dspUnit (d : Fin 4) : Fin 10 := if d = 0 then 1 else 2

/-- A DSP_TASK packet (R604): event 0 start, 1 RTI, 2 overrun, 3 fault. -/
def State.dspTrace (s : State) (d : Fin 4) (task ev ret : Nat) : State :=
  let id := ((((s.dsps[d].image.map (·.tasks)).getD [])[task]?).map (·.entry)).getD 0xFF
  s.trace (dspUnit d) 6 0x31 d.val (leBytes 1 id ++ leBytes 1 ev ++ leBytes 2 ret)

/-! ### Memories (R364 to R367) -/

/-- A place a data bus reaches. -/
inductive DPlace where
  | x (w : Nat)
  | y (w : Nat)
  | window (c : Fin 4) (off : Nat)
deriving DecidableEq, Repr

/-- A DSP block's number for a word of memory 0 (P), 1 (X) or 2 (Y), as tests name it. -/
def dspBlockOf (mem w : Nat) : Nat := 2048 * mem + w / 64

/-- The byte offset SRAM_UE gives for a word: P at 0, X at 0x20000, Y at 0x60000 (log entry 67). -/
def dspOffset (mem w : Nat) : Nat := (match mem with
  | 0 => 0
  | 1 => 0x20000
  | _ => 0x60000) + 4 * w

/-- An uncorrectable error is detected in a word of a DSP's memory (R367, R548): SRAM_UE, and its block is to be tested. -/
def State.dspUe (s : State) (d : Fin 4) (mem w : Nat) : State :=
  (s.event 0x0A01 0 (0x10 + d.val) true (leBytes 1 4 ++ leBytes 1 d.val ++ leBytes 4 (dspOffset mem w))).queueTest
    (.dspBlock d (dspBlockOf mem w)) 0x0A01 none

/-- Where an access goes, or its fault (R364, R366). -/
def State.dspPlace (s : State) (d : Fin 4) (busY : Bool) (a : Nat) : Except DFault DPlace :=
  let x := s.dsps[d]
  if a < 0x10000 then .ok (if busY then .y a else .x a)
  else if !busY && decide (0x400000 ≤ a ∧ a < 0x800000) then
    let c : Fin 4 := Fin.ofNat 4 (bits x.xwin.toNat 0 2)
    if !x.xwin.getLsbD 31 then .error ⟨3, 3, some a⟩
    else if !s.clusterUp c then .error ⟨6, 3, some a⟩
    else .ok (.window c (4 * (a - 0x400000)))
  else .error ⟨3, if busY then 2 else 1, some a⟩

/-- Read a word at a place. -/
def State.dspRead (s : State) (d : Fin 4) : DPlace → Except DFault W32
  | .x w => if w ∈ s.dsps[d].badX then .error ⟨5, 1, some w⟩ else .ok (BitVec.ofNat 32 (s.dsps[d].x.le (4 * w) 4))
  | .y w => if w ∈ s.dsps[d].badY then .error ⟨5, 2, some w⟩ else .ok (BitVec.ofNat 32 (s.dsps[d].y.le (4 * w) 4))
  | .window c o => .ok (BitVec.ofNat 32 (s.clLe c o 4))

/-- Write a word at a place: a protected range refuses a window write (R646); a whole word clears its error (R367). -/
def State.dspWrite (s : State) (d : Fin 4) (v : W32) : DPlace → Except DFault State
  | .x w => .ok (s.audWrite (.dspX d (4 * w)) (w32 v))
  | .y w => .ok (s.audWrite (.dspY d (4 * w)) (w32 v))
  | .window c o =>
    if s.protectedIn c o 4 then .error ⟨3, 3, some (0x400000 + o / 4)⟩ else .ok (s.clWrite c o (w32 v))

/-- Whether a place is in the window. -/
def DPlace.isWindow : DPlace → Bool
  | .window _ _ => true
  | _ => false

/-- The cycles a window read stalls, 1 to 120: free (R366; log entry 68). -/
def State.windowStall (s : State) (p : DPlace) : Nat × State :=
  if p.isWindow then
    let (n, s) := s.draw
    (1 + n % 120, s)
  else (0, s)

/-! ### Operations that REP may repeat (R382) -/

/-- A single-cycle operation of the MAC, ALU, accumulator, load and store, or immediate class. -/
inductive DspOp where
  | mac (op : MacOp) (a : MacArgs)
  | alu (op : AluOp) (a : AluArgs)
  | divinit (acc : Fin 4) (a : AluArgs)
  | divs (acc : Fin 4) (a : AluArgs)
  | divend (acc : Fin 4)
  | clr (acc : Fin 4)
  | mova (acc : Fin 4) (f : AccField) (toReg : Bool) (reg : Fin 16)
  | lda (acc : Fin 4) (reg : Fin 16) (sh : Nat)
  | narrow (acc : Fin 4) (reg : Fin 16) (sh : Nat)
  | adda (acc acc2 : Fin 4)
  | asra (acc : Fin 4) (sh : Nat)
  | ld (a : LdStArgs)
  | st (a : LdStArgs)
  | ldi (reg : Fin 16) (high : Bool) (imm : W16)
deriving DecidableEq, Repr

/-- The effect of an operation, or its fault; with the cycles it stalls beyond its own. -/
abbrev DspRes := Except DFault (State × Nat)

/-- An operation on registers alone. -/
def State.dspPure (s : State) (d : Fin 4) (f : Dsp → Dsp) : DspRes := .ok (s.modDsp d f, 0)

/-- An operation on registers alone that takes a free value. -/
def State.dspFree (s : State) (d : Fin 4) (f : Nat → Dsp → Dsp) : DspRes :=
  let (n, s) := s.draw
  .ok (s.modDsp d (f n), 0)

/-- An operand load of the MAC class (R371, R373, R376): the values of the word, or of the pair, and the pointer
afterwards. A D form needs an even address. -/
def State.macLoad (s : State) (d : Fin 4) (busY double : Bool) (l : MacLoad) :
    Except DFault ((W32 × W32) × Option Nat × DPlace) := do
  match s.dsps[d].address l.mode.val l.ptr 0 with
  | none => .error .illegal
  | some (a, q) =>
    let p ← s.dspPlace d busY a
    if double && decide (a % 2 = 1) then .error ⟨4, if p.isWindow then 3 else if busY then 2 else 1, some a⟩
    let v ← s.dspRead d p
    if double then
      let p2 ← s.dspPlace d busY (a + 1)
      let w ← s.dspRead d p2
      .ok ((v, w), q, p)
    else .ok ((v, 0), q, p)

/-- Write a loaded word or pair into the x or y file. -/
def Dsp.putOperand (d : Dsp) (toY double : Bool) (r : Fin 8) (v : W32 × W32) : Dsp :=
  let base := if toY then 8 else 0
  if double then
    let k := 2 * (r.val % 4)
    (d.setReg (Fin.ofNat 16 (base + k)) v.1).setReg (Fin.ofNat 16 (base + k + 1)) v.2
  else d.setReg (Fin.ofNat 16 (base + r.val)) v.1

/-- A MAC class instruction (R376): its loads, then its arithmetic. Both addresses are those before the instruction; a
pointer that the two loads leave with different values is free (log entry 69). -/
def State.dspMac (s : State) (d : Fin 4) (op : MacOp) (a : MacArgs) : DspRes := do
  let xl ← match a.xload with
    | some l => (s.macLoad d false op.double l).map some
    | none => .ok none
  let yl ← match a.yload with
    | some l => (s.macLoad d true op.double l).map some
    | none => .ok none
  let (n1, s) := match xl with
    | some (_, _, p) => s.windowStall p
    | none => (0, s)
  let clash := match a.xload, a.yload with
    | some lx, some ly =>
      decide (lx.ptr = ly.ptr ∧ (xl.bind (fun r => r.2.1)) ≠ (yl.bind (fun r => r.2.1)))
    | _, _ => false
  let (free, s) := if clash then s.draw else (0, s)
  let ptr (d : Dsp) (l : Option MacLoad) (r : Option ((W32 × W32) × Option Nat × DPlace)) : Dsp :=
    match l, r with
    | some l, some (_, some q, _) => d.setPtr l.ptr q
    | _, _ => d
  .ok (s.modDsp d (fun x =>
    let x := match xl with
      | some (v, _, _) => x.putOperand false op.double a.x v
      | none => x
    let x := match yl with
      | some (v, _, _) => x.putOperand true op.double a.y v
      | none => x
    let x := ptr (ptr x a.xload xl) a.yload yl
    let x := match clash, a.xload with
      | true, some l => x.setPtr l.ptr free
      | _, _ => x
    x.macArith op a), n1)

/-- LD (R371). -/
def State.dspLoadOp (s : State) (d : Fin 4) (a : LdStArgs) : DspRes := do
  match s.dsps[d].address a.mode.val a.ptr a.imm with
  | none => .error .illegal
  | some (w, q) =>
    let p ← s.dspPlace d a.busY w
    let v ← s.dspRead d p
    let (n, s) := s.windowStall p
    .ok (s.modDsp d (fun x =>
      let x := x.setReg a.reg v
      match q with
      | some q => x.setPtr a.ptr q
      | none => x), n)

/-- ST (R371). -/
def State.dspStoreOp (s : State) (d : Fin 4) (a : LdStArgs) : DspRes := do
  match s.dsps[d].address a.mode.val a.ptr a.imm with
  | none => .error .illegal
  | some (w, q) =>
    let p ← s.dspPlace d a.busY w
    let s ← s.dspWrite d (s.dsps[d].reg a.reg) p
    .ok (s.modDsp d (fun x =>
      match q with
      | some q => x.setPtr a.ptr q
      | none => x), 0)

/-- LDI (R374). -/
def Dsp.ldi (d : Dsp) (reg : Fin 16) (high : Bool) (imm : W16) : Dsp :=
  d.setReg reg (if high then imm ++ (d.reg reg).setWidth 16 else imm.signExtend 32)

/-- The effect of a repeatable operation. A shift above 40 is a reserved field (R374). -/
def State.dspOp (s : State) (d : Fin 4) : DspOp → DspRes
  | .mac op a => s.dspMac d op a
  | .alu op a => s.dspPure d (fun x => x.alu op a)
  | .divinit acc a => s.dspFree d (fun n x => x.divinit acc a n)
  | .divs acc a => s.dspFree d (fun n x => x.divs acc a n)
  | .divend acc => s.dspFree d (fun n x => x.divend acc n)
  | .clr acc => s.dspPure d (fun x => x.clrAcc acc)
  | .mova acc f t reg => s.dspPure d (fun x => x.mova acc f t reg)
  | .lda acc reg sh => if 40 < sh then .error .illegal else s.dspPure d (fun x => x.lda acc reg sh)
  | .narrow acc reg sh => if 40 < sh then .error .illegal else s.dspPure d (fun x => x.narrow acc reg sh)
  | .adda acc acc2 => s.dspFree d (fun n x => x.adda acc acc2 n)
  | .asra acc sh => if 40 < sh then .error .illegal else s.dspPure d (fun x => x.asra acc sh)
  | .ld a => s.dspLoadOp d a
  | .st a => s.dspStoreOp d a
  | .ldi reg high imm => s.dspPure d (fun x => x.ldi reg high imm)

/-- The operation of a word of P memory (R374), where it is of a class REP may repeat; the operation codes are those of log
entry 62, and DIVINIT, DIVS and DIVEND name their accumulator in the destination field (log entry 70). -/
def dspDecode (w : Nat) : Option DspOp :=
  let f16 (lo : Nat) : Fin 16 := Fin.ofNat 16 (bits w lo 4)
  let alu : AluArgs := ⟨f16 18, f16 14, if bit w 9 then .imm (BitVec.ofNat 9 w) else .reg (f16 10)⟩
  let acc : Fin 4 := Fin.ofNat 4 (bits w 20 2)
  match bits w 28 4 with
  | 3 =>
    let args : MacArgs :=
      { f := bit w 24, acc := Fin.ofNat 4 (bits w 22 2), x := Fin.ofNat 8 (bits w 19 3), y := Fin.ofNat 8 (bits w 16 3),
        xload := if bit w 15 then some ⟨Fin.ofNat 4 (bits w 13 2), Fin.ofNat 8 (bits w 10 3)⟩ else none,
        yload := if bit w 9 then some ⟨Fin.ofNat 4 (bits w 7 2), Fin.ofNat 8 (bits w 4 3)⟩ else none }
    if bits w 0 4 ≠ 0 then none
    else match Config.dspOperation 3 (bits w 25 3) with
    | 0 => some (.mac .mpy args)
    | 1 => some (.mac .mac args)
    | 2 => some (.mac .msu args)
    | 3 => some (.mac .mpyd args)
    | 4 => some (.mac .macd args)
    | 5 => some (.mac .msud args)
    | _ => none
  | 4 =>
    let dacc : Fin 4 := Fin.ofNat 4 (bits w 18 2)
    let ops : List DspOp :=
      [.alu .add alu, .alu .adds alu, .alu .sub alu, .alu .subs alu, .alu .cmp alu, .alu .neg alu, .alu .abs alu,
       .alu .min alu, .alu .max alu, .alu .mul alu, .alu .and alu, .alu .or alu, .alu .xor alu, .alu .not alu,
       .alu .shl alu, .alu .lsr alu, .alu .asr alu, .divinit dacc alu, .divs dacc alu, .divend dacc]
    ops[Config.dspOperation 4 (bits w 22 6)]?
  | 5 =>
    let reg := f16 14
    let sh := bits w 0 6
    let mova : Option DspOp := match bits w 12 2 with
      | 0 => some (.mova acc .ext (bit w 11) reg)
      | 1 => some (.mova acc .hi (bit w 11) reg)
      | 2 => some (.mova acc .lo (bit w 11) reg)
      | _ => none
    if 40 < sh then none
    else match Config.dspOperation 5 (bits w 22 6) with
    | 0 => some (.clr acc)
    | 1 => mova
    | 2 => some (.lda acc reg sh)
    | 3 => some (.narrow acc reg sh)
    | 4 => some (.adda acc (Fin.ofNat 4 (bits w 18 2)))
    | 5 => some (.asra acc sh)
    | _ => none
  | 6 =>
    let a : LdStArgs :=
      { busY := bit w 26, reg := f16 22, mode := Fin.ofNat 8 (bits w 19 3), ptr := Fin.ofNat 8 (bits w 16 3),
        imm := BitVec.ofNat 16 w }
    if bits w 19 3 = 7 then none else some (if bit w 27 then .st a else .ld a)
  | 7 => some (.ldi (f16 24) (bit w 23) (BitVec.ofNat 16 w))
  | _ => none

/-- A word of P memory. -/
def Dsp.pword (d : Dsp) (a : Nat) : Nat := d.p.le (4 * a) 4

/-- A word of P memory of a reserved class, operation code, condition or field (R374; codes of log entry 62). -/
def reservedWord (w : Nat) : Bool :=
  match bits w 28 4 with
  | 0 => decide (4 ≤ Config.dspOperation 0 (bits w 22 6))
  | 1 => decide (9 < bits w 24 4)
  | 3 | 4 | 5 | 6 | 7 => (dspDecode w).isNone
  | c => decide (0xB ≤ c)

/-! ### Faults and the interrupt stack (R388, R396 to R398) -/

/-- pc stands in the body of the active LOOP. -/
def Dsp.inLoop (d : Dsp) : Bool := decide (0 < d.loopLen ∧ d.loopStart ≤ d.pc ∧ d.pc < d.loopStart + d.loopLen)

/-- Push the interrupt stack and enter a level at a handler (R388). -/
def Dsp.enter (d : Dsp) (ret level : Nat) (handler task : Nat) : Dsp :=
  let bank := if level = 7 then d.bankNo.val else (level + 2) / 3
  { d with
    stack := ⟨ret, d.sr, d.lc, d.loopStart, d.loopLen, d.task⟩ :: d.stack,
    sr := (d.sr &&& ~~~0x07C00000#32) ||| BitVec.ofNat 32 (level * 2 ^ 24 + bank * 2 ^ 22), pc := handler, loopLen := 0, task := task,
    waiting := false, cached := false, cyc := d.cyc + 3 }

/-- Pop the interrupt stack (R388): bank, sr, loop state, return address; a body is fetched into the cache again (R384). -/
def Dsp.leave (d : Dsp) : Dsp :=
  match d.stack with
  | [] => d
  | f :: t =>
    { d with
      stack := t, sr := f.sr, lc := f.lc, loopStart := f.loopStart, loopLen := f.loopLen, task := f.task, pc := f.ret,
      cached := false }

/-- A DSP halts (R394, R398): its runs in progress never complete; it counts as a fenced unit. -/
def State.dspHalt (s : State) (d : Fin 4) : State :=
  State.refresh (s.modDsp d (fun x =>
    { x with
      cond := 2, waiting := false, ovrReq := [], swi := 0,
      tasks := x.tasks.map (fun (t : TaskSt) => { t with cur := none, pend := none, dropNext := false }) }))

/-- The DSP_FAULT event (R396, R446). -/
def State.dspFaultEvent (s : State) (d : Fin 4) (fc fa ret fc2 : Nat) : State :=
  s.event 0x0601 s.dsps[d].ctx (0x10 + d.val) false
    (leBytes 1 d.val ++ leBytes 4 fc ++ leBytes 4 fa ++ leBytes 2 ret ++ leBytes 4 fc2)

/-- fcause of a fault raised now (R369): `rep`, `mb`: raised by a repeated instruction, by MOVEBLK. -/
def Dsp.fcauseOf (d : Dsp) (f : DFault) (rep mb : Bool) (task : Nat) : Nat :=
  f.cause + f.bus * 2 ^ 12 + b2n rep * 2 ^ 14 + b2n mb * 2 ^ 15 + b2n d.inLoop * 2 ^ 16 + d.level * 2 ^ 17 + task % 16 * 2 ^ 20

/-- A fault (R396, R398): fcause and faddr recorded, level 7 entered with the return address, DSP_FAULT; at level 7 a double
fault, which halts the DSP and reports both causes (log entry 71). faddr of a fault without an access is free (log entry
72). -/
def State.dspFault (s : State) (d : Fin 4) (f : DFault) (ret : Nat) (rep mb : Bool) (task : Nat) : State :=
  let (free, s) := if f.addr.isNone then s.draw else (0, s)
  let fa := (f.addr.getD free) % 2 ^ 24
  let x := s.dsps[d]
  let fc := x.fcauseOf f rep mb task
  let s := if f.cause = 5 && decide (f.bus < 3) then s.dspUe d f.bus fa else s
  let s := s.dspTrace d x.task 3 ret
  if x.level = 7 then (s.dspFaultEvent d x.fcause.toNat x.faddr.toNat ret fc).dspHalt d
  else
    let s := s.modDsp d (fun x => { x.enter ret 7 0x38 0xFF with fcause := BitVec.ofNat 32 fc, faddr := BitVec.ofNat 32 fa })
    s.dspFaultEvent d fc fa ret 0

/-! ### Executing -/

/-- Cycles pass on a DSP (R375, R393): the counter, the run of the active task, the busy counter of R609. -/
def State.dspCycles (s : State) (d : Fin 4) (n : Nat) : State :=
  let s := s.modDsp d (fun x =>
    { x with
      cyc := x.cyc + BitVec.ofNat 32 n,
      tasks := modAt (fun (t : TaskSt) => { t with cur := t.cur.map (fun (r : TaskRun) => { r with cycles := r.cycles + n }) })
        x.tasks x.task })
  s.count (320 + d.val) n

/-- The pc after an instruction of `n` words: at the end of a LOOP body the next iteration, from the cache, while iterations
remain (R383, R384). -/
def Dsp.advance (d : Dsp) (n : Nat) : Dsp :=
  let q := (d.pc + n) % 32768
  if d.inLoop && decide (d.loopStart + d.loopLen ≤ d.pc + n) then
    if 1 < d.lc.toNat then { d with pc := d.loopStart, lc := d.lc - 1, cached := true }
    else { d with pc := q, lc := 0, loopLen := 0, cached := false }
  else { d with pc := q }

/-- What the fetch of the word at pc faults with: an uncorrectable P word (R367), but for a LOOP body that runs from the cache
(R383), or a reserved word (R374). -/
def Dsp.fetchFault (d : Dsp) : Option DFault :=
  if d.pc ∈ d.badP ∧ ¬ (d.inLoop && d.cached) then some ⟨5, 0, some d.pc⟩
  else if reservedWord (d.pword d.pc) then some .illegal
  else none

/-- One instruction of a DSP: nothing while it does not run or waits; the fault of its fetch; else its effect, or its fault. -/
def State.dspStep (s : State) (d : Fin 4) (f : State → Except DFault State) : State :=
  let x := s.dsps[d]
  if !s.dspRuns d || x.waiting then s
  else
    match x.fetchFault with
    | some e => s.dspFault d e x.pc false false 0
    | none =>
      match f s with
      | .error e => s.dspFault d e x.pc false false 0
      | .ok s => s

/-- A repeatable operation as an instruction of its own. -/
def State.dspExec (s : State) (d : Fin 4) (op : DspOp) : State :=
  s.dspStep d (fun s => (s.dspOp d op).map (fun r => (r.1.dspCycles d (1 + r.2)).modDsp d (fun x => x.advance 1)))

/-- A jump of 3 cycles when taken, 1 when not (R375). `g`: the DSP with what a call saves, and the target. -/
def State.dspJump (s : State) (d : Fin 4) (cond : DspCond) (g : Dsp → Dsp × Nat) : State :=
  s.dspStep d (fun s =>
    if s.dsps[d].holds cond then
      .ok ((s.dspCycles d 3).modDsp d (fun x => let r := g x; { r.1 with pc := r.2 % 32768 }))
    else .ok ((s.dspCycles d 1).modDsp d (fun x => x.advance 1)))

/-- The count of a REP, LOOP or MOVEBLK: an immediate of 1 to 4096, or a register. -/
def Dsp.countOf (d : Dsp) : DspCount → Option Nat
  | .imm n => if 1 ≤ n ∧ n ≤ 4096 then some n else none
  | .reg r => some (d.reg r).toNat

/-- A count above 4096 where the spec gives it no effect: a free count (log entry 73). -/
def State.countFree (s : State) (n : Nat) : Nat × State :=
  if n ≤ 4096 then (n, s) else
    let (k, s) := s.draw
    (k % 4097, s)

/-- The first access of an operation is to the window (R382). -/
def State.dspWindowed (s : State) (d : Fin 4) (op : DspOp) : Bool :=
  let at_ (a : Nat) : Bool := decide (0x400000 ≤ a ∧ a < 0x800000)
  match op with
  | .ld a | .st a =>
    !a.busY && (match s.dsps[d].address a.mode.val a.ptr a.imm with
      | some (w, _) => at_ w
      | none => false)
  | .mac _ a => (a.xload.map (fun l => at_ (s.dsps[d].regs.p[l.ptr]).toNat)).getD false
  | _ => false

/-- The iterations of a REP (R381, R397): the state after those performed, and the fault that ended them with the
iterations not performed. -/
def State.dspRep (d : Fin 4) (op : DspOp) : Nat → State → State × Option (DFault × Nat)
  | 0, s => (s, none)
  | n + 1, s =>
    if s.dspWindowed d op then (s, some (⟨2, 0, none⟩, n + 1))
    else
      match s.dspOp d op with
      | .error e => (s, some (e, n + 1))
      | .ok (s, _) => State.dspRep d op n s

/-- The words of a MOVEBLK (R385, R397). -/
def State.dspMove (d : Fin 4) (srcY dstY : Bool) (src dst : Fin 8) : Nat → State → State × Option (DFault × Nat)
  | 0, s => (s, none)
  | n + 1, s =>
    let x := s.dsps[d]
    let one : Except DFault State := do
      let p ← s.dspPlace d srcY (x.regs.p[src]).toNat
      let v ← s.dspRead d p
      let q ← s.dspPlace d dstY (x.regs.p[dst]).toNat
      let a ← (match x.modify src 1 with
        | some a => .ok a
        | none => .error .illegal)
      let b ← (match x.modify dst 1 with
        | some b => .ok b
        | none => .error .illegal)
      let s ← s.dspWrite d v q
      .ok (s.modDsp d (fun x => (x.setPtr src a).setPtr dst b))
    match one with
    | .error e => (s, some (e, n + 1))
    | .ok s => State.dspMove d srcY dstY src dst n s

/-! ### Tasks (R387, R393, R394) -/

/-- The index of the pending request of a level that starts first: an SWI is none. With both an SWI and a task pending, which
of them is free (log entry 74). -/
def State.dspPick (s : State) (d : Fin 4) (l : Nat) : Option Nat × State :=
  let x := s.dsps[d]
  let t := (x.taskList.findIdx? (fun t => decide (t.1.level = l) && t.2.requested))
  if x.swi.getLsbD l then
    match t with
    | none => (none, s)
    | some i =>
      let (n, s) := s.draw
      (if n % 2 = 1 then some i else none, s)
  else (t, s)

/-- The tier of a level (R386). -/
def dspTier (l : Nat) : Nat := if l = 0 then 0 else if l ≤ 3 then 1 else if l ≤ 6 then 2 else 3

/-- The level whose request is taken next (R386, R387): the highest tier above the current one, and in it the highest enabled
level pending. -/
def Dsp.nextLevel (d : Dsp) : Option Nat :=
  [7, 6, 5, 4, 3, 2, 1].find? (fun l =>
    d.pendingAt l && (l = 7 || d.ie.getLsbD l) && decide (dspTier d.level < dspTier l))

/-- The due conditions of a task's run: its own deadline, and the second one (R34, R42). -/
def State.taskDue1 (s : State) (r : TaskRun) : Bool :=
  decide (2 ≤ r.ticks) || (r.ticks = 1 && decide (r.lastSel < s.now)) || s.beyond r.stamp r.iv

/-- The second deadline has passed. -/
def State.taskDue2 (s : State) (r : TaskRun) : Bool :=
  decide (3 ≤ r.ticks) || (r.ticks = 2 && decide (r.lastSel < s.now)) || s.beyond r.stamp (2 * r.iv)

/-- What is kept of a task changed. -/
def State.modTask (s : State) (d : Fin 4) (i : Nat) (f : TaskSt → TaskSt) : State :=
  s.modDsp d (fun x => { x with tasks := modAt f x.tasks i })

/-- Record an overrun of a task's run (R44, R45). `again`: a second record of one run (R42). -/
def State.taskOverrunNote (s : State) (d : Fin 4) (i : Nat) (t : DspTask) (count pol cause : Nat) (alt again : Bool) : State :=
  let s := s.modOvr t.tick count (fun o =>
    { o with lastOvr := some (s.now, pol, cause), runs := if again then o.runs else o.runs + 1 })
  let s := s.modTask d i (fun x =>
    { x with
      overruns := if again then x.overruns else x.overruns + 1,
      lastOvr := BitVec.ofNat 16 (0x8001 + pol * 0x1000 + cause * 0x400 + (if alt then 0x200 else 0)) })
  let s := s.event 0x0101 s.dsps[d].ctx (0x10 + d.val) false
    (leBytes 2 t.entry ++ leBytes 4 count ++ leBytes 1 cause ++ leBytes 1 pol)
  let s := s.trace (dspUnit d) 1 0x13 d.val (leBytes 1 t.entry ++ leBytes 1 (cause * 16 + pol) ++ leBytes 2 count)
  s.dspTrace d i 2 s.dsps[d].pc

/-- The pending run of a task becomes its run in progress. -/
def TaskSt.next (t : TaskSt) : TaskSt := { t with cur := t.pend, pend := none }

/-- Remove the interrupt stack entry of an abandoned task's run (R394): what it interrupted is returned to. `task`: the one
active now, the stack: top first. -/
def Dsp.dropFrame (d : Dsp) (i : Nat) : Dsp :=
  if d.task = i then d.leave
  else
    let cut : List DspFrame → List DspFrame := fun l =>
      l.foldr (fun f (acc : List DspFrame) =>
        if f.task = i then
          match acc with
          | g :: t => g :: t
          | [] => [f]
        else f :: acc) []
    { d with stack := cut d.stack }

/-- A task's run is in overrun (R394): its policy; under FAULT the DSP halts. `cause`: 0 BUDGET, 1 DEADLINE. -/
def State.dspOverrun (s : State) (d : Fin 4) (i : Nat) (t : DspTask) (r : TaskRun) (cause : Nat) : State :=
  let pol := if t.policy = 1 ∧ r.alt then 0 else t.policy
  let s := s.taskOverrunNote d i t r.count (pol + 1) cause r.alt false
  let s := s.modTask d i (fun x => { x with cur := x.cur.map (fun (r : TaskRun) => { r with cause := some cause }) })
  let req (s : State) : State := s.modDsp d (fun x => { x with ovrReq := x.ovrReq ++ [i] })
  match pol with
  | 3 =>
    let x := s.dsps[d]
    (s.dspFaultEvent d (x.fcauseOf ⟨7, 0, none⟩ false false i) x.faddr.toNat x.pc 0).dspHalt d
  | 2 =>
    let s := (s.modOvr t.tick r.count (fun o => { o with skipped := true })).modTask d i (fun x =>
      { x with lastOvr := x.lastOvr ||| 0x100 })
    let s := s.modDsp d (fun x => if r.started then x.dropFrame i else x)
    let v := s.dsps[d].sr
    let fl := (if v.getLsbD 6 then 0x20 else 0) + (if v.getLsbD 7 then 0x10 else 0)
    let s := s.modTask d i (fun x => { x.next with numFlags := if r.started then BitVec.ofNat 16 fl else x.numFlags })
    req (s.audDone t.entry r.count false true)
  | 1 => (req (s.modTask d i (fun x => { x with atAlt := true }))).refresh
  | _ =>
    match s.dsps[d].tasks[i]?.bind (·.pend) with
    | some p =>
      let s := s.modOvr t.tick p.count (fun o => { o with skipped := true })
      req (s.modTask d i (fun x => { x with pend := none }))
    | none => req (s.modTask d i (fun x => { x with dropNext := true }))

/-- A task's run completes at the RTI of its handler (R370, R393): its numeric flags, which RTI clears, its output blocks, the streams it feeds,
and the next run. -/
def State.taskDone (s : State) (d : Fin 4) (i : Nat) (t : DspTask) (r : TaskRun) : State :=
  let v := s.dsps[d].sr
  let fl := (if v.getLsbD 6 then 0x20 else 0) + (if v.getLsbD 7 then 0x10 else 0)
  let s := s.modTask d i (fun x =>
    { x.next with numFlags := BitVec.ofNat 16 fl, lastSeq := BitVec.ofNat 32 r.count })
  let s := s.bufferStreams t.entry r.count r.stamp
  s.audDone t.entry r.count true false

end Sys2Proof.Machine
end

