-- ==== Sys2Proof/Machine/Imaging.lean ====
section
/-! DEFINITION. The meanings of the imaging front end and of video output (chapter 8, R433). -/

namespace Sys2Proof.Machine

/-! ### CSI-2 packets -/

/-- A receiver whose PHY is on and whose reach is powered. -/
def State.rxOn (s : State) (n : Fin 2) : Bool := s.on 4 && decide (s.img.rx[n].cfg.phy ≠ 0)

/-- A high-speed burst arrives (R322). -/
def State.burst (s : State) (n : Fin 2) : State := s.modRx n (fun x => { x with lock := true, lastBurst := s.now })

/-- A packet of a receiver's virtual channel is taken while the device runs (R285, R291); the burst sets lock in any case.
`corr`: its header had a single-bit error (R286), which is the
packet's first condition; that of a Frame Start counts with the frame it begins. -/
def State.packet (s : State) (n : Fin 2) (vc : BitVec 4) (corr start : Bool) (f : State → State) : State :=
  if !s.rxOn n then s else
  let s := s.burst n
  if s.active && decide (vc.toNat = s.img.rx[n].cfg.vc) then
    let s := if corr && !start then s.rxErr n 0 true else s
    let s := f s
    if corr && start then s.rxErr n 0 true else s
  else s

/-- A Frame Start (R286, R287, R295, R303, R313): any frame before it ends at the row reached; tables and black levels
committed take effect. -/
def State.frameStart (s : State) (n : Fin 2) : State :=
  let s := if s.img.rx[n].inFrame then s.cutFrame n else s
  let s := s.modRx n (fun x =>
    { x with
      frame := if x.seen then x.frame + 1 else 0, seen := true, inFrame := true, ended := false, row := 0,
      sof := s.dev.systime, prep := [], cleaned := [], bins := [], zones := [], sat := 0, histRows := 0, errSeen := false,
      firstEnd := none, gen := none, cut := [], tables := x.tablesNext.getD x.tables, tablesNext := none,
      black := x.blackNext.getD x.black, blackNext := none })
  let rec0 : FrameRec :=
    { frame := s.img.rx[n].frame.toNat,
      refSeq := (s.img.refTicks.head?.map (fun t => t.1 % 2 ^ 32)).getD 0xFFFFFFFF,
      refTime := if s.img.refSeen then s.img.ref.toNat else 0, sof := s.now, lastTime := none, short := false, long := false,
      good := 0, replaced := 0, trigLate := s.img.trigLate[n],
      gens := s.adapters.map (fun a => (a.cargo, a.generation)) }
  { s with
    img := { s.img with
      frames := vmod s.img.frames n (fun (l : List FrameRec) => rec0 :: l.take 63), trigLate := vset s.img.trigLate n false } }

/-- CSI_FRAME_START (R286). -/
def execCsiFrameStart (rx : Fin 2) (vc : BitVec 4) (corrected : Bool) (s : State) : Host.Outcome State Fault Refusal :=
  .next (s.packet rx vc corrected true (fun s => s.frameStart rx)).settleStop

/-- CSI_FRAME_END (R286, R287, R289): an early one starts the generation of the rows that remain. -/
def execCsiFrameEnd (rx : Fin 2) (vc : BitVec 4) (corrected : Bool) (s : State) : Host.Outcome State Fault Refusal :=
  .next (s.packet rx vc corrected false (fun s =>
    let x := s.img.rx[rx]
    if !x.inFrame || x.ended then s
    else if x.cfg.height ≤ x.row then s.endFrame rx
    else
      let s := (s.modFrame rx (fun f => { f with short := true })).rxErr rx 4 true
      let last := (x.firstEnd.map (fun _ => x.lastEnd.2)).getD x.sof.toNat
      (s.measure rx).modRx rx (fun x => { x with ended := true, gen := some (last * 1000 + x.cfg.linePs) })))

/-- CSI_LINE_MARKER (R285, R286): ignored, but for its header's correction. -/
def execCsiLineMarker (rx : Fin 2) (hdr : CsiHeader) (s : State) : Host.Outcome State Fault Refusal :=
  .next (s.packet rx hdr.vc hdr.corrected false (fun s => s))

/-- CSI_EMBEDDED_DATA (R285, R286): discarded, but for its header's correction. -/
def execCsiEmbeddedData (rx : Fin 2) (hdr : CsiHeader) (s : State) : Host.Outcome State Fault Refusal :=
  .next (s.packet rx hdr.vc hdr.corrected false (fun s => s))

/-- A long packet of the configured channel (R286). -/
def State.longPacket (s : State) (n : Fin 2) (dt : Byte) (crcOk : Bool) (pixels : List W16) : State :=
  let x := s.img.rx[n]
  if dt.toNat ≠ x.cfg.dt then s.rxErr n 3 true
  else if !x.inFrame || x.ended then s
  else if x.cfg.height ≤ x.row then (s.modFrame n (fun f => { f with long := true })).rxErr n 5 true
  else
    let s := s.rowEnd n
    if !crcOk || pixels.length ≠ x.cfg.width then
      (((s.modRx n (fun x => { x with crcCnt := x.crcCnt + 1 })).rxErr n 2 true).replaceRow n false)
    else s.receivedRow n (pixels.map (fun p => p.toNat % 2 ^ rawBits x.cfg.dt))

/-- CSI_LONG_PACKET (R286, R292 to R300). -/
def execCsiLongPacket (rx : Fin 2) (vc : BitVec 4) (dt : Byte) (corrected crcOk : Bool) (pixels : List W16) (s : State) :
    Host.Outcome State Fault Refusal :=
  .next (s.packet rx vc corrected false (fun s => s.longPacket rx dt crcOk pixels)).settleStop

/-- HEADER_UNCORRECTABLE_ERROR (R286): the packet is discarded; a row it carried is missing. -/
def execHeaderUncorrectableError (rx : Fin 2) (carriedRow : Bool) (s : State) : Host.Outcome State Fault Refusal :=
  .next (if !s.rxOn rx then s else
    let s := s.burst rx
    if !s.active then s else
    let s := s.rxErr rx 1 true
    let x := s.img.rx[rx]
    if carriedRow && x.inFrame && !x.ended && decide (x.row < x.cfg.height) then
      ((s.rowEnd rx).replaceRow rx false).settleStop
    else s)

/-- GENERATED_ROW (R287): after an early Frame End, the next row at its time. -/
def execGeneratedRow (rx : Fin 2) (s : State) : Host.Outcome State Fault Refusal :=
  .next (match s.img.rx[rx].gen with
    | some t =>
      if ¬ (s.rxOn rx ∧ s.active ∧ t ≤ s.now * 1000) then s
      else
        let s := s.replaceRow rx true
        let x := s.img.rx[rx]
        let s := if x.cfg.height ≤ x.row then s.endFrame rx
          else s.modRx rx (fun x => { x with gen := some (t + x.cfg.linePs) })
        s.settleStop
    | none => s)

/-- Write what a cluster's holding buffer holds, oldest first, while its slot is free; at most `k` rows. Each tick is raised when
the rows it follows are written (R299). Rows of a cluster in reset are discarded (R300). -/
def State.writeHeld (n : Fin 2) (c : Fin 4) : Nat → State → State
  | 0, s => s
  | k + 1, s =>
    let x := s.img.rx[n]
    match x.held.find? (fun h => h.c = c) with
    | none => s
    | some h =>
      let drop (s : State) : State := s.modRx n (fun x => { x with held := x.held.erase h })
      let free (s : State) : State := State.freeTicks n s.img.rx[n].heldTicks.length s
      if !s.clusterUp c then State.writeHeld n c k (free ((drop s).rxErr n 6 false))
      else if s.slotHeld n c (h.row / s.rowsPer n % x.cfg.slots) then s
      else
        State.writeHeld n c k
          (free (h.writes.foldl (fun (s : State) (p : Nat × List Byte) => s.clWrite c p.1 p.2) (drop s)))

/-- HELD_BANDS_WRITE (R299, R300): a slot of cluster c has been freed, or its partition is in reset. -/
def execHeldBandsWrite (rx : Fin 2) (c : Fin 4) (s : State) : Host.Outcome State Fault Refusal :=
  .next (if !s.rxOn rx then s else
    let s := State.writeHeld rx c s.img.rx[rx].held.length s
    (State.freeTicks rx s.img.rx[rx].heldTicks.length s).settleStop)

/-- RX_LOCK_LOSS (R322): no burst for LINES × t_line. -/
def execRxLockLoss (rx : Fin 2) (s : State) : Host.Outcome State Fault Refusal :=
  let x := s.img.rx[rx]
  .next (if s.rxOn rx && x.lock && decide (x.lastBurst * 1000 + x.cfg.lines * x.cfg.linePs ≤ s.now * 1000) then
    s.modRx rx (fun x => { x with lock := false })
  else s)

/-! ### Triggers -/

/-- TRIGGER_ASSERT (R302): SENS_TRIGm goes active. -/
def execTriggerAssert (m : Fin 2) (s : State) : Host.Outcome State Fault Refusal :=
  let t := s.img.trig[m]
  .next (if s.on 4 && !t.active && (t.pulses.head?.map (fun p => decide (p.1 ≤ s.now))).getD false then
    { s with img := { s.img with trig := vset s.img.trig m { t with active := true } } }
  else s)

/-- TRIGGER_DEASSERT (R302): SENS_TRIGm returns. -/
def execTriggerDeassert (m : Fin 2) (s : State) : Host.Outcome State Fault Refusal :=
  let t := s.img.trig[m]
  .next (if t.active && (t.pulses.head?.map (fun p => decide (p.2 ≤ s.now))).getD false then
    { s with img := { s.img with trig := vset s.img.trig m ⟨false, t.pulses.drop 1⟩ } }
  else s)

/-! ### Video output -/

/-- A transmitter sets a bit of IMG_TX_ERR. -/
def State.txErr (s : State) (n : Fin 2) (i : Nat) : State :=
  State.irqSync (s.modTx n (fun t => { t with err := t.err ||| (1#2 <<< i) }))

/-- The frame is not delivered on PCIe (R311, R453). -/
def State.noBuffer (s : State) (n : Fin 2) (f : Nat) : State :=
  ((s.modTx n (fun t => { t with buf := none })).txErr n 1).event 0x0403 0 (0x10 + n.val) false (leBytes 1 n.val ++ leBytes 4 f)

/-- The host buffer that a transmitter wants is taken from its ring (R311). -/
def State.txTake (s : State) (n : Fin 2) : State :=
  let t := s.img.tx[n]
  match t.buf with
  | some .wanted =>
    let r := bits t.cfg.pcie 0 9
    match s.takeBuffer r with
    | (s, some (i, tag, a, len)) => s.modTx n (fun t => { t with buf := some (.taken r i tag a len 0) })
    | (s, none) => s.noBuffer n (t.inFrame.getD 0)
  | _ => s

/-- The 64-byte metadata of a frame that ends with output row-group t (R313 to R315). -/
def State.frameMeta (s : State) (n : Fin 2) (t : TxGroup) : List Byte :=
  let x := s.img.tx[n]
  let rx : Fin 2 := Fin.ofNat 2 (x.cfg.src - 1)
  let e := s.sched.tt.bind (fun tt => tt.entries.find? (fun e => e.id = x.cfg.entry))
  let lo := (x.winEnd.map (· + 1)).getD 0
  let hi := t.tick + (s.txDelay s.sched.tt x.cfg.entry).getD 2 - 2
  let win := (e.map (fun e => s.ovrWindow e.source lo hi)).getD []
  let blank : FrameRec := ⟨t.frame, 0xFFFFFFFF, 0, 0, none, false, false, 0, 0, false, []⟩
  let f := (s.img.frames[rx].find? (fun f => f.frame = t.frame)).getD blank
  let repair := min 65535 (win.map (·.repair)).sum
  let kv := win.foldl (fun m o => min m o.kv) 16
  let flags := b2n (win.any (fun o => o.degraded || o.r31)) + 2 * b2n (decide (kv < 16)) + 4 * b2n f.short +
    8 * b2n f.long + 16 * b2n (decide (0 < f.replaced)) + 32 * b2n (decide (0 < repair)) + 64 * b2n x.subst +
    128 * b2n (win.any (·.unlocked)) + 256 * b2n f.trigLate + 512 * b2n (win.any (·.partReset))
  let lastGroup := if t.rows = 0 then t.group - 1 else t.group
  let user := if s.clusterUp 0 then s.clRead 0 (txSlot x.cfg 0 (lastGroup % 3) + 16) 16 else zeros 16
  let i3c := if f.refSeq = 0xFFFFFFFF then 0 else (s.img.i3cDone.filter (fun q => q = f.refSeq)).length
  let gen := (e.bind (fun e => assoc f.gens e.cargo)).getD 0
  leBytes 4 t.frame ++ leBytes 4 f.refSeq ++ leBytes 8 f.refTime ++ leBytes 8 f.sof ++ leBytes 8 (f.lastTime.getD 0) ++
    leBytes 2 flags ++ leBytes 2 (overrunWord win) ++ leBytes 2 f.good ++ leBytes 2 f.replaced ++ leBytes 2 repair ++
    leBytes 1 kv ++ leBytes 1 i3c ++ leBytes 4 gen ++ user

/-- A Frame Start leaves (R309): frame f is in progress. -/
def Tx.open (t : Tx) (f : Nat) : Tx := { t.send 0x00 (leBytes 2 (f % 65535 + 1)) with inFrame := some f }

/-- The frame whose last output row-group is t ends (R309, R311, R315): embedded data, Frame End, completion; the next frame's
Frame Start follows at once. -/
def State.txFinish (s : State) (n : Fin 2) (t : TxGroup) : State :=
  let info := s.frameMeta n t
  let buf := s.img.tx[n].buf
  let hi := t.tick + (s.txDelay s.sched.tt s.img.tx[n].cfg.entry).getD 2 - 2
  let s := s.modTx n (fun x =>
    { (x.send 0x12 info).close.open ((t.frame + 1) % 0x100000000) with ahead := true, winEnd := some hi })
  match buf with
  | some (.taken r i tag _ len n) => s.complete r 2 (if len < n then 3 else 0) i tag (min len n) info
  | _ => s

/-- The slot a band's rows of group t are sent from (R306, R308): its own where ready, else that of the last row-group emitted
for the band while still declared for it, else none. -/
def State.txSource (s : State) (n : Fin 2) (t : TxGroup) (b : Nat) : Option (Nat × Nat) :=
  let x := s.img.tx[n]
  let has (k j : Nat) : Bool := x.ready.any (fun y => decide (y = (b, k, t.frame % 2 ^ 32, j % 65536)))
  if !s.clusterUp (Fin.ofNat 4 (b / 4)) then none
  else if has (t.group % 3) t.group then some (t.group % 3, t.group)
  else
    match x.lastSent.find? (fun y => y.1 = b) with
    | some (_, j, k) => if has k j then some (k, j) else none
    | none => none

/-- A frame begins on a transmitter (R309, R311), its Frame Start sent before or now. -/
def State.txFrame (s : State) (n : Fin 2) (f : Nat) : State :=
  let s := s.modTx n (fun x => { (if x.inFrame = some f then x else x.close.open f) with ahead := false })
  let p := s.img.tx[n].cfg.pcie
  if !bit p 15 then s
  else
    let r := bits p 0 9
    let s := State.dropBad r (s.ringLeft r) s
    if (s.ringHead r).isSome then s.modTx n (fun x => { x with buf := some .wanted }) else s.noBuffer n f

/-- Row-group t begins on a transmitter whose frame it belongs to (R307, R308). -/
def State.txGroup (s : State) (n : Fin 2) (t : TxGroup) : State :=
  let src := (List.range (if t.rows = 0 then 0 else 16)).map (fun b => (b, s.txSource n t b))
  let bad := src.any (fun x => decide (x.2 ≠ some (t.group % 3, t.group)))
  let s := s.modTx n (fun x =>
    { x with
      cur := if t.rows = 0 then none else some t, row := 0, bandSlot := src.map (fun y => y.2.map (·.1)),
      subst := x.subst || bad,
      lastSent := src.foldl
        (fun l y => match y.2 with
          | some (k, j) => (y.1, j, k) :: l.filter (fun z => z.1 ≠ y.1) ++ (l.filter (fun z => z.1 = y.1)).take 1
          | none => l) x.lastSent })
  let s := if bad then s.txErr n 0 else s
  if t.rows = 0 && t.last then s.txFinish n t else s

/-- OUTPUT_ROW_GROUP_EMISSION (R307, R308, R312): the next output row-group begins at E_j. -/
def execOutputRowGroupEmission (tx : Fin 2) (s : State) : Host.Outcome State Fault Refusal :=
  .next (match s.img.tx[tx].groups with
    | t :: rest =>
      if !s.on 4 || decide (s.now * 1000 < t.start) || s.img.tx[tx].cur.isSome then s
      else
        let s := s.modTx tx (fun x => { x with groups := rest })
        if !s.active then s
        else if s.img.tx[tx].inFrame = some t.frame ∧ s.img.tx[tx].ahead = false then s.txGroup tx t
        else if t.group = 0 then (s.txFrame tx t.frame).txGroup tx t
        else s
    | [] => s)

/-- The bytes of row i of the group in emission (R306, R308). -/
def State.txRow (s : State) (n : Fin 2) (i : Nat) : List Byte :=
  let x := s.img.tx[n]
  x.bandSlot.zipIdx.flatMap (fun (p : Option Nat × Nat) =>
    let b := p.2
    let w := (if b < 15 then x.cfg.band else x.cfg.width - 15 * x.cfg.band) * txBits x.cfg.dt / 8
    let c : Fin 4 := Fin.ofNat 4 (b / 4)
    match p.1 with
    | some k => if s.clusterUp c then s.clRead c (txSlot x.cfg b k + 64 + i * txStride x.cfg) w else zeros w
    | none => zeros w)

/-- A row goes to the host buffer of its frame (R311, R444). -/
def State.txHost (s : State) (n : Fin 2) (row : List Byte) : State :=
  match s.img.tx[n].buf with
  | some (.taken r i tag a len k) =>
    (s.hostWrite (a + k) (row.take (len - k))).modTx n (fun x => { x with buf := some (.taken r i tag a len (k + row.length)) })
  | _ => s

/-- TX_ROW_READ (R307, R309, R311): the next row of the group in emission, at its time. -/
def execTxRowRead (tx : Fin 2) (s : State) : Host.Outcome State Fault Refusal :=
  .next (match s.img.tx[tx].cur with
    | some t =>
      let x := s.img.tx[tx]
      if !s.on 4 || !s.active || decide (s.now * 1000 < t.start + x.row * t.iv / x.cfg.group) then s
      else
        let row := s.txRow tx x.row
        let s := (s.txTake tx).txHost tx row
        let more := decide (x.row + 1 < t.rows)
        let s := s.modTx tx (fun y => { y.send x.cfg.dt row with row := x.row + 1, cur := if more then some t else none })
        if !more && t.last then s.txFinish tx t else s
    | none => s)

/-- TX_STOP (R11, R312): outside RUNNING and DEGRADED the transmitter ends what it sends. -/
def execTxStop (tx : Fin 2) (s : State) : Host.Outcome State Fault Refusal :=
  .next (if s.active then s else s.txHalt tx)

/-! ### I3C -/

/-- The kinds of transfer whose reply carries data (R433). -/
def i3cReads (kind : Nat) : Bool := decide (kind ∈ [1, 3, 5, 8, 9])

/-- IMG_I3C_XFER (R320, R433). -/
def execImgI3cXfer (m : Fin 8) (s : State) : Host.Outcome State Fault Refusal :=
  .next (s.withTaken m 0x0501 (fun t =>
    let p := t.payload
    let n : Fin 2 := Fin.ofNat 2 (field p 0 1)
    let (kind, addr, ref, delay, len) := (field p 1 1, field p 2 1, field p 4 4, field p 8 4, field p 12 2)
    let src := (List.finRange 16).find? (fun k => s.sched.src[k].kind = 3)
    let passed := match src with
      | some k =>
        let d := wrapN 32 ((s.sched.src[k].next.toNat : Int) - ref)
        decide (0 < d ∧ d ≤ 2 ^ 31) && s.sched.src[k].last.isSome
      | none => false
    let cancelled := ok (leBytes 1 4 ++ zeros 15)
    match [(decide (1 < field p 0 1), err 0x8006 (some 0)), (decide (9 < kind), err 0x8006 (some 1)),
        (decide (127 < addr), err 0x8006 (some 2)), (decide (1000000 < delay), err 0x8006 (some 8)),
        (decide (256 < len), err 0x8006 (some 12)), (decide (field p 14 2 ≠ 0), err 0x8006 (some 14)),
        (decide (ref ≠ 0xFFFFFFFF) && passed, err 0x8205), (decide (16 ≤ s.img.i3c[n].length), err 0x8206)].find? (fun x => x.1) with
    | some x => s.reply m x.2
    | none =>
      if !s.on 4 then s.reply m cancelled
      else
        let x : I3cXfer :=
          { mbox := m, kind := kind, addr := addr, ccc := field p 3 1, refSeq := ref, delay := delay, len := len,
            data := p.drop 16, due := if ref = 0xFFFFFFFF then some s.now else none, started := none }
        State.fly { s with img := { s.img with i3c := vmod s.img.i3c n (fun (q : List I3cXfer) => q ++ [x]) } } m 0 [n.val] []))

/-- I3C_TRANSFER_START (R320): the transfer at the head of a controller's queue starts at its time. -/
def execI3cTransferStart (n : Fin 2) (s : State) : Host.Outcome State Fault Refusal :=
  .next (match s.img.i3c[n] with
    | x :: rest =>
      if s.on 4 && x.started.isNone && (x.due.map (fun t => decide (t ≤ s.now))).getD false then
        { s with img := { s.img with i3c := vset s.img.i3c n ({ x with started := some s.now } :: rest) } }
      else s
    | [] => s)

/-- I3C_TRANSFER_DONE (R320, R433): the transfer on the bus ends with its result, and its command completes. -/
def execI3cTransferDone (n : Fin 2) (result : Byte) (done : W16) (data : List Byte) (s : State) :
    Host.Outcome State Fault Refusal :=
  .next (match s.img.i3c[n] with
    | x :: rest =>
      match x.started with
      | some t0 =>
        if ¬ (s.on 4 ∧ result.toNat ≤ 3) then s
        else
          let s := { s with
            img := { s.img with
              i3c := vset s.img.i3c n rest,
              i3cDone := if x.refSeq ≠ 0xFFFFFFFF ∧ result = 0 then x.refSeq :: s.img.i3cDone.take 255 else s.img.i3cDone } }
          s.replyFor x.mbox 0x0501 (ok (leBytes 1 result.toNat ++ [0] ++ leBytes 2 done.toNat ++ zeros 4 ++ leBytes 8 t0 ++
            (if i3cReads x.kind then data.take (if x.kind = 9 then 4064 else x.len) else [])))
      | none => s
    | [] => s)

/-- I3C_IBI (R321): an in-band interrupt with at most 8 data bytes. -/
def execI3cIbi (n : Fin 2) (addr : Byte) (data : List Byte) (s : State) : Host.Outcome State Fault Refusal :=
  .next (if s.on 4 && decide (data.length ≤ 8) then
    s.event 0x0404 0 (0x10 + n.val) false (leBytes 1 n.val ++ [addr] ++ leBytes 1 data.length ++ padTo 8 data)
  else s)

/-- I3C_HOTJOIN (R321). -/
def execI3cHotjoin (n : Fin 2) (s : State) : Host.Outcome State Fault Refusal :=
  .next (if s.on 4 then s.event 0x0405 0 (0x10 + n.val) false (leBytes 1 n.val) else s)

/-- IMG_REF_TIME_LO_READ (R322): the read latches IMG_REF_TIME_HI. -/
def execImgRefTimeLoRead (s : State) : Host.Outcome State Fault Refusal :=
  .next (if s.on 4 then { s with img := { s.img with refLatch := (s.img.ref >>> 32).setWidth 32 } } else s)

end Sys2Proof.Machine
end

