-- ==== Sys2Proof/Machine/Health.lean ====
section
/-! DEFINITION. The meanings of detected errors, self-tests, partition resets and the event log's summaries (R220, R548 to R554,
R563 to R577). -/

namespace Sys2Proof.Machine

/-! ### Detected errors -/

/-- An SRAM_UE event (R578) and the test that follows it. -/
def State.sramEvent (s : State) (place code who off : Nat) (u : TestUnit) : State :=
  (s.event 0x0A01 0 place true (leBytes 1 code ++ leBytes 1 who ++ leBytes 4 off)).queueTest u 0x0A01 none

/-- The row of cluster memory of an offset, numbered by its bank (R247): 256 rows of 4 KiB a bank. -/
def clusterRowOf (off : Nat) : Nat := off / 64 % 16 * 256 + off / 65536

/-- A transmitter's read of a slot fails (R308, R548): the bands sent from it have no slot ready for the row-group. -/
def State.txUe (s : State) (n : Fin 2) (c : Fin 4) (off : Nat) : State :=
  let x := s.img.tx[n]
  match x.cur with
  | none => s
  | some t =>
    let hit (b : Nat) : Bool := decide (b / 4 = c.val) && (match x.bandSlot.getD b none with
      | some k => inRange (txSlot x.cfg b k) (64 + x.cfg.group * txStride x.cfg) off
      | none => false)
    let bands := (List.range 16).filter hit
    if bands.isEmpty then s else
    let one (s : State) (b : Nat) : State :=
      let k := ((s.img.tx[n].bandSlot.getD b none).getD 0)
      let s := s.modTx n (fun y =>
        { y with ready := y.ready.filter (fun z => ¬ (z.1 = b ∧ z.2.1 = k)), lastSent := y.lastSent.eraseP (fun z => z.1 = b) })
      let old := s.txSource n t b
      s.modTx n (fun y => { y with subst := true, bandSlot := modAt (fun _ => old.map (·.1)) y.bandSlot b })
    (bands.foldl one s).txErr n 0

/-- An 8-byte granule of a share's local memory is found with an uncorrectable error (R220, R552). -/
def State.markGranule (s : State) (c i : Fin 4) (g : Nat) : State :=
  let v := s.clusters[c].lmem[i].le (8 * g) 8
  s.modCl c (fun k => { k with bad := vmod k.bad i (fun l => (g, v) :: l.filter (fun x => x.1 ≠ g)) })

/-- Offset in a source row of a barge of the first byte of a 64-byte line it meets. -/
def BDesc.rowMeets (d : BDesc) (line : Space) (row : Int) : Option Nat :=
  let meet (x l : Nat) : Option Nat := if x < l + 64 ∧ l < x + d.xBytes then some (l - x) else none
  match spaceOf row.toNat, line with
  | .clus c x, .clus c' l => if c = c' then meet x l else none
  | .loc x, .loc l => meet x l
  | _, _ => none

/-- SRAM_UE (R220, R236, R308, R367, R548): the reader stops and the unit is to be tested. A DSP memory's word carries the error
until it is read or written whole. -/
def execSramUe (unit : SramUnit) (off : W32) (reader : SramReader) (s : State) : Host.Outcome State Fault Refusal :=
  .next (
    let a := off.toNat
    let core (co : CoreId) (code bank : Nat) (mark : Run → Share → State → State) : State :=
      match s.shareOn co with
      | some (r, h) =>
        if s.clusterUp co.c then mark r h (s.sramEvent co.c.val code h.idx.val a (.core co code bank)) else s
      | none => s
    let stop (co : CoreId) (r : Run) (h : Share) (s : State) : State := (s.stopShare co r h none).settleStop
    match unit with
    | .coreMem co =>
      let a := a % 0x400000
      core co 0 (a / 64 % 16) (fun r h s =>
        let s := s.markGranule co.c h.idx (a / 8)
        match reader with
        | .barge bid =>
          match s.barge? bid with
          | some b => if b.mover = .loc co then s.bargeUe b (fun x => b.desc.rowMeets (.loc (a / 64 * 64)) x) else stop co r h s
          | none => stop co r h s
        | _ => stop co r h s)
    | .lineBuf co => core co 1 (a / 0x40000 % 8) (stop co)
    | .clusterMem c =>
      if !s.clusterUp c then s else
      let a := a % 0x1000000
      let note (who : Nat) (s : State) : State := s.sramEvent c.val 2 who a (.clusterRow c (clusterRowOf a))
      match reader with
      | .share co =>
        match s.shareOn co with
        | some (r, h) => if co.c = c then ((note h.idx.val s).stopShare co r h none).settleStop else s
        | none => s
      | .barge bid =>
        match s.barge? bid with
        | some b => (note 0xFF s).bargeUe b (fun x => b.desc.rowMeets (.clus c (a / 64 * 64)) x)
        | none => s
      | .dspWindow d =>
        if s.dspRuns d then (note d.val s).dspFault d ⟨5, 3, some (0x400000 + a / 4)⟩ s.dsps[d].pc false false s.dsps[d].task else s
      | .transmitter tx => (note 0xFF s).txUe tx c a
      | .none => note 0xFF s
    | .dspMem d =>
      if !s.on (dspReach d) then s
      else if a < 0x20000 then s.modDsp d (fun x => { x with badP := (a / 4) :: x.badP.filter (fun w => w ≠ a / 4) })
      else if a < 0x60000 then
        let w := (a - 0x20000) / 4
        s.modDsp d (fun x => { x with badX := w :: x.badX.filter (fun v => v ≠ w) })
      else if a < 0xA0000 then
        let w := (a - 0x60000) / 4
        s.modDsp d (fun x => { x with badY := w :: x.badY.filter (fun v => v ≠ w) })
      else s)

/-- The block number that stands for a whole memory of a DSP (0 P, 1 X, 2 Y). -/
def wholeMemory (mem : Nat) : Nat := 2048 * mem + 2047

/-- The share a core's memory belongs to at present, as its events name it (R3, R578): the one it holds, else the lowest one at
home there, else none (log entry 102). -/
def State.shareAt (s : State) (co : CoreId) : Nat :=
  match s.clusters[co.c].cores[co.k].cur with
  | some (_, i) => i.val
  | none =>
    match (List.finRange 4).find? (fun i => decide (s.clusters[co.c].home i = some co.k)) with
    | some i => i.val
    | none => 0xFF

/-- SRAM_CE_LIMIT (R220, R367, R550): a bank corrects an error, which it counts; the one that makes HEALTH_SRAM_CE_LIMIT of them
within 1 s is reported, and the bank is to be tested (log entry 102). -/
def execSramCeLimit (unit : SramUnit) (bank : Byte) (s : State) : Host.Outcome State Fault Refusal :=
  .next (
    let b := bank.toNat
    let note (place code who : Nat) (u : TestUnit) (more : State → State) : State :=
      let l := s.now :: ((assoc s.health.sramCe (unit, b)).getD []).filter (fun t => s.now < t + 1000000000)
      if s.key .healthCeLimit ≤ l.length then
        let s : State := { s with health := { s.health with sramCe := assocDel s.health.sramCe (unit, b) } }
        more ((s.event 0x0A02 0 place true (leBytes 1 code ++ leBytes 1 who ++ [bank])).queueTest u 0x0A02 none)
      else { s with health := { s.health with sramCe := assocSet s.health.sramCe (unit, b) l } }
    match unit with
    | .coreMem co =>
      if s.clusterUp co.c && decide (b < 16) then note co.c.val 0 (s.shareAt co) (.core co 0 b) (fun s => s) else s
    | .lineBuf co =>
      if s.clusterUp co.c && decide (b < 8) then note co.c.val 1 (s.shareAt co) (.core co 1 b) (fun s => s) else s
    | .clusterMem c =>
      if s.clusterUp c && decide (b < 16) then note c.val 2 0xFF (.clusterBank c b) (fun s => s) else s
    | .dspMem d =>
      if s.on (dspReach d) && decide (b < 3) then note (0x10 + d.val) 4 d.val (.dspBlock d (wholeMemory b)) (fun s => s.dspTests d)
      else s)

/-- The unit that an engine's test names (R548). -/
def engineUnit (co : CoreId) : EngineKind → TestUnit
  | .matrix => .array co
  | e => .engine co e

/-- The operation an engine has in progress, as its number and its status word (R568); the vector engine has no status word of
its own (log entry 100). -/
def State.engineBusy (s : State) (r : Run) (h : Share) : EngineKind → Option (Nat × Nat)
  | .matrix => if h.ops.any (fun o => o.kind = .matrix) then some (0, s.engineWord r h .matrix h.words.1) else none
  | .stripe => if h.ops.any (fun o => o.kind = .stripe) then some (1, s.engineWord r h .stripe h.words.2.1) else none
  | .attention => if h.ops.any (fun o => o.kind = .attn) then some (2, s.engineWord r h .attn h.words.2.2) else none
  | .vector => if h.st = .running then some (3, Config.freeNat s.fresh) else none

/-- ENGINE_TIMEOUT (R549). -/
def execEngineTimeout (co : CoreId) (engine : EngineKind) (s : State) : Host.Outcome State Fault Refusal :=
  .next (match s.shareOn co with
    | some (r, h) =>
      match s.engineBusy r h engine with
      | some (n, w) =>
        if !s.clusterUp co.c then s else
        let s : State := { s with fresh := s.fresh + 1 }
        let s := s.event 0x0A03 0 co.c.val true (leBytes 1 h.idx.val ++ leBytes 1 n ++ leBytes 4 w ++ leBytes 2 r.entry.id)
        ((s.queueTest (engineUnit co engine) 0x0A03 none).stopShare co r h none).settleStop
      | none => s
    | none => s)

/-- KEEPER_STATE_ERROR (R548, R563): the partition resets with cause 4. -/
def execKeeperStateError (c : Fin 4) (s : State) : Host.Outcome State Fault Refusal :=
  .next (if s.on (clusterReach c) then (s.partitionStop c 4 0xFFFF 0 none).settleStop else s)

/-! ### Self-tests -/

/-- The units of a core (R552). -/
def coreUnits (co : CoreId) : List TestUnit :=
  (List.range 16).map (fun b => .core co 0 b) ++ (List.range 8).map (fun b => .core co 1 b) ++
    [.array co, .engine co .vector, .engine co .stripe, .engine co .attention]

/-- The units that a HEALTH_SELFTEST of kind 0, 1 or 3 names (R575). -/
def State.hostUnits (s : State) (kind : Nat) (i : Fin 4) : List TestUnit :=
  match kind with
  | 0 => (List.finRange 4).flatMap (fun k => if s.clusters[i].cores[k].usable then coreUnits ⟨i, k⟩ else [])
  | 1 => (List.range 16).map (fun b => .clusterBank i b)
  | _ => (List.range 3).map (fun m => .dspBlock i (wholeMemory m))

/-- The reply of a HEALTH_SELFTEST (R575). -/
def HostTest.reply (h : HostTest) (left : Nat) : Reply :=
  ok (leBytes 1 h.tested ++ leBytes 1 h.passed ++ leBytes 1 h.repaired ++ leBytes 1 h.fenced ++ leBytes 2 left ++ zeros 2)

/-- Tests asked for by the host start at once where no tick will come: no entry of the running timetable runs on the cluster
(log entry 101). -/
def State.testNow (s : State) (c : Fin 4) : State :=
  if s.fed c || !s.fwUp then s else s.testTick c false

/-- HEALTH_SELFTEST (R551, R552, R575). -/
def execHealthSelftest (m : Fin 8) (s : State) : Host.Outcome State Fault Refusal :=
  .next (s.withTaken m 0x0901 (fun t =>
    let p := t.payload
    let kind := field p 0 1
    let inst := field p 1 1
    let i : Fin 4 := Fin.ofNat 4 inst
    let addr := field p 8 8
    let inPart := match spaceOf addr with
      | .dram q _ => decide (q = i)
      | _ => false
    let range := if kind = 2 then some (rowRange addr) else none
    match firstErr
        [(decide (3 < kind), err 0x8006 (some 0)), (decide (3 < inst), err 0x8006 (some 1)),
         (decide (field p 2 6 ≠ 0), err 0x8006 (some 2)), (if kind = 2 then !inPart else decide (addr ≠ 0), err 0x8006 (some 8)),
         (decide (kind ≠ 3) && s.clusters[i].reset.isSome, err 0x8C02),
         (decide (kind ≠ 3) && !s.on (clusterReach i), err 0x8407),
         (decide (kind = 3) && decide (s.dsps[i].cond = 1), err 0x8801),
         (s.health.host.any (fun h => h.kind = kind && h.instance_ = inst && h.range = range), err 0x8C01)] with
    | some r => s.reply m r
    | none =>
      let us := if kind = 2 then [] else s.hostUnits kind i
      let h : HostTest :=
        { mbox := m, kind := kind, instance_ := inst, left := us.length, tested := 0, passed := 0, repaired := 0, fenced := 0,
          range := range }
      if kind ≠ 2 ∧ us.isEmpty then s.reply m (h.reply 0)
      else
        let s := s.fly m 0x0901 [] []
        let s : State := { s with health := { s.health with host := h :: s.health.host } }
        match range with
        | some b => s.queueRange i b
        | none =>
          let s := us.foldl (fun (s : State) (u : TestUnit) =>
            let s := s.queueTest u 0 (some m)
            { s with
              health := { s.health with
                tests := s.health.tests.map (fun (t : Test) => if t.unit = u then { t with mbox := some m } else t) } }) s
          if kind = 3 then s.dspTests i else s.testNow i))

/-- A test of the host's ended with a result: it counts, and the last one replies. -/
def State.hostCount (s : State) (t : Test) (result : Nat) : State :=
  match t.mbox.bind (fun m => s.health.host.find? (fun h => h.mbox = m)) with
  | none => s
  | some h =>
    let h := { h with
      left := h.left - 1, tested := h.tested + 1, passed := h.passed + b2n (decide (result = 0)),
      repaired := h.repaired + b2n (decide (result = 1)), fenced := h.fenced + b2n (decide (result = 2)) }
    let rest := s.health.host.filter (fun x => x.mbox ≠ h.mbox)
    if h.left = 0 then
      let us := s.hostUnits h.kind (Fin.ofNat 4 h.instance_)
      State.replyFor { s with health := { s.health with host := rest } } h.mbox 0x0901 (h.reply ((us.map s.sparesLeft).sum))
    else { s with health := { s.health with host := h :: rest } }

/-- A core is out of service until PERST_L or VIN loss (R552, R553): the shares on it stop. -/
def State.fenceForGood (s : State) (co : CoreId) : State :=
  let held := s.clusters[co.c].cores[co.k]
  let s := s.modCl co.c (fun x => { x with cores := vmod x.cores co.k (fun y => { y with fenced := true, test := false }) })
  let s := (held.susp ++ held.cur.toList).foldl
    (fun (s : State) (x : Nat × Fin 4) =>
      match (s.run? x.1).bind (fun r => (r.shares.find? (fun h => h.idx = x.2)).map (fun h => (r, h))) with
      | some (r, h) => s.stopShare co r h none
      | none => s) s
  s.groupChanged.refresh

/-- A memory row or bank or a Zorud port is out of service until PERST_L or VIN loss (R447, R553). -/
def State.fenceUnit (s : State) (u : TestUnit) : State :=
  State.refresh { s with health := { s.health with fencedUnits := u :: s.health.fencedUnits.filter (fun x => x ≠ u) } }

/-- SELFTEST_DONE (R551 to R553): a repair without a spare left is a failure. -/
def execSelftestDone (tid : Nat) (outcome : TestOutcome) (us : W32) (s : State) : Host.Outcome State Fault Refusal :=
  .next (match s.health.tests.find? (fun t => t.tid = tid && t.st = .running) with
    | none => s
    | some t =>
      if !s.fwUp then s else
      let result := match outcome with
        | .pass => 0
        | .repaired => if 0 < s.sparesLeft t.unit then 1 else 2
        | .fenced => 2
      let s : State := { s with health := { s.health with tests := s.health.tests.filter (fun x => x.tid ≠ tid) } }
      let s := if result = 1 then s.useSpare t.unit else s
      let s := s.selftestEvent t result us.toNat
      let s := match t.unit with
        | .dspBlock d _ =>
          (if result = 2 then (s.modDsp d (fun x => { x with fenced := true, cond := 2 })).refresh else s).dspTests d
        | .zport p =>
          if result = 2 then s.fenceUnit t.unit
          else s.modZp p (fun z => { z with storm := false, errTimes := [], retry := s.now })
        | u =>
          match u.core? with
          | some co => if result = 2 then s.fenceForGood co else s
          | none => if result = 2 then s.fenceUnit u else s
      let s := s.hostCount t result
      let s := match t.unit.cluster with
        | some c => s.testNow c
        | none => s
      s.settleStop)

/-! ### Partition resets -/

/-- HEALTH_RESET_PARTITION (R565, R572, R576). -/
def execHealthResetPartition (m : Fin 8) (s : State) : Host.Outcome State Fault Refusal :=
  .next (s.withTaken m 0x0902 (fun t =>
    let i := field t.payload 0 1
    let c : Fin 4 := Fin.ofNat 4 i
    match firstErr
        [(decide (3 < i), err 0x8006 (some 0)), (decide (field t.payload 1 3 ≠ 0), err 0x8006 (some 1)),
         (!s.on (clusterReach c), err 0x8407)] with
    | some r => s.reply m r
    | none => ((s.fly m 0x0902 [i] []).partitionStop c 3 0xFFFF 0 (some m)).settleStop))

/-- The state with a partition's reset changed. -/
def State.modReset (s : State) (c : Fin 4) (f : ResetSt → ResetSt) : State :=
  s.modCl c (fun k => { k with reset := k.reset.map f })

/-- PARTITION_LOGBOOK (R564, R568, R572): the record gathered at the stop, and ESCALATION after one that escalated. -/
def execPartitionLogbook (p : Fin 4) (s : State) : Host.Outcome State Fault Refusal :=
  .next (match s.clusters[p].reset with
    | some r =>
      if r.phase = 0 ∧ s.fwUp then
        let s := (s.modReset p (fun r => { r with phase := 1 })).logEvent 0x0A10 0 r.book ((16 + r.book.length + 63) / 64)
        if r.escalated then s.escalationEvent else s
      else s
    | none => s)

/-- PARTITION_HW_RESET_DONE (R246, R261, R564, R567): the cluster, its keeper and its memory controllers are reset and both
channels retrained; what cluster and core memory held is lost, rings among it, while the stacks keep their progress (R139, R159);
regions that are not RETAIN are stale and their content undefined. -/
def execPartitionHwResetDone (p : Fin 4) (s : State) : Host.Outcome State Fault Refusal :=
  .next (match s.clusters[p].reset with
    | some r =>
      if r.phase = 1 ∧ s.fwUp ∧ ¬ r.escalated ∧ s.on (clusterReach p) then
        let k := s.epoch
        let s := State.modCl { s with epoch := s.epoch + 5 } p (fun x =>
          { x with
            mem := Mem.empty.junk 0 0x1000000 k, lmem := Vector.ofFn (fun i => Mem.empty.junk 0 0x400000 (k + 1 + i.val)),
            bad := Vector.replicate 4 [], saved := [], keeper := Keeper.reset, raisesIn := [], ranFirst := none,
            stripe := x.stripe.map (fun (t : StripeSt) => { StripeSt.reset with prog := t.prog }),
            cores := x.cores.map (fun (y : Core) => { y with cur := none, susp := [], eng := MatStore.reset }) })
        let s := s.modPart p (fun x =>
          { x with
            retrain := x.retrain.map (fun (r : Retrain) => { r with state := 0, last := s.now }), retrainNext := [], testDue := false,
            regions := x.regions.map (fun (g : Region) => { g with stale := g.stale || !g.retain }) })
        let s := (s.parts[p].regions.filter (fun g => !g.retain)).foldl (fun (s : State) g => s.junkDram g.base g.len) s
        s.modReset p (fun r => { r with phase := 2 })
      else s
    | none => s)

/-- PARTITION_RETURN (R246, R564, R565, R576, R605): what is restored stands again, in_reset is cleared, and those who asked
hear of it. -/
def execPartitionReturn (p : Fin 4) (s : State) : Host.Outcome State Fault Refusal :=
  .next (match s.clusters[p].reset with
    | some r =>
      if r.phase = 2 ∧ s.fwUp ∧ ¬ r.escalated ∧ s.on (clusterReach p) then
        let us := (s.now - r.start) / 1000
        let s := s.modCl p (fun k => { k with reset := none })
        let s := ((s.restoreCluster p).modPart p (fun x => { x with offSeen := false })).resumeMaint p
        let s := (s.traceMarker (clusterUnit p) 0x06 (leBytes 4 us) true).traceSync (clusterUnit p)
        let s := (s.event 0x0A07 0 p.val true (leBytes 4 us)).stateChanged.refresh
        r.waiters.foldl
          (fun (s : State) (w : Fin 8 × Bool) =>
            s.replyFor w.1 0x0902 ⟨if w.2 then 0x4120 else 0, leBytes 1 s.escCount ++ zeros 3⟩) s
      else s
    | none => s)

/-- ESCALATION_WINDOW_EXPIRY (R572): resets and restarts older than the window count no more. -/
def execEscalationWindowExpiry (s : State) : Host.Outcome State Fault Refusal :=
  .next (
    let l := s.health.begun.filter (fun t => s.now < t + s.health.escWindow * 1000000000)
    if l.length = s.health.begun.length then s
    else State.groupChanged { s with health := { s.health with begun := l } })

/-! ### The event log -/

/-- LOG_COALESCED (R571): after a write with coalesced events. -/
def execLogCoalesced (s : State) : Host.Outcome State Fault Refusal :=
  .next (match s.log.coal with
    | some (n, f, l) =>
      if s.now < s.log.busyUntil then s
      else
        State.setCause
          { s with
            log := { s.log with coal := none }.write 0x0A11 0 s.now s.now (leBytes 4 n ++ leBytes 2 f ++ leBytes 2 l) 1 } 12
    | none => s)

/-- GLB_ELW_HEAD (R459). -/
def LogSt.headWord (l : LogSt) : Nat := l.wraps.toNat * 65536 + l.offset.toNat

/-- The maintenance byte of a partition (R577). -/
def Part.maintByte (x : Part) : Nat :=
  let retrain := if x.retrain.toList.any (fun r => r.state = 1) then 1
    else if x.retrain.toList.any (fun r => r.state = 2) then 2 else 0
  b2n x.test.isSome + 4 * retrain + 16 * x.scrubState

/-- HEALTH_LOG op 0 (R577), and the ops that do not exist. -/
def execHealthLogSummary (m : Fin 8) (s : State) : Host.Outcome State Fault Refusal :=
  .next (s.answerIf m 0x0903 (fun op => decide (op ≠ 1)) (fun t =>
    s.checked [(decide (field t.payload 0 1 ≠ 0), err 0x8006 (some 0))] (fun s =>
      let fenced (k : Cluster) : Nat := (k.cores.toList.filter (fun c => c.fenced)).length
      (s, ok (leBytes 4 s.log.headWord ++ w32 s.log.records ++ w32 s.log.coalTotal ++ leBytes 1 s.escCount ++
        leBytes 1 s.health.escLimit ++ leBytes 2 s.health.escWindow ++
        s.clusters.toList.flatMap (fun (k : Cluster) => leBytes 1 (fenced k)) ++
        s.parts.toList.flatMap (fun (x : Part) => leBytes 1 x.maintByte) ++
        s.parts.toList.flatMap (fun (x : Part) => leBytes 1 (16 - x.spares.length)) ++ w32 s.health.progress ++ zeros 16)))))

/-- A line of the log (R460, R577). -/
def LogSt.line (l : LogSt) (n : Nat) : List Byte := l.mem.readBytes (64 * (n % 1024)) 64

/-- HEALTH_LOG op 1 (R577). -/
def execHealthLogLines (m : Fin 8) (s : State) : Host.Outcome State Fault Refusal :=
  .next (s.answerIf m 0x0903 (fun op => op = 1) (fun t =>
    let n := field t.payload 1 1
    let first := field t.payload 2 2
    s.checked [(decide (n < 1 ∨ 63 < n), err 0x8006 (some 1)), (decide (1023 < first), err 0x8006 (some 2))] (fun s =>
      (s, ok ((List.range n).flatMap (fun i => s.log.line (first + i)))))))

end Sys2Proof.Machine
end

