-- ==== Sys2Proof/Machine/FwOps.lean ====
section
/-! DEFINITION. The NOR die and what firmware keeps in it: boot record, rollback counter, images and their verification,
settings areas (R579 to R593). -/

namespace Sys2Proof.Machine

/-! ### The NOR die (R579, R580; log entry 7: an erased byte is 0xFF, kept complemented) -/

/-- The byte at a NOR offset. -/
def State.norByte (s : State) (a : Nat) : Byte := ~~~(s.nor.read a)

/-- The bytes from a NOR offset. -/
def State.norBytes (s : State) (a n : Nat) : List Byte := (List.range n).map (fun i => s.norByte (a + i))

/-- Erase the 64 KiB sectors that hold the `n` bytes from a sector's start. -/
def State.norErase (s : State) (a n : Nat) : State := { s with nor := s.nor.zero a ((n + 65535) / 65536 * 65536) }

/-- Program bytes. A program can only clear bits. -/
def State.norProgram (s : State) (a : Nat) (l : List Byte) : State :=
  { s with nor := s.nor.writeBytes a (l.zipIdx.map (fun (x : Byte × Nat) => ~~~(x.1 &&& s.norByte (a + x.2)))) }

/-! ### The boot record (R581) -/

/-- The fields of a boot record; 0xFF is none and free. -/
structure BootRec where
  seq : Nat
  confirmed : Nat
  trial : Nat
  tries : Nat
  valid : Nat
  owner0 : Nat
  owner1 : Nat
deriving DecidableEq, Repr

/-- A record that names nothing. -/
def BootRec.none_ : BootRec :=
  { seq := 0, confirmed := 0xFF, trial := 0xFF, tries := 0, valid := 0, owner0 := 0xFF, owner1 := 0xFF }

/-- The 16 bytes of a record. -/
def BootRec.bytes (r : BootRec) : List Byte :=
  let l := leBytes 4 r.seq ++ leBytes 1 r.confirmed ++ leBytes 1 r.trial ++ leBytes 1 r.tries ++ leBytes 1 r.valid ++
    leBytes 1 r.owner0 ++ leBytes 1 r.owner1 ++ zeros 2
  l ++ leBytes 4 (crc32c l)

/-- The record of its bytes, when its crc agrees. -/
def BootRec.ofBytes (l : List Byte) : Option BootRec :=
  if field l 12 4 = crc32c (l.take 12) then
    some { seq := field l 0 4, confirmed := field l 4 1, trial := field l 5 1, tries := field l 6 1, valid := field l 7 1,
           owner0 := field l 8 1, owner1 := field l 9 1 }
  else none

/-- The offset of a copy. -/
def bootCopy (c : Nat) : Nat := 0x10000 * c

/-- The current copy: its number and the record (R581). -/
def State.bootCurrent (s : State) : Option (Nat × BootRec) :=
  match BootRec.ofBytes (s.norBytes (bootCopy 0) 16), BootRec.ofBytes (s.norBytes (bootCopy 1) 16) with
  | some a, some b => if a.seq < b.seq then some (1, b) else some (0, a)
  | some a, none => some (0, a)
  | none, some b => some (1, b)
  | none, none => none

/-- The record in force, or one that names nothing. -/
def State.bootRec (s : State) : BootRec := (s.bootCurrent.map (·.2)).getD BootRec.none_

/-- Write the other copy with the next seq (R581); with no current copy, copy 0 with seq 1. -/
def State.writeBoot (s : State) (r : BootRec) : State :=
  let (c, seq) : Nat × Nat := match s.bootCurrent with
    | some (c, x) => (1 - c, (x.seq + 1) % 0x100000000)
    | none => (0, 1)
  (s.norErase (bootCopy c) 0x10000).norProgram (bootCopy c) { r with seq := seq }.bytes

/-- The owner of an area. -/
def BootRec.owner (r : BootRec) (a : Nat) : Nat := if a = 0 then r.owner0 else r.owner1

/-- The record with an area's owner set. -/
def BootRec.setOwner (r : BootRec) (a o : Nat) : BootRec := if a = 0 then { r with owner0 := o } else { r with owner1 := o }

/-- The record with every area of a slot freed. -/
def BootRec.freeAreas (r : BootRec) (slot : Nat) : BootRec :=
  { r with
    owner0 := if r.owner0 = slot then 0xFF else r.owner0, owner1 := if r.owner1 = slot then 0xFF else r.owner1 }

/-! ### The rollback counter (R583) -/

/-- The security floor: the bits of the counter that are 0. -/
def State.floor (s : State) : Nat :=
  ((s.norBytes 0x20000 4096).map (fun b => ((List.range 8).filter (fun i => !b.getLsbD i)).length)).sum

/-- The counter with its first n bits programmed, in ascending order. -/
def State.raiseFloor (s : State) (n : Nat) : State :=
  s.norProgram 0x20000 ((List.range (n / 8)).map (fun _ => (0 : Byte)) ++
    (if n % 8 = 0 then [] else [BitVec.ofNat 8 (256 - 2 ^ (n % 8))]))

/-! ### Images (R584, R585) -/

/-- The offset of a slot. -/
def slotBase (slot : Nat) : Nat := if slot = 0 then 0x400000 else 0xC00000

/-- An image's header in NOR. -/
def State.slotHdr (s : State) (slot : Nat) : List Byte := s.norBytes (slotBase slot) 256

/-- A slot's image. -/
def State.slotImage (s : State) (slot : Nat) : List Byte := s.norBytes (slotBase slot) (256 + field (s.slotHdr slot) 4 4)

/-- A header meets R584 and R585. -/
def hdrOk (h : List Byte) : Bool :=
  decide (field h 0 2 = 1 ∧ field h 2 2 = 256 ∧ field h 4 4 % 64 = 0 ∧ 256 + field h 4 4 ≤ 0x400000 ∧ field h 12 2 ≤ 32767 ∧
    field h 14 2 ≤ 1 ∧ field h 18 2 ≤ field h 16 2) && allZero ((h.drop 22).take 10) && allZero ((h.drop 176).take 80)

/-- Why a slot fails verification (R585), as SLOT_REJECTED gives it: 0 invalid, 1 header, 2 digest, 3 signature, 4 floor. -/
def State.verifySlot (s : State) (slot : Nat) (valid : Bool) : Option Nat :=
  let h := s.slotHdr slot
  if !valid then some 0
  else if !hdrOk h then some 1
  else if Config.sha384 (s.norBytes (slotBase slot + 256) (field h 4 4)) ≠ (h.drop 32).take 48 then some 2
  else if !Config.signatureOk (Config.sha384 (h.take 80)) ((h.drop 80).take 96) then some 3
  else if field h 12 2 < s.floor then some 4
  else none

/-- Whether the boot record in force marks a slot valid; with no record every slot is tried (R582). -/
def State.slotValid (s : State) (slot : Nat) : Bool := (s.bootCurrent.map (fun x => bit x.2.valid slot)).getD true

/-- The slots of a list in order: the first that passes, and those that failed before it with their reasons. -/
def State.firstGood (s : State) : List Nat → Option Nat × List (Nat × Nat)
  | [] => (none, [])
  | x :: t =>
    match s.verifySlot x (s.slotValid x) with
    | none => (some x, [])
    | some r =>
      let (g, l) := State.firstGood s t
      (g, (x, r) :: l)

/-- SLOT_REJECTED for every slot of a list, recorded for FW_INFO. -/
def State.noteRejected (s : State) (l : List (Nat × Nat)) : State :=
  l.foldl
    (fun (s : State) (x : Nat × Nat) =>
      State.logOnly { s with fw := { s.fw with rejected := s.fw.rejected ||| 2 ^ x.1 } } 0x0B02
        (leBytes 1 x.1 ++ leBytes 1 x.2)) s

/-! ### Settings areas (R592) -/

/-- The offset of an area. -/
def areaBase (a : Nat) : Nat := if a = 0 then 0x100000 else 0x200000

/-- A settings area as read: its 64-byte header and its records. -/
structure SetArea where
  hdr : List Byte
  recs : List Byte
deriving DecidableEq, Repr

def SetArea.schema (a : SetArea) : Nat := field a.hdr 2 2
def SetArea.generation (a : SetArea) : Nat := field a.hdr 4 4

/-- The crc of an area: bytes 0 to 11, 16 to 63 and the records. -/
def settingsCrc (hdr recs : List Byte) : Nat := crc32c (hdr.take 12 ++ (hdr.drop 16).take 48 ++ recs)

/-- A valid area. -/
def State.settingsArea (s : State) (a : Nat) : Option SetArea :=
  let hdr := s.norBytes (areaBase a) 64
  let len := field hdr 8 4
  if field hdr 0 2 ≠ 1 ∨ 1048512 < len then none
  else
    let recs := s.norBytes (areaBase a + 64) len
    if field hdr 12 4 = settingsCrc hdr recs then some ⟨hdr, recs⟩ else none

/-- Write an area: its sectors erased, header with crc and records programmed (R592). `tail`: bytes 16 to 63. -/
def State.writeArea (s : State) (a schema generation : Nat) (tail recs : List Byte) : State :=
  let head := leBytes 2 1 ++ leBytes 2 schema ++ leBytes 4 generation ++ leBytes 4 recs.length
  let hdr := head ++ zeros 4 ++ padTo 48 tail
  (s.norErase (areaBase a) (64 + recs.length)).norProgram (areaBase a)
    (head ++ leBytes 4 (settingsCrc hdr recs) ++ padTo 48 tail ++ recs)

/-- The valid area of a slot: of two, that with the higher generation (R593). -/
def State.areaOf (s : State) (r : BootRec) (slot : Nat) : Option (Nat × SetArea) :=
  let own (a : Nat) : Option (Nat × SetArea) := if r.owner a = slot then (s.settingsArea a).map (fun x => (a, x)) else none
  match own 0, own 1 with
  | some x, some y => if x.2.generation < y.2.generation then some y else some x
  | some x, none => some x
  | none, y => y

/-- The keys that settings never store (R594, R595). -/
def Key.unsaved : Key → Bool
  | .runTimetable => true
  | .rx _ .tables => true
  | .tx _ .pcie => true
  | .tdm _ .pcie => true
  | _ => false

/-- The records of a set as settings store them. -/
def settingsOf (w : KeySet) : List Byte :=
  (Key.all.filter (fun k => !k.unsaved)).flatMap (fun k => cfgRecord k (KeySet.get w k))

/-- A list of records of any number read as one payload of CFG_SET: the set they make over the defaults, or the failure. -/
def settingsSet (recs : List Byte) : Except Reply KeySet :=
  let rec count : Nat → Nat → Nat
    | 0, _ => 0
    | f + 1, off => if recs.length ≤ off then 0 else 1 + count f (off + 36 + (field recs (off + 32) 2 + 3) / 4 * 4)
  match cfgRecords recs (count recs.length 0) 0 with
  | .error r => .error r
  | .ok l => (setRecords [] l).map (fun w => w.filter (fun e => !e.1.unsaved))

/-! ### Firmware restarts (R558, R559, R572) -/

/-- Take back what the command in flight of a mailbox had begun (R559; log entry 107). PWR_MODE and HEALTH_RESET_PARTITION go
on. -/
def State.undo (s : State) (m : Fin 8) : State :=
  match s.mboxes[m].taken, s.mboxes[m].flight with
  | some t, some x =>
    match t.command with
    | 0x0402 => { s with sched := { s.sched with running := s.active } }
    | 0x0412 =>
      let s := s.modPart (Fin.ofNat 4 (x.args.getD 0 0)) (fun q =>
        { q with regions := q.regions.filter (fun r => decide (r.slot ≠ x.args.getD 1 256)) })
      s.settleQuota t.context
    | 0x0501 =>
      { s with img := { s.img with i3c := s.img.i3c.map (fun (q : List I3cXfer) => q.filter (fun y => y.mbox ≠ m)) } }
    | 0x0601 =>
      (List.finRange 5).foldl
        (fun (s : State) n =>
          if bit (x.args.getD 0 0) n.val && !s.aud.port[n].running then s.modAud n (fun y => { y with startAfter := none })
          else s) s
    | 0x0602 =>
      (List.finRange 5).foldl
        (fun (s : State) n => if bit (x.args.getD 0 0) n.val then s.modAud n (fun y => { y with stopping := false }) else s) s
    | 0x0701 =>
      (List.finRange 4).foldl
        (fun (s : State) q => s.modZp q (fun z => { z with enabled := bit (x.args.getD 2 0) q.val }))
        { s with link := { s.link with rate := x.args.getD 1 0 } }
    | 0x0704 => { s with link := { s.link with out := s.link.out.filter (fun o => o.why ≠ .probe m) } }
    | 0x0901 => { s with health := { s.health with host := s.health.host.filter (fun h => h.mbox ≠ m) } }
    | _ => s
  | _, _ => s

/-- The commands BUSY (R559). -/
def State.busy (s : State) : List (Fin 8) := (List.finRange 8).filter (fun m => s.mboxes[m].taken.isSome)

/-- What a restart of the control processor does to work of firmware's (R559, R560): commands that are BUSY have no effect and
wait for E_FW_RESTARTED, tests restart. -/
def State.haltFirmware (s : State) : State :=
  let s := s.busy.foldl (fun (s : State) m => (s.undo m).modMbox m (fun b => { b with flight := none })) s
  { s with
    health := { s.health with
      tests := s.health.tests.map (fun (t : Test) =>
        if t.st = .running then { t with st := .pending, start := none } else t) } }

/-- Every command that was BUSY ends (R559). -/
def State.endBusy (s : State) : State := s.replyAll s.busy (err 0x8C04)

/-- A firmware restart begins (R558, R572): it counts, and may escalate. -/
def State.fwRestart (s : State) : State :=
  let (s, _, esc) := s.begun
  let n := s.busy.length
  let s : State := { s.haltFirmware with health := { s.haltFirmware.health with restart := some (s.health.missed.toNat, n, s.now) } }
  if esc then s.outOfService.escalationEvent else s

end Sys2Proof.Machine
end

