-- ==== Sys2Proof/Machine/Fw.lean ====
section
/-! DEFINITION. The meanings of FW_LOAD, FW_CONFIRM, FW_REVERT, FW_INFO and SETTINGS_SAVE (R596 to R600). -/

namespace Sys2Proof.Machine

/-! ### FW_LOAD (R597) -/

/-- The target of a load: the slot named in RECOVERY, else the slot that does not run. -/
def State.loadTarget (s : State) (p : List Byte) : Nat :=
  if s.dev.state = .recovery then field p 1 1 else if s.fw.slot = 0 then 1 else 0

/-- A load in progress has received an FW_LOAD. -/
def State.loadTouch (s : State) : State :=
  { s with fw := { s.fw with load := s.fw.load.map (fun x => (x.1, x.2.1, x.2.2.1, s.now)) } }

/-- The load closes; its target stays invalid. -/
def State.loadClose (s : State) : State := { s with fw := { s.fw with load := none } }

/-- The reserved bytes of an FW_LOAD payload. -/
def State.loadReserved (s : State) (p : List Byte) (begin_ : Bool) : List (Bool × Reply) :=
  [(!(begin_ && decide (s.dev.state = .recovery)) && decide (field p 1 1 ≠ 0), err 0x8006 (some 1)),
   (decide (field p 2 2 ≠ 0), err 0x8006 (some 2)), (decide (field p 12 4 ≠ 0), err 0x8006 (some 12))]

/-- FW_LOAD BEGIN (R597, R600); the ops that do not exist are refused here. -/
def execFwLoadBegin (m : Fin 8) (s : State) : Host.Outcome State Fault Refusal :=
  .next (s.answerIf m 0x0A01 (fun op => decide (op = 0 ∨ 3 < op)) (fun t =>
    let p := t.payload
    let len := field p 8 4
    let slot := s.loadTarget p
    let r := s.bootRec
    s.checked
      ([(decide (field p 0 1 ≠ 0), err 0x8006 (some 0)),
        (decide (s.dev.state = .recovery ∧ 1 < field p 1 1), err 0x8006 (some 1))] ++ s.loadReserved p true ++
       [(decide (len < 512 ∨ 0x400000 < len ∨ len % 64 ≠ 0), err 0x8006 (some 8)), (s.fw.load.isSome, err 0x8401),
        (decide (s.dev.state ≠ .recovery ∧ r.trial = s.fw.slot.toNat), err 0x8D04)])
      (fun s =>
        let r := { r.freeAreas slot with
          valid := r.valid &&& (if slot = 0 then 0xFE else 0xFD), confirmed := if r.confirmed = slot then 0xFF else r.confirmed,
          trial := if r.trial = slot then 0xFF else r.trial, tries := if r.trial = slot then 0 else r.tries }
        let s := (s.writeBoot r).norErase (slotBase slot) len
        ({ s with fw := { s.fw with load := some (slot, len, 0, s.now) } }, ok []))))

/-- FW_LOAD DATA (R597, R600). -/
def execFwLoadData (m : Fin 8) (s : State) : Host.Outcome State Fault Refusal :=
  .next (s.answerIf m 0x0A01 (fun op => op = 1) (fun t =>
    let s := s.loadTouch
    let p := t.payload
    let off := field p 4 4
    let len := field p 8 4
    match s.fw.load with
    | none => s.checked (s.loadReserved p false) (fun s => (s, err 0x8D01))
    | some (slot, n, got, at_) =>
      s.checked
        (s.loadReserved p false ++
          [(decide (off ≠ got ∨ len < 64 ∨ 4032 < len ∨ n < off + len ∨ (len % 64 ≠ 0 ∧ off + len ≠ n)), err 0x8D01)])
        (fun s =>
          let s := s.norProgram (slotBase slot + off) ((p.drop 16).take len)
          ({ s with fw := { s.fw with load := some (slot, n, got + len, at_) } }, ok []))))

/-- FW_LOAD FINISH (R447, R597, R600). -/
def execFwLoadFinish (m : Fin 8) (s : State) : Host.Outcome State Fault Refusal :=
  .next (s.withTaken m 0x0A01 (fun t =>
    if field t.payload 0 1 ≠ 2 then s else
    let s := s.loadTouch
    match firstErr (s.loadReserved t.payload false) with
    | some r => s.reply m r
    | none =>
      match s.fw.load with
      | none => s.reply m (err 0x8D01)
      | some (slot, n, got, _) =>
        if got ≠ n then s.reply m (err 0x8D01)
        else
          let s := s.loadClose
          match s.verifySlot slot true with
          | some 4 => s.reply m (err 0x8D03)
          | some _ => s.reply m (err 0x8D02)
          | none =>
            let r := s.bootRec
            let r := { r with valid := r.valid ||| 2 ^ slot }
            if s.dev.state = .recovery then
              ((s.writeBoot { r with confirmed := slot }).reply m (ok [])).setState .boot
            else (s.writeBoot { r with trial := slot, tries := 0 }).reply m (ok [])))

/-- FW_LOAD ABORT (R597). -/
def execFwLoadAbort (m : Fin 8) (s : State) : Host.Outcome State Fault Refusal :=
  .next (s.answerIf m 0x0A01 (fun op => op = 3) (fun t =>
    s.loadTouch.checked (s.loadReserved t.payload false) (fun s => (s.loadClose, ok []))))

/-- FW_LOAD_TIMEOUT (R597): 60 s without an FW_LOAD. -/
def execFwLoadTimeout (s : State) : Host.Outcome State Fault Refusal :=
  .next (if s.serving && s.fw.load.any (fun x => decide (x.2.2.2 + 60000000000 ≤ s.now)) then s.loadClose else s)

/-! ### FW_CONFIRM, FW_REVERT, FW_INFO -/

/-- FW_CONFIRM (R598, R600). -/
def execFwConfirm (m : Fin 8) (s : State) : Host.Outcome State Fault Refusal :=
  .next (s.answer m 0x0A02 (fun _ =>
    let slot := s.fw.slot.toNat
    let r := s.bootRec
    if r.confirmed = slot then (s, ok [])
    else if (s.areaOf r slot).isNone then (s, err 0x8D06)
    else if r.trial ≠ slot then (s, ok [])
    else
      let s := s.writeBoot { r.freeAreas r.confirmed with confirmed := slot, trial := 0xFF, tries := 0 }
      let old := s.floor
      let new := field s.fw.image 12 2
      if bit (field s.fw.image 14 2) 0 ∧ old < new then
        ((s.raiseFloor new).logOnly 0x0B05 (leBytes 2 old ++ leBytes 2 new), ok [])
      else (s, ok [])))

/-- FW_REVERT (R572, R599, R600): the reply comes with the boot record written; then the control processor restarts from the
target. -/
def execFwRevert (m : Fin 8) (s : State) : Host.Outcome State Fault Refusal :=
  .next (s.withTaken m 0x0A03 (fun _ =>
    let slot := s.fw.slot.toNat
    let target := if slot = 0 then 1 else 0
    let r := s.bootRec
    if !bit r.valid target || s.fw.load.isSome then s.reply m (err 0x8D05)
    else if field (s.slotHdr target) 12 2 < s.floor then s.reply m (err 0x8D03)
    else
      let s := s.writeBoot (if r.trial = slot then { r.freeAreas slot with trial := 0xFF, tries := 0 }
        else { r with trial := target, tries := 1 })
      let s := (s.reply m (ok [])).haltFirmware
      let (s, _, esc) := s.begun
      let s : State := { s with
        fw := { s.fw with slot := BitVec.ofNat 8 target, image := s.slotImage target, running := false, starting := true } }
      if esc then s.outOfService.escalationEvent else s))

/-- What FW_INFO tells of a slot. -/
def State.slotInfo (s : State) (slot : Nat) : List Byte :=
  if bit s.bootRec.valid slot then
    let h := s.slotHdr slot
    (h.drop 8).take 6 ++ (h.drop 16).take 4 ++ (h.drop 14).take 2
  else zeros 12

/-- FW_INFO (R600). -/
def execFwInfo (m : Fin 8) (s : State) : Host.Outcome State Fault Refusal :=
  .next (s.answer m 0x0A04 (fun _ =>
    let r := s.bootRec
    (s, ok ([s.fw.slot] ++ leBytes 1 r.confirmed ++ leBytes 1 r.trial ++ leBytes 1 r.tries ++ leBytes 1 r.valid ++
      leBytes 1 (r.owner0 % 4 + 4 * (r.owner1 % 4)) ++ leBytes 2 s.floor ++ s.slotInfo 0 ++ s.slotInfo 1 ++
      leBytes 2 s.fw.settings.toNat ++ leBytes 1 s.fw.source ++ leBytes 1 (b2n s.fw.expired) ++
      leBytes 2 s.fw.bootCommit.toNat ++ leBytes 2 s.fw.schema ++ leBytes 4 s.fw.generation ++
      leBytes 1 (b2n s.fw.load.isSome) ++ zeros 3 ++ leBytes 4 (s.fw.load.elim 0 (fun x => x.2.2.1)) ++
      leBytes 1 s.fw.rejected ++ zeros 11))))

/-! ### SETTINGS_SAVE (R596) -/

/-- The generation of a new area: one more than that of the running slot's area, else than any valid one (log entry 109). -/
def State.nextGeneration (s : State) (r : BootRec) (slot : Nat) : Nat :=
  match s.areaOf r slot with
  | some (_, x) => (x.generation + 1) % 0x100000000
  | none => (([0, 1].filterMap (fun a => (s.settingsArea a).map (·.generation))).foldl max 0 + 1) % 0x100000000

/-- Where a save goes: the area, the record written before, and the record written after; none where no area can be had (log
entry 109). `cur`: the slot's area in force. -/
def BootRec.savePlan (r : BootRec) (slot : Nat) (cur : Option Nat) : Option (Nat × Option BootRec × BootRec) :=
  match decide (r.owner0 = slot), decide (r.owner1 = slot) with
  | true, true =>
    let a := if cur = some 0 then 1 else 0
    some (a, none, (r.setOwner a slot).setOwner (1 - a) 0xFF)
  | true, false =>
    if r.owner1 = 0xFF then some (1, none, (r.setOwner 1 slot).setOwner 0 0xFF) else some (0, some (r.setOwner 0 0xFF), r)
  | false, true =>
    if r.owner0 = 0xFF then some (0, none, (r.setOwner 0 slot).setOwner 1 0xFF) else some (1, some (r.setOwner 1 0xFF), r)
  | false, false =>
    if r.owner0 = 0xFF then some (0, none, r.setOwner 0 slot)
    else if r.owner1 = 0xFF then some (1, none, r.setOwner 1 slot) else none

/-- SETTINGS_SAVE (R596, R600). -/
def execSettingsSave (m : Fin 8) (s : State) : Host.Outcome State Fault Refusal :=
  .next (s.answer m 0x0A10 (fun t =>
    let p := t.payload
    let slot := s.fw.slot.toNat
    let r := s.bootRec
    let plan := r.savePlan slot ((s.areaOf r slot).map (·.1))
    s.checked
      [(decide (3 < field p 0 1), err 0x8006 (some 0)), (decide (1 < field p 1 1), err 0x8006 (some 1)),
       (decide (3 < field p 2 1), err 0x8006 (some 2)), (decide (field p 3 1 ≠ 0), err 0x8006 (some 3)),
       (plan.isNone, err 0x8D07)]
      (fun s =>
        match plan with
        | none => (s, err 0x8D07)
        | some (a, before, after) =>
          let gen := s.nextGeneration r slot
          let schema := field s.fw.image 16 2
          let s := before.elim s s.writeBoot
          let s := (s.writeArea a schema gen p (settingsOf s.cfg.committed)).writeBoot after
          ({ s with fw := { s.fw with schema := schema, generation := gen } }, ok []))))

end Sys2Proof.Machine
end

