-- ==== Sys2Proof/Machine/DspCmds.lean ====
section
/-! DEFINITION. The meanings of the DSP commands (R361 to R363, R391, R392, R436). -/

namespace Sys2Proof.Machine

/-- A task entry of 16 bytes (R391). -/
def taskOf (l : List Byte) : DspTask :=
  { entry := field l 0 1, tick := Fin.ofNat 16 (field l 1 1), level := field l 2 1, policy := field l 3 1, divide := field l 4 1,
    phase := field l 5 1, handler := field l 6 2, budget := field l 8 4, alt := field l 12 2 }

/-- A task entry breaks the table of R391 or the policies of R392. -/
def taskBad (w : KeySet) (l : List Byte) : Option Nat :=
  let t := taskOf l
  let addr (a : Nat) : Bool := decide (0x40 ≤ a ∧ a ≤ 0x7FFF)
  failAt 0
    [(decide (15 < field l 1 1), 1), (decide (t.level < 1 ∨ 6 < t.level), 2), (decide (3 < t.policy), 3),
     (decide (t.divide < 1 ∨ 16 < t.divide), 4), (decide (t.divide ≤ t.phase), 5), (!addr t.handler, 6),
     (decide (t.alt ≠ 0) && !addr t.alt, 12), (decide (field l 14 2 ≠ 0), 14), (decide (t.policy = 1 ∧ t.alt = 0), 12),
     (decide (t.policy = 2 ∧ w.kind t.tick ≠ 2), 3)]

/-- The tasks of an image. -/
def imageTasks (l : List Byte) : List DspTask :=
  (List.range (field l 12 1)).map (fun i => taskOf ((l.drop (64 + 16 * i)).take 16))

/-- The load of an image's tasks on its DSP (R392): Σ (budget + 8) / interval, in DSP cycles of 1250 ps. -/
def taskLoad (w : KeySet) (ts : List DspTask) : Rat :=
  (ts.map (fun t => (((t.budget + 8) * 1250 : Nat) : Rat) / (w.intervalQ t.tick * (t.divide : Nat)))).sum

/-- E_DSP_IMAGE (R391, R392). -/
def imageBad (w : KeySet) (l : List Byte) : Option Nat :=
  let (p, x, y, n) := (field l 0 4, field l 4 4, field l 8 4, field l 12 1)
  match failAt 0
    [(decide (l.length < 64), 0), (decide (32768 < p), 0), (decide (65536 < x), 4), (decide (65536 < y), 8), (decide (16 < n), 12),
     (!allZero ((l.drop 13).take 51), 13), (decide (l.length < 64 + 16 * n + 4 * (p + x + y)), 0)] with
  | some a => some a
  | none =>
    match (List.range n).findSome? (fun i => (taskBad w ((l.drop (64 + 16 * i)).take 16)).map (fun a => 64 + 16 * i + a)) with
    | some a => some a
    | none => if (95 : Rat) / 100 < taskLoad w (imageTasks l) then some 12 else none

/-- E_DSP_TASK (R392): the place in the table and the entry_id of a task whose entry_id is used twice in the image, on another DSP, or by a timetable. -/
def State.taskClash (s : State) (d : Fin 4) (ids : List Nat) : Option (Nat × Nat) :=
  let others := (List.finRange 4).flatMap (fun e => if e = d then [] else s.dsps[e].taskList.map (fun x => x.1.entry))
  let tts := (s.sched.committed.toList ++ s.sched.tt.toList ++ s.sched.staged.toList.map (·.1)).flatMap
    (fun t => t.entries.map (·.id))
  (ids.zipIdx.find? (fun (x : Nat × Nat) => decide (x.1 ∈ others ∨ x.1 ∈ tts ∨ x.1 ∈ ids.take x.2))).map (fun x => (x.2, x.1))

/-- The copy of an image (R363, R391). -/
def imageOf (l : List Byte) : DspImage :=
  let (p, x, y) := (field l 0 4, field l 4 4, field l 8 4)
  let o := 64 + 16 * field l 12 1
  let mem (a n : Nat) : Mem := Mem.empty.writeBytes 0 ((l.drop a).take n)
  { p := mem o (4 * p), x := mem (o + 4 * p) (4 * x), y := mem (o + 4 * (p + x)) (4 * y), tasks := imageTasks l }

/-- The memories hold the loaded image, the rest of each cleared; bad words are healed. -/
def Dsp.fill (d : Dsp) : Dsp :=
  match d.image with
  | some i => { d with p := i.p, x := i.x, y := i.y, badP := [], badX := [], badY := [] }
  | none => d

/-- A DSP starts (R363): every register 0, level 0 in bank 0, P address 0; `warm`: sr's warm bit (bit 21). -/
def Dsp.start (d : Dsp) (warm : Bool) : Dsp :=
  { Dsp.reset with
    cond := 1, owner := d.owner, image := d.image, p := d.p, x := d.x, y := d.y, badP := d.badP, badX := d.badX, badY := d.badY,
    sr := if warm then 0x200000 else 0, fenced := d.fenced,
    tasks := d.tasks.map (fun t => { t with cur := none, pend := none, dropNext := false }) }

/-- DSP_LOAD (R362, R391, R392, R436, R553). -/
def execDspLoad (m : Fin 8) (s : State) : Host.Outcome State Fault Refusal :=
  .next (s.answer m 0x0B01 (fun t =>
    let p := t.payload
    let d : Fin 4 := Fin.ofNat 4 (field p 0 1)
    let h := field p 4 4
    let off := field p 8 4
    let len := field p 12 4
    let x := s.region? h
    let base := (x.map (fun y => y.2.base)).getD 0 + off
    s.checked
      [(decide (3 < field p 0 1), err 0x8006 (some 0)), (decide (field p 1 3 ≠ 0), err 0x8006 (some 1)),
       (decide (off % 64 ≠ 0), err 0x8006 (some 8)), (x.isNone, err 0x8007 (some 4) (some h)),
       (x.any (fun y => !s.on (clusterReach y.1)), err 0x8407 (some 4) (some h)),
       (x.any (fun y => decide (y.2.len < off + len)), err 0x8006 (some 12)), (s.dsps[d].fenced, err 0x8804),
       (decide (s.dsps[d].cond = 1), err 0x8801), (!(s.poisoned base len).isEmpty, err 0x8802)]
      (fun s =>
        let l := s.dram.readBytes base len
        match imageBad s.cfg.committed l with
        | some a => (s, err 0x8802 (some a))
        | none =>
          let i := imageOf l
          match s.taskClash d (i.tasks.map (·.entry)) with
          | some (k, id) => (s, err 0x8803 (some (64 + 16 * k)) (some id))
          | none =>
            let s := s.modDsp d (fun y =>
              { y with
                cond := 0, owner := some t.context, image := some i, tasks := i.tasks.map (fun _ => TaskSt.reset) })
            let s := if s.on (dspReach d) then s.modDsp d Dsp.fill else s
            ((s.dspTests d).refresh, ok []))))

/-- The checks of a command on the DSP in byte 0; `owner`: reserved to the owner of its image. -/
def State.dspTarget (s : State) (t : Taken) (owner : Bool) : List (Bool × Reply) :=
  let d : Fin 4 := Fin.ofNat 4 (field t.payload 0 1)
  [(decide (3 < field t.payload 0 1), err 0x8006 (some 0)), (decide (field t.payload 1 3 ≠ 0), err 0x8006 (some 1)),
   (owner && s.dsps[d].owner.any (fun o => decide (o ≠ t.context)), err 0x8004 (some 0) (some d.val))]

/-- DSP_START (R362, R363, R436, R553). -/
def execDspStart (m : Fin 8) (s : State) : Host.Outcome State Fault Refusal :=
  .next (s.answer m 0x0B02 (fun t =>
    let d : Fin 4 := Fin.ofNat 4 (field t.payload 0 1)
    s.checked
      (s.dspTarget t true ++
        [(s.dsps[d].fenced, err 0x8804), (decide (s.dsps[d].cond = 1), err 0x8801), (s.dsps[d].image.isNone, err 0x8802)])
      (fun s => ((s.modDsp d (fun x => x.start false)).refresh, ok []))))

/-- DSP_STOP (R436): runs in progress never complete. -/
def execDspStop (m : Fin 8) (s : State) : Host.Outcome State Fault Refusal :=
  .next (
    let s := s.answer m 0x0B03 (fun t =>
      let d : Fin 4 := Fin.ofNat 4 (field t.payload 0 1)
      s.checked (s.dspTarget t true) (fun s =>
        (((s.modDsp d (fun x =>
          { x with
            cond := 0, waiting := false,
            tasks := x.tasks.map (fun t => { t with cur := none, pend := none, dropNext := false }) })).dspTests d).refresh, ok [])))
    s.settleStop)

/-- DSP_INFO (R436). -/
def execDspInfo (m : Fin 8) (s : State) : Host.Outcome State Fault Refusal :=
  .next (s.answer m 0x0B04 (fun t =>
    s.checked (s.dspTarget t false) (fun s =>
      let d := s.dsps[(Fin.ofNat 4 (field t.payload 0 1) : Fin 4)]
      (s, ok (leBytes 1 d.cond ++ leBytes 1 (d.owner.getD 0) ++ leBytes 1 d.tasks.length ++ [0] ++ w32 d.fcause ++ w32 d.faddr ++
        w32 d.cyc)))))

end Sys2Proof.Machine
end

