-- ==== Sys2Proof/Machine/Power.lean ====
section
/-! DEFINITION. The meanings of PWR_MODE and PWR_INFO, reaches that power down and up, thermal throttling and shutdown (R522 to
R534, R546). -/

namespace Sys2Proof.Machine

/-- Free power readings, one for each of `n` (R534, R547; log entry 2). -/
def State.readings (s : State) (n : Nat) : List Nat × State :=
  ((List.range n).map (fun i => Config.freePower (s.fresh + i)), { s with fresh := s.fresh + n })

/-- The reaches a mode would add. -/
def State.adds (s : State) (mode : Nat) (link : Bool) (cluster : Fin 4) : List (Fin 10) :=
  (List.finRange 10).filter (fun r => modePowers mode link cluster r && !s.on r.val)

/-- PWR_MODE (R528, R529, R531): the reply comes when the last reach has switched. -/
def execPwrMode (m : Fin 8) (s : State) : Host.Outcome State Fault Refusal :=
  .next (s.withTaken m 0x0801 (fun t =>
    let p := t.payload
    let mode := field p 0 1
    let flags := field p 1 1
    let link := bit flags 0
    let cl := field p 2 1
    let c : Fin 4 := Fin.ofNat 4 cl
    match firstErr
        [(decide (3 < mode), err 0x8006 (some 0)), (decide (1 < flags), err 0x8006 (some 1)),
         (decide (if mode = 2 then 3 < cl else cl ≠ 0), err 0x8006 (some 2)), (decide (field p 3 1 ≠ 0), err 0x8006 (some 3)),
         (s.pwr.change.isSome, err 0x8B01),
         (s.pwr.armed.isSome && !(s.adds mode link c).isEmpty, err 0x8B02)] with
    | some r => s.reply m r
    | none =>
      if mode = s.pwr.mode ∧ link = s.pwr.linkReq ∧ (mode = 2 → c = s.pwr.watch) then s.reply m (ok s.modeReply)
      else (s.fly m 0x0801 [] []).beginMode mode link c (.host m)))

/-- PWR_INFO (R534); the electrical readings are free. -/
def execPwrInfo (m : Fin 8) (s : State) : Host.Outcome State Fault Refusal :=
  .next (s.answer m 0x0802 (fun _ =>
    let (l, s) := s.readings 12
    (s, ok (leBytes 1 s.pwr.mode ++ leBytes 1 (b2n s.pwr.linkReq) ++ leBytes 1 s.pwr.watch.val ++ leBytes 1 s.pwr.level ++
      leBytes 2 s.dev.powered.toNat ++ leBytes 1 (b2n s.pwr.change.isSome) ++ [0] ++ leBytes 2 s.pwr.tj.toNat ++
      l.zipIdx.flatMap (fun (x : Nat × Nat) => leBytes (if x.2 = 0 then 2 else 4) x.1)))))

/-- A reach has quiesced (R529, R530). -/
def State.quiesced (s : State) (r : Fin 10) : Bool :=
  if h : 6 ≤ r.val then
    let c : Fin 4 := ⟨r.val - 6, by omega⟩
    s.clusters[c].reset.isNone && !s.sched.runs.any (fun x => x.entry.cluster = c && x.phase = .running)
  else if r = 2 then !([0, 1, 2, 3] : List (Fin 5)).any (fun n => s.aud.port[n].running)
  else true

/-- REACH_POWER_DOWN (R12, R524, R529, R530, R544, R606): the reach next in order has quiesced, or CONTROL's 10 ms are over and
every reply is written. -/
def execReachPowerDown (r : Fin 10) (s : State) : Host.Outcome State Fault Refusal :=
  .next (
    if r = 3 then
      if s.pwr.ctrlOff.any (fun t => decide (t ≤ s.now)) && s.mboxes.toList.all (fun (b : Mbox) => b.taken.isNone) then
        State.reachOff { s with pwr := { s.pwr with ctrlOff := none } } 3
      else s
    else
      match s.pwr.change with
      | some x =>
        if x.down.head? = some r ∧ s.quiesced r then
          let (s, dropped) := if h : 6 ≤ r.val then s.clusterOff ⟨r.val - 6, by omega⟩ else (s.reachOff r, false)
          (State.advanceMode
            { s with
              pwr := { s.pwr with
                change := some { x with down := x.down.tail, dropped := x.dropped || dropped } } }).audSettle.refresh
        else s
      | none => s)

/-- A DSP whose reach comes up: its image is loaded again, and one that was RUNNING starts with warm (R363). -/
def State.dspOn (s : State) (d : Fin 4) : State :=
  (s.modDsp d (fun x =>
    let x := x.fill
    if x.cond = 1 then x.start true else x)).dspTests d

/-- A reach powers up (R356, R363, R480, R523, R527, R529, R606): REACH_ON with its cause, SYNC, and what comes back with it. -/
def State.reachOn (s : State) (r : Fin 10) (cause : Nat) : State :=
  if s.on r.val then s else
  let s := State.groupChanged { s with dev := { s.dev with powered := s.dev.powered ||| (1#10 <<< r.val) } }
  let s := s.traceReachOn r cause
  let s := if h : 6 ≤ r.val then (s.restoreCluster ⟨r.val - 6, by omega⟩).modPart ⟨r.val - 6, by omega⟩ (fun x => x.wake s.now)
    else if r = 1 then (s.dspOn 0).vauxSync
    else if r = 2 then (((s.dspOn 1).dspOn 2).dspOn 3).alignApll
    else if r = 5 then { s with link := { s.link with port := s.link.port.map (fun (z : ZPort) => { z with retry := s.now }) } }
    else s
  s.refresh

/-- The cause of a REACH_ON (R604). -/
def ModeBy.reachCause : ModeBy → Nat
  | .cascade => 1
  | .boot => 2
  | _ => 0

/-- REACH_POWER_UP (R465, R524, R529): the reach next in order once those going down are off, or CONTROL after GLB_WAKE. -/
def execReachPowerUp (r : Fin 10) (s : State) : Host.Outcome State Fault Refusal :=
  .next (
    match s.pwr.change with
    | some x =>
      if x.down.isEmpty ∧ x.up.head? = some r then
        (s.reachOn r x.by_.reachCause |> fun s =>
          State.advanceMode { s with pwr := { s.pwr with change := some { x with up := x.up.tail } } })
      else if r = 3 ∧ s.pwr.wake then State.reachOn { s with pwr := { s.pwr with wake := false } } 3 0 else s
    | none => if r = 3 ∧ s.pwr.wake then State.reachOn { s with pwr := { s.pwr with wake := false } } 3 0 else s)

/-- The throttle level for a junction temperature, in sixteenths of a degree (R546): a level is left 2 °C below its entry. -/
def throttle (old : Nat) (tj : Int) : Nat :=
  let at_ (n : Nat) (entry : Int) : Bool := decide (entry ≤ tj) || (decide (n ≤ old) && decide (entry - 32 < tj))
  if at_ 3 1664 then 3 else if at_ 2 1632 then 2 else if at_ 1 1600 then 1 else 0

/-- Thermal shutdown (R546): every reach but TOWPATH powers off, and the mode becomes STANDBY. -/
def State.thermalShutdown (s : State) : State :=
  let old := s.pwr.mode
  let s := { s with pwr := { s.pwr with change := none, ctrlOff := none, wake := false } }
  let s := ([5, 4, 9, 8, 7, 6, 2, 1, 3] : List (Fin 10)).foldl State.powerOff s
  let s := (s.event 0x0806 0 0xFF true (leBytes 2 s.pwr.tj.toNat)).audSettle
  State.refresh (State.finishMode { s with pwr := { s.pwr with linkReq := false } }
    { old := old, new := 0, down := [], up := [], by_ := .thermal, dropped := false })

/-- THERMAL_SAMPLE (R546): the level, what it changes at once, and thermal shutdown. -/
def execThermalSample (tj : W16) (s : State) : Host.Outcome State Fault Refusal :=
  .next (
    if !s.dev.towpath then s else
    let t := tj.toInt
    let old := s.pwr.level
    let new := throttle old t
    let s : State := if decide (old = 3) == decide (new = 3) then s
      else { s with sched := { s.sched with runs := s.sched.runs.map s.foldCycles } }
    let armed : Option Nat := if 1680 ≤ t then some (s.pwr.armed.getD s.now) else none
    let newly := armed.isSome && s.pwr.armed.isNone
    let s := { s with pwr := { s.pwr with tj := tj, level := new, armed := armed } }
    let s := if old = new then s
      else (s.event 0x0805 0 0xFF true (leBytes 1 old ++ leBytes 1 new ++ leBytes 2 tj.toNat)).setCause 13
    let s := if newly then s.setCause 13 else s
    let pause (x : Session) : Session :=
      if 2 ≤ new then { x with since := some (x.since.getD s.now) }
      else if 2 ≤ old && !x.waiting then { x with since := none } else x
    let s : State := { s with
      casc := { s.casc with
        stage := s.casc.stage.map (fun (x : Stage) => { x with session := x.session.map pause }) } }
    let due := decide (1760 ≤ t) || armed.any (fun a => decide (a + 10000000 ≤ s.now))
    let off := decide (s.dev.powered = 1#10) && decide (s.pwr.mode = 0)
    if due && !off then s.thermalShutdown else s)

end Sys2Proof.Machine
end

