-- ==== Sys2Proof/Machine/Boot.lean ====
section
/-! DEFINITION. The meanings of the boot ROM's run, the start of firmware and its restarts (R447, R548, R556 to R561, R581 to
R595). -/

namespace Sys2Proof.Machine

/-! ### The boot ROM -/

/-- A trial is over: three boots without a confirmation (R587). -/
def BootRec.expired (r : BootRec) : Bool := decide (r.trial ≤ 1 ∧ 3 ≤ r.tries)

/-- The order in which the boot ROM tries the slots (R587); a record without a confirmed slot leaves A and then B. -/
def BootRec.order (r : BootRec) : List Nat :=
  let confirmed : List Nat := if r.confirmed ≤ 1 then [r.confirmed] else []
  if r.trial ≤ 1 ∧ r.tries < 3 then (r.trial :: confirmed).eraseDups
  else if r.confirmed ≤ 1 then [r.confirmed, 1 - r.confirmed] else [0, 1]

/-- TRIAL_EXPIRY (R589). -/
def State.expireTrial (s : State) (r : BootRec) : State :=
  if r.expired then
    let s := s.writeBoot { r.freeAreas r.trial with trial := 0xFF, tries := 0 }
    State.logOnly { s with fw := { s.fw with expired := true } } 0x0B03 (leBytes 1 r.trial)
  else s

/-- BOOT_ROM_RUN (R447, R582, R585, R587 to R589). -/
def execBootRomRun (s : State) : Host.Outcome State Fault Refusal :=
  .next (
    if s.dev.state ≠ .boot ∨ s.dev.perst ∨ ¬ s.dev.towpath ∨ s.fw.running ∨ s.fw.starting then s else
    let s : State := { s with fw := { s.fw with rejected := 0, expired := false, bootCommit := 0, load := none } }
    let s := s.reachOn 3 2
    let known := s.bootCurrent.isSome
    let order := if known then s.bootRec.order else [0, 1]
    let s := s.expireTrial s.bootRec
    let (good, bad) := s.firstGood order
    let s := s.noteRejected bad
    match good with
    | none => State.setState { s with fw := { s.fw with slot := 0xFF, image := [] } } .recovery
    | some x =>
      let r := s.bootRec
      let s := if !known then s
        else if x = r.trial then s.writeBoot { r with tries := r.tries + 1 }
        else if x ≠ r.confirmed then s.writeBoot { r with trial := x, tries := 1 }
        else s
      let img := s.slotImage x
      let s := s.logOnly 0x0B01
        (leBytes 1 x ++ (img.drop 8).take 4 ++ leBytes 1 s.bootRec.trial ++ leBytes 1 s.bootRec.tries)
      { s with fw := { s.fw with slot := BitVec.ofNat 8 x, image := img, starting := true } })

/-! ### Settings at the start of firmware (R582, R593) -/

/-- The settings a start has selected: header and records (none: defaults), source, schema and generation to report. -/
structure Selection where
  area : Option SetArea
  source : Nat
deriving DecidableEq, Repr

/-- The firmware that starts reads the schema of an area. -/
def State.readable (s : State) (a : SetArea) : Bool :=
  decide (field s.fw.image 18 2 ≤ a.schema ∧ a.schema ≤ field s.fw.image 16 2)

/-- An area in the running firmware's schema (R593). -/
def State.converted (s : State) (a : SetArea) : SetArea :=
  let schema := field s.fw.image 16 2
  if a.schema = schema then a
  else ⟨a.hdr.take 2 ++ leBytes 2 schema ++ a.hdr.drop 4, (Config.migrate a.schema schema a.recs).take 1048512⟩

/-- Without a boot record, firmware adopts the valid area with the highest generation that it can read, and writes a record
(R582; log entry 110). -/
def State.adopt (s : State) : State × Selection :=
  let slot := s.fw.slot.toNat
  let valid : List (Nat × SetArea) := [0, 1].filterMap (fun a => (s.settingsArea a).map (fun x => (a, x)))
  let best := (valid.filter (fun x => s.readable x.2)).foldl
    (fun (b : Option (Nat × SetArea)) x => match b with
      | none => some x
      | some y => if y.2.generation < x.2.generation then some x else b) none
  let r := { BootRec.none_ with confirmed := slot, valid := 2 ^ slot }
  match best with
  | some (a, x) => (s.writeBoot (r.setOwner a slot), ⟨some (s.converted x), 0⟩)
  | none => (s.writeBoot r, ⟨none, if valid.isEmpty then 3 else 2⟩)

/-- The selection of R593, with the migration it may make. -/
def State.selectSettings (s : State) : State × Selection :=
  let slot := s.fw.slot.toNat
  match s.bootCurrent with
  | none => s.adopt
  | some (_, r) =>
    match s.areaOf r slot with
    | some (_, x) => (s, ⟨some (s.converted x), 0⟩)
    | none =>
      match (if r.confirmed = slot then none else s.areaOf r r.confirmed) with
      | none => (s, ⟨none, 3⟩)
      | some (a, x) =>
        if s.readable x then
          let y := s.converted x
          let y : SetArea := ⟨y.hdr.take 4 ++ leBytes 4 (x.generation + 1) ++ y.hdr.drop 8, y.recs⟩
          let s := s.writeArea (1 - a) y.schema y.generation (y.hdr.drop 16) y.recs
          (s.writeBoot (r.setOwner (1 - a) slot), ⟨some y, 1⟩)
        else (s, ⟨none, 2⟩)

/-! ### The start of firmware -/

/-- The listener image (R590): its words are firmware's, and undefined here; it has no tasks (log entry 111). -/
def listenerImage (k : Nat) : DspImage :=
  { p := Mem.empty.junk 0 0x20000 k, x := Mem.empty.junk 0 0x40000 (k + 1), y := Mem.empty.junk 0 0x40000 (k + 2), tasks := [] }

/-- DSP0 is loaded with the listener image and started (R363, R590). -/
def State.startListener (s : State) : State :=
  let s := s.reachOn 1 2
  if s.dsps[0].fenced then s else
  let k := s.epoch
  (State.modDsp { s with epoch := s.epoch + 3 } 0 (fun d =>
    ({ d with owner := none, image := some (listenerImage k), tasks := [] } : Dsp).fill.start false)).dspTests 0

/-- The health keys take effect (R594). -/
def State.healthKeys (s : State) : State :=
  { s with
    health := { s.health with
      escLimit := s.key .healthEscResets, escWindow := s.key .healthEscWindow, misses := s.key .healthHbMisses,
      period := s.key .healthHbPeriod } }

/-- The committed set is the defaults, not in force, and no transaction is open (R594). -/
def State.defaults (s : State) : State :=
  s.applyCommit [] none

/-- The commit of the selected settings (R594). Answers whether it passed. -/
def State.bootCommit (s : State) (sel : Selection) : State × Bool :=
  match sel.area with
  | none => (s.defaults, false)
  | some a =>
    let fail (s : State) (r : Reply) : State × Bool :=
      let s := s.defaults
      ({ s with fw := { s.fw with bootCommit := BitVec.ofNat 16 r.status } }, false)
    match settingsSet a.recs with
    | .error r => fail s r
    | .ok w =>
      match s.commitCheck w none true with
      | some r => fail s r
      | none => ((s.applyCommit w none).healthKeys, true)

/-- The power mode of the settings, or FULL (R590). -/
def State.bootMode (s : State) (sel : Selection) : State :=
  let (mode, link, cluster) : Nat × Bool × Fin 4 := match sel.area with
    | some a => (min (field a.hdr 16 1) 3, bit (field a.hdr 17 1) 0, Fin.ofNat 4 (field a.hdr 18 1))
    | none => (3, s.pwr.linkReq, 0)
  let old := s.pwr.mode
  let want (r : Fin 10) : Bool := modePowers mode link cluster r
  let s := (upOrder.reverse.filter (fun r => !want r && decide (r ≠ 3))).foldl State.powerOff s
  let s := (upOrder.filter want).foldl (fun (s : State) r => s.reachOn r 2) s
  State.finishMode
    { s with
      pwr := { s.pwr with
        linkReq := link, watch := if mode = 2 then cluster else s.pwr.watch, ctrlOff := none, wake := false, change := none } }
    { old := old, new := mode, down := [], up := [], by_ := .boot, dropped := false }

/-- FIRMWARE_START (R406, R447, R559, R582, R590 to R595). -/
def execFirmwareStart (s : State) : Host.Outcome State Fault Refusal :=
  .next (
    if ¬ s.fw.starting ∨ ¬ s.on 3 then s else
    let s : State := { s with fw := { s.fw with starting := false, running := true } }
    if s.dev.state = .outOfService then s.endBusy else
    let (s, sel) := s.selectSettings
    let (u, s) := s.draw
    let schema := sel.area.elim (u % 65536) SetArea.schema
    let gen := sel.area.elim (u / 65536 % 0x100000000) SetArea.generation
    let s := s.logOnly 0x0B04 (leBytes 1 sel.source ++ leBytes 2 schema ++ leBytes 4 gen)
    let boot := decide (s.dev.state = .boot)
    let s : State := { s with
      fw := { s.fw with
        settings := if sel.area.isSome then 0 else 0x4005, source := sel.source, schema := schema, generation := gen,
        bootCommit := 0,
        subVendor := if boot then BitVec.ofNat 16 (sel.area.elim 0 (fun a => field a.hdr 20 2)) else s.fw.subVendor,
        subId := if boot then BitVec.ofNat 16 (sel.area.elim 0 (fun a => field a.hdr 22 2)) else s.fw.subId } }
    let s := s.startListener
    let (s, pass) := s.bootCommit sel
    let s := s.bootMode sel
    let s := s.setState (if pass then .ready else .configHold)
    s.endBusy.refresh)

/-! ### Firmware restarts (R548, R558 to R561) -/

/-- STAGING_UE (R548): a firmware restart. The offset in staging is not among the row's operands, and free (log entry 2). -/
def execStagingUe (s : State) : Host.Outcome State Fault Refusal :=
  .next (
    if ¬ s.fwUp ∨ ¬ s.on 3 then s else
    let (off, s) := s.draw
    (s.event 0x0A01 0 0xFF true ([3, 0xFF] ++ leBytes 4 off)).fwRestart)

/-- FIRMWARE_RESTART_DONE (R447, R558, R559, R561): the running slot is verified again, then the other; the check codes of what
staging holds agree or not (log entry 106). -/
def execFirmwareRestartDone (agree : Bool) (s : State) : Host.Outcome State Fault Refusal :=
  .next (match s.health.restart with
    | none => s
    | some (misses, ended, _) =>
      let s : State := { s with health := { s.health with restart := none } }
      let slot := s.fw.slot.toNat
      let (good, bad) := s.firstGood [slot, 1 - slot]
      let s := s.noteRejected bad
      let s := s.event 0x0A08 0 0xFF true (leBytes 2 misses ++ leBytes 1 (b2n agree) ++ leBytes 1 ended)
      match good with
      | none =>
        let s : State := { s with
          fw := { s.fw with slot := 0xFF, image := [], running := false, load := none },
          sched := { s.sched with running := false } }
        let s := if s.dev.state = .outOfService then s
          else if s.active then s.leaveRunning .recovery else s.setState .recovery
        s.endBusy
      | some x =>
        let s : State := { s with fw := { s.fw with slot := BitVec.ofNat 8 x, image := s.slotImage x } }
        let s := if agree ∨ s.dev.state = .outOfService then s else s.enterHold
        s.endBusy.refresh)

end Sys2Proof.Machine
end

