-- ==== Sys2Proof/Machine/Dsp.lean ====
section
/-! DEFINITION. The meanings of the audio DSPs' interrupts, overruns and instructions (chapter 10). -/

namespace Sys2Proof.Machine

/-- INTERRUPT_ENTRY (R386 to R388, R393): the next request in order is taken; a task's run starts; level 7 here is a
TICK_OVERRUN, with its fcause. A pending block test between two runs goes first. A DSP that waited in WAITI has counted a
free number of cycles (log entry 75). -/
def execInterruptEntry (d : Fin 4) (s : State) : Host.Outcome State Fault Refusal :=
  .next (
    let s := s.dspTests d
    if !s.dspRuns d then s else
    let x := s.dsps[d]
    match x.nextLevel with
    | none => s
    | some l =>
      let (w, s) := if x.waiting then s.draw else (0, s)
      let s := s.modDsp d (fun x => { x with cyc := x.cyc + BitVec.ofNat 32 w })
      if l = 7 then
        match x.ovrReq with
        | [] => s
        | i :: rest => (s.modDsp d (fun x => { x with ovrReq := rest })).dspFault d ⟨7, 0, none⟩ x.pc false false i
      else
        let (t, s) := s.dspPick d l
        match t with
        | none =>
          s.modDsp d (fun x => { x.enter x.pc l (0x8 + (l - 1) * 8) 0xFF with swi := x.swi &&& ~~~(1#8 <<< l) })
        | some i =>
          match x.taskList[i]? with
          | none => s
          | some (t, st) =>
            let s := s.modTask d i (fun k =>
              { k with cur := k.cur.map (fun (r : TaskRun) => { r with started := true, alt := k.atAlt }) })
            let s := match st.cur with
              | some r => if st.atAlt then s.modOvr t.tick r.count (fun o => { o with degraded := true }) else s
              | none => s
            let s := s.dspTrace d i 0 x.pc
            s.modDsp d (fun x => x.enter x.pc l (if st.atAlt then t.alt else t.handler) i))

/-- DSP_TASK_OVERRUN (R34, R42, R393, R394): the run of a task in overrun: BUDGET, its deadline, or its second deadline, at
which FAULT is applied whatever the policy. -/
def execDspTaskOverrun (d : Fin 4) (task : Fin 16) (s : State) : Host.Outcome State Fault Refusal :=
  .next (
    let x := s.dsps[d]
    if x.cond ≠ 1 || !s.on (dspReach d) then s else
    match x.taskList[task.val]? with
    | none => s
    | some (t, st) =>
      match st.cur with
      | none => s
      | some r =>
        if r.cause.isNone && r.passed = 0 && decide (t.budget < r.cycles) then (s.dspOverrun d task.val t r 0).settleStop
        else if r.passed = 0 && s.taskDue1 r then
          let s := s.modTask d task.val (fun k => { k with cur := k.cur.map (fun (r : TaskRun) => { r with passed := 1 }) })
          if r.cause.isNone then (s.dspOverrun d task.val t { r with passed := 1 } 1).settleStop else s
        else if r.passed = 1 && s.taskDue2 r then
          let s := s.taskOverrunNote d task.val t r.count 4 1 r.alt true
          let x := s.dsps[d]
          ((s.dspFaultEvent d (x.fcauseOf ⟨7, 0, none⟩ false false task.val) x.faddr.toNat x.pc 0).dspHalt d).settleStop
        else s)

/-- One instruction of one cycle that changes only the DSP's registers. -/
def State.dspPlain (s : State) (d : Fin 4) (f : Dsp → Dsp) : State :=
  s.dspStep d (fun s => .ok ((s.dspCycles d 1).modDsp d (fun x => (f x).advance 1)))

/-- NOP (R374). -/
def execDspNop (d : Fin 4) (s : State) : Host.Outcome State Fault Refusal :=
  .next (s.dspPlain d id)

/-- RTI (R370, R384, R388, R393): a task's handler completes its run, which takes sr's v and dz and clears
them; an overrun of its budget counts first, and a run that
this abandons does not complete. With nothing on the interrupt stack RTI is ILLEGAL (log entry 76). -/
def execRti (d : Fin 4) (s : State) : Host.Outcome State Fault Refusal :=
  .next (s.dspStep d (fun s =>
    let x := s.dsps[d]
    if x.stack.isEmpty then .error .illegal
    else
      let back (done : Bool) (s : State) : State :=
        let s := s.dspCycles d 3
        (s.modDsp d (fun x =>
          let y := x.leave
          { y with
            cyc := y.cyc + BitVec.ofNat 32 y.loopLen,
            sr := if done then putBit (putBit y.sr 6 false) 7 false else y.sr })).dspTests d
      match x.taskList[x.task]? with
      | some (t, st) =>
        match st.cur with
        | some r =>
          let s := if r.cause.isNone && decide (t.budget < r.cycles) then s.dspOverrun d x.task t r 0 else s
          if s.dsps[d].cond = 1 && decide (s.dsps[d].task = x.task) && decide (s.dsps[d].stack.length = x.stack.length) then
            .ok (back true ((s.dspTrace d x.task 1 x.pc).taskDone d x.task t r))
          else .ok s
        | none => .ok (back false s)
      | none => .ok (back false s))).settleStop

/-- SWI (R387): a request of a level 1 to 6. -/
def execSwi (d : Fin 4) (level : BitVec 3) (s : State) : Host.Outcome State Fault Refusal :=
  .next (s.dspStep d (fun s =>
    if level = 0 ∨ level = 7 then .error .illegal
    else .ok ((s.dspCycles d 1).modDsp d (fun x => { x.advance 1 with swi := x.swi ||| (1#8 <<< level.toNat) }))))

/-- WAITI (R375): the DSP waits until an interrupt is taken. -/
def execWaiti (d : Fin 4) (s : State) : Host.Outcome State Fault Refusal :=
  .next (s.dspPlain d (fun x => { x with waiting := true }))

/-- BRA (R374): the offset counts from the branch itself (log entry 77). -/
def execDspBra (d : Fin 4) (cond : DspCond) (off : W16) (s : State) : Host.Outcome State Fault Refusal :=
  .next (s.dspJump d cond (fun x => (x, ((x.pc : Int) + off.toInt) % 32768 |>.toNat)))

/-- BSR (R368, R374): lr holds the return address. -/
def execBsr (d : Fin 4) (cond : DspCond) (off : W16) (s : State) : Host.Outcome State Fault Refusal :=
  .next (s.dspJump d cond (fun x =>
    (x.modBank (fun b => { b with lr := BitVec.ofNat 15 (x.pc + 1) }), ((x.pc : Int) + off.toInt) % 32768 |>.toNat)))

/-- JMP (R374). -/
def execJmp (d : Fin 4) (cond : DspCond) (addr : BitVec 15) (s : State) : Host.Outcome State Fault Refusal :=
  .next (s.dspJump d cond (fun x => (x, addr.toNat)))

/-- RTS (R374). -/
def execRts (d : Fin 4) (cond : DspCond) (s : State) : Host.Outcome State Fault Refusal :=
  .next (s.dspJump d cond (fun x => (x, x.regs.lr.toNat)))

/-- REP (R381, R382, R397): the next instruction, count times, not interruptible. -/
def execRep (d : Fin 4) (count : DspCount) (s : State) : Host.Outcome State Fault Refusal :=
  .next (
    let x := s.dsps[d]
    if !s.dspRuns d || x.waiting then s
    else
      match x.fetchFault, x.countOf count with
      | some e, _ => s.dspFault d e x.pc false false 0
      | none, none => s.dspFault d .illegal x.pc false false 0
      | none, some 0 => (s.dspCycles d 1).modDsp d (fun x => { x.advance 2 with rc := 0 })
      | none, some n =>
        let target := (x.pc + 1) % 32768
        if 4096 < n then s.dspFault d ⟨2, 0, none⟩ x.pc false false 0
        else if decide (target ∈ x.badP) && !(x.inLoop && x.cached) then s.dspFault d ⟨5, 0, some target⟩ x.pc false false 0
        else
          match dspDecode (x.pword target) with
          | none => s.dspFault d ⟨2, 0, none⟩ x.pc false false 0
          | some op =>
            if s.dspWindowed d op then s.dspFault d ⟨2, 0, none⟩ x.pc false false 0
            else
              match State.dspRep d op n s with
              | (s, none) => (s.dspCycles d (1 + n)).modDsp d (fun x => { x.advance 2 with rc := 0 })
              | (s, some (e, left)) =>
                let s := s.dspCycles d (1 + (n - left))
                (s.modDsp d (fun x => { x with rc := BitVec.ofNat 32 left })).dspFault d e x.pc true false 0)

/-- Whether a word may stand in a LOOP body (R383): no branch, no LOOP, no REP whose target lies outside the body or is of
another class, no RTI, WAITI or SWI; a reserved word is ILLEGAL where it stands. `next`: the word after it, where it lies in the body. -/
def loopWord (w : Nat) (next : Option Nat) : Bool :=
  match bits w 28 4 with
  | 0 => Config.dspOperation 0 (bits w 22 6) = 0 || decide (4 ≤ Config.dspOperation 0 (bits w 22 6))
  | 1 => false
  | 2 => !bit w 27 && ((next.map (fun v => (dspDecode v).isSome)).getD false)
  | _ => true

/-- LOOP (R383): the next L instructions, count times; the body is checked while it is loaded. A register count above 4096 is
a free count (log entry 73). -/
def execLoop (d : Fin 4) (len : Nat) (count : DspCount) (s : State) : Host.Outcome State Fault Refusal :=
  .next (s.dspStep d (fun s =>
    let x := s.dsps[d]
    match x.countOf count with
    | none => .error .illegal
    | some n =>
      let (n, s) := s.countFree n
      if len = 0 ∨ 32 < len then .error .illegal
      else if n = 0 then .ok ((s.dspCycles d 2).modDsp d (fun x => x.advance (1 + len)))
      else
        let start := x.pc + 1
        let body := (List.range len).map (fun i => start + i)
        if 0x8000 < start + len then .error ⟨8, 0, none⟩
        else
          match body.find? (fun a => a ∈ x.badP) with
          | some a => .error ⟨5, 0, some a⟩
          | none =>
            if body.all (fun a => loopWord (x.pword a) (if a + 1 < start + len then some (x.pword (a + 1)) else none)) then
              .ok ((s.dspCycles d 2).modDsp d (fun x =>
                { x with pc := start, loopStart := start, loopLen := len, lc := BitVec.ofNat 32 n, cached := false }))
            else .error ⟨8, 0, none⟩))

/-- MPY (R376). -/
def execMpy (d : Fin 4) (a : MacArgs) (s : State) : Host.Outcome State Fault Refusal :=
  .next (s.dspExec d (.mac .mpy a))

/-- MAC (R376). -/
def execMac (d : Fin 4) (a : MacArgs) (s : State) : Host.Outcome State Fault Refusal :=
  .next (s.dspExec d (.mac .mac a))

/-- MSU (R376). -/
def execMsu (d : Fin 4) (a : MacArgs) (s : State) : Host.Outcome State Fault Refusal :=
  .next (s.dspExec d (.mac .msu a))

/-- MPYD (R376). -/
def execMpyd (d : Fin 4) (a : MacArgs) (s : State) : Host.Outcome State Fault Refusal :=
  .next (s.dspExec d (.mac .mpyd a))

/-- MACD (R376). -/
def execMacd (d : Fin 4) (a : MacArgs) (s : State) : Host.Outcome State Fault Refusal :=
  .next (s.dspExec d (.mac .macd a))

/-- MSUD (R376). -/
def execMsud (d : Fin 4) (a : MacArgs) (s : State) : Host.Outcome State Fault Refusal :=
  .next (s.dspExec d (.mac .msud a))

/-- ADD (R378). -/
def execDspAdd (d : Fin 4) (a : AluArgs) (s : State) : Host.Outcome State Fault Refusal :=
  .next (s.dspExec d (.alu .add a))

/-- ADDS (R378). -/
def execDspAdds (d : Fin 4) (a : AluArgs) (s : State) : Host.Outcome State Fault Refusal :=
  .next (s.dspExec d (.alu .adds a))

/-- SUB (R378). -/
def execDspSub (d : Fin 4) (a : AluArgs) (s : State) : Host.Outcome State Fault Refusal :=
  .next (s.dspExec d (.alu .sub a))

/-- SUBS (R378). -/
def execDspSubs (d : Fin 4) (a : AluArgs) (s : State) : Host.Outcome State Fault Refusal :=
  .next (s.dspExec d (.alu .subs a))

/-- CMP (R378). -/
def execDspCmp (d : Fin 4) (a : AluArgs) (s : State) : Host.Outcome State Fault Refusal :=
  .next (s.dspExec d (.alu .cmp a))

/-- NEG (R378). -/
def execDspNeg (d : Fin 4) (a : AluArgs) (s : State) : Host.Outcome State Fault Refusal :=
  .next (s.dspExec d (.alu .neg a))

/-- ABS (R378). -/
def execDspAbs (d : Fin 4) (a : AluArgs) (s : State) : Host.Outcome State Fault Refusal :=
  .next (s.dspExec d (.alu .abs a))

/-- MIN (R378). -/
def execDspMin (d : Fin 4) (a : AluArgs) (s : State) : Host.Outcome State Fault Refusal :=
  .next (s.dspExec d (.alu .min a))

/-- MAX (R378). -/
def execDspMax (d : Fin 4) (a : AluArgs) (s : State) : Host.Outcome State Fault Refusal :=
  .next (s.dspExec d (.alu .max a))

/-- MUL (R378). -/
def execDspMul (d : Fin 4) (a : AluArgs) (s : State) : Host.Outcome State Fault Refusal :=
  .next (s.dspExec d (.alu .mul a))

/-- AND (R378). -/
def execDspAnd (d : Fin 4) (a : AluArgs) (s : State) : Host.Outcome State Fault Refusal :=
  .next (s.dspExec d (.alu .and a))

/-- OR (R378). -/
def execDspOr (d : Fin 4) (a : AluArgs) (s : State) : Host.Outcome State Fault Refusal :=
  .next (s.dspExec d (.alu .or a))

/-- XOR (R378). -/
def execDspXor (d : Fin 4) (a : AluArgs) (s : State) : Host.Outcome State Fault Refusal :=
  .next (s.dspExec d (.alu .xor a))

/-- NOT (R378). -/
def execDspNot (d : Fin 4) (a : AluArgs) (s : State) : Host.Outcome State Fault Refusal :=
  .next (s.dspExec d (.alu .not a))

/-- SHL (R378). -/
def execDspShl (d : Fin 4) (a : AluArgs) (s : State) : Host.Outcome State Fault Refusal :=
  .next (s.dspExec d (.alu .shl a))

/-- LSR (R378). -/
def execDspLsr (d : Fin 4) (a : AluArgs) (s : State) : Host.Outcome State Fault Refusal :=
  .next (s.dspExec d (.alu .lsr a))

/-- ASR (R378). -/
def execDspAsr (d : Fin 4) (a : AluArgs) (s : State) : Host.Outcome State Fault Refusal :=
  .next (s.dspExec d (.alu .asr a))

/-- DIVINIT (R379). -/
def execDivinit (d : Fin 4) (acc : Fin 4) (a : AluArgs) (s : State) : Host.Outcome State Fault Refusal :=
  .next (s.dspExec d (.divinit acc a))

/-- DIVS (R379). -/
def execDivs (d : Fin 4) (acc : Fin 4) (a : AluArgs) (s : State) : Host.Outcome State Fault Refusal :=
  .next (s.dspExec d (.divs acc a))

/-- DIVEND (R379). -/
def execDivend (d : Fin 4) (acc : Fin 4) (s : State) : Host.Outcome State Fault Refusal :=
  .next (s.dspExec d (.divend acc))

/-- CLR. -/
def execClr (d : Fin 4) (acc : Fin 4) (s : State) : Host.Outcome State Fault Refusal :=
  .next (s.dspExec d (.clr acc))

/-- MOVA (R369). -/
def execMova (d : Fin 4) (acc : Fin 4) (field : AccField) (toReg : Bool) (reg : Fin 16) (s : State) : Host.Outcome State Fault Refusal :=
  .next (s.dspExec d (.mova acc field toReg reg))

/-- LDA (R369). -/
def execLda (d : Fin 4) (acc : Fin 4) (reg : Fin 16) (sh : Nat) (s : State) : Host.Outcome State Fault Refusal :=
  .next (s.dspExec d (.lda acc reg sh))

/-- NARROW (R377). -/
def execDspNarrow (d : Fin 4) (acc : Fin 4) (reg : Fin 16) (sh : Nat) (s : State) : Host.Outcome State Fault Refusal :=
  .next (s.dspExec d (.narrow acc reg sh))

/-- ADDA (R374). -/
def execAdda (d : Fin 4) (acc acc2 : Fin 4) (s : State) : Host.Outcome State Fault Refusal :=
  .next (s.dspExec d (.adda acc acc2))

/-- ASRA (R377). -/
def execAsra (d : Fin 4) (acc : Fin 4) (sh : Nat) (s : State) : Host.Outcome State Fault Refusal :=
  .next (s.dspExec d (.asra acc sh))

/-- LD (R371). -/
def execDspLd (d : Fin 4) (a : LdStArgs) (s : State) : Host.Outcome State Fault Refusal :=
  .next (s.dspExec d (.ld a))

/-- ST (R371). -/
def execDspSt (d : Fin 4) (a : LdStArgs) (s : State) : Host.Outcome State Fault Refusal :=
  .next (s.dspExec d (.st a))

/-- LDI (R374). -/
def execDspLdi (d : Fin 4) (reg : Fin 16) (high : Bool) (imm : W16) (s : State) : Host.Outcome State Fault Refusal :=
  .next (s.dspExec d (.ldi reg high imm))

/-- MOVEBLK (R385, R397): n words, not interruptible; at most 256 through the window. -/
def execMoveblk (d : Fin 4) (route : MoveRoute) (src dst : Fin 8) (count : DspCount) (s : State) :
    Host.Outcome State Fault Refusal :=
  .next (
    let x := s.dsps[d]
    let srcY := route = .yx || route = .yy
    let dstY := route = .xy || route = .yy
    if !s.dspRuns d || x.waiting then s
    else
      match x.fetchFault, x.countOf count with
      | some e, _ => s.dspFault d e x.pc false false 0
      | none, none => s.dspFault d .illegal x.pc false true 0
      | none, some n =>
        let win (y : Bool) (p : Fin 8) : Bool :=
          !y && decide (0x400000 ≤ (x.regs.p[p]).toNat ∧ (x.regs.p[p]).toNat < 0x800000)
        if decide (256 < n) && (win srcY src || win dstY dst) then
          s.dspFault d ⟨3, 3, some ((x.regs.p[if win srcY src then src else dst]).toNat)⟩ x.pc false true 0
        else
          let (n, s) := s.countFree n
          let base := if win srcY src then 120 else 4
          match State.dspMove d srcY dstY src dst n s with
          | (s, none) => (s.dspCycles d (base + n)).modDsp d (fun x => { x.advance 1 with rc := 0 })
          | (s, some (e, left)) =>
            let s := s.dspCycles d (base + (n - left))
            (s.modDsp d (fun x => { x with rc := BitVec.ofNat 32 left })).dspFault d e x.pc false true 0)

/-- MOVC (R369). -/
def execMovc (d : Fin 4) (fromCtl : Bool) (num : BitVec 6) (reg : Fin 16) (s : State) : Host.Outcome State Fault Refusal :=
  .next (s.dspStep d (fun s =>
    let x := s.dsps[d]
    if fromCtl then
      let (free, s) := if num = 24 ∧ x.stack.isEmpty then s.draw else (0, s)
      match x.ctlRead num.toNat free with
      | some v => .ok ((s.dspCycles d 1).modDsp d (fun x => (x.setReg reg v).advance 1))
      | none => .error .illegal
    else
      match x.ctlWrite num.toNat (x.reg reg) with
      | some y => .ok ((State.modDsp s d (fun _ => y)).dspCycles d 1 |>.modDsp d (fun x => x.advance 1))
      | none => .error .illegal))

/-- PMOD (R372). -/
def execPmod (d : Fin 4) (ptr : Fin 8) (n : W16) (s : State) : Host.Outcome State Fault Refusal :=
  .next (s.dspStep d (fun s =>
    match s.dsps[d].modify ptr n.toInt with
    | some q => .ok ((s.dspCycles d 1).modDsp d (fun x => (x.setPtr ptr q).advance 1))
    | none => .error .illegal))

/-- LRAISE (R395): the raise of a lock reference; none when it is not valid, ILLEGAL with scope 0. -/
def execLraise (d : Fin 4) (reg : Fin 16) (s : State) : Host.Outcome State Fault Refusal :=
  .next (s.dspStep d (fun s =>
    let r := s.dsps[d].reg reg
    let go (s : State) : State := (s.dspCycles d 1).modDsp d (fun x => x.advance 1)
    if !refValid r then .ok (go s)
    else if refScope r = 0 then .error .illegal
    else .ok (go (s.raiseRef none r))))

end Sys2Proof.Machine
end

