-- ==== Sys2Proof/Machine/Engines.lean ====
section
/-! DEFINITION. The meanings of engine operations and of parity errors in the array (R104, R115 to R117, R145 to R149, R167 to
R183). -/

namespace Sys2Proof.Machine

/-- Run the oldest operation of an engine of the share on a core, if it has one of the ops and may run. -/
def State.engine (s : State) (co : CoreId) (k : EngKind) (op : Nat) : State :=
  match s.readyOp co k [op] with
  | none => s
  | some (r, h, o) =>
    match k with
    | .matrix => s.runLayer co r h o
    | .stripe => s.runStripe co r h o
    | .attn => s.runAttn co r h o

/-- MATRIX_LAYER (R104). -/
def execMatrixLayer (co : CoreId) (s : State) : Host.Outcome State Fault Refusal := .next (s.engine co .matrix 0x01)

/-- INGEST (R145). -/
def execIngest (co : CoreId) (s : State) : Host.Outcome State Fault Refusal := .next (s.engine co .stripe 0x10)

/-- GATHER (R146). -/
def execGather (co : CoreId) (s : State) : Host.Outcome State Fault Refusal := .next (s.engine co .stripe 0x11)

/-- DEPTHWISE (R147). -/
def execDepthwise (co : CoreId) (s : State) : Host.Outcome State Fault Refusal := .next (s.engine co .stripe 0x12)

/-- MAXPOOL (R148). -/
def execMaxpool (co : CoreId) (s : State) : Host.Outcome State Fault Refusal := .next (s.engine co .stripe 0x13)

/-- AVGPOOL (R149). -/
def execAvgpool (co : CoreId) (s : State) : Host.Outcome State Fault Refusal := .next (s.engine co .stripe 0x14)

/-- APPEND (R167). -/
def execAppend (co : CoreId) (s : State) : Host.Outcome State Fault Refusal := .next (s.engine co .attn 0x30)

/-- ATTEND (R171). -/
def execAttend (co : CoreId) (s : State) : Host.Outcome State Fault Refusal := .next (s.engine co .attn 0x31)

/-- ATTEND_BWD (R180). -/
def execAttendBwd (co : CoreId) (s : State) : Host.Outcome State Fault Refusal := .next (s.engine co .attn 0x32)

end Sys2Proof.Machine
end

