-- ==== Sys2Proof/Machine/LinkCtl.lean ====
section
/-! DEFINITION. Zorud ports, control messages and the time servo (R477 to R480, R489, R504 to R510). -/

namespace Sys2Proof.Machine

/-! ### Ports -/

/-- The lanes of a trained port (R478). -/
def lanesOf : TrainResult → BitVec 4
  | .four => 0xF
  | .low => 0x3
  | .high => 0xC
  | .failed => 0

/-- A port comes up (R478): LINK_PORT_UP; the neighbour's receive buffers are free (R484), and a HELLO is due (R489). -/
def State.portUp (s : State) (p : Fin 4) (r : TrainResult) : State :=
  let z := s.link.port[p]
  let s := s.modZp p (fun z =>
    { z with
      up := true, lanes := lanesOf r, credit0 := if z.up then z.credit0 else 256, credit1 := if z.up then z.credit1 else 256,
      helloDue := s.now })
  s.event 0x0703 0 (0x10 + p.val) false (leBytes 1 p.val ++ leBytes 1 (lanesOf r).toNat ++ leBytes 1 z.nbrIndex.toNat)

/-- The training of a port ends (R478); one that cannot train stays down, or goes down. -/
def State.portTrained (s : State) (p : Fin 4) (r : TrainResult) : State :=
  if r = .failed then
    if s.link.port[p].up then s.portDown p 0 true else s.modZp p (fun z => { z with retry := s.now + 10000000 })
  else s.portUp p r

/-- A port counts a CRC error (R479, R482): 1000 within 1 ms are a CRC storm. -/
def State.crcError (s : State) (p : Fin 4) : State :=
  let ts := s.now :: s.link.port[p].errTimes.filter (fun t => s.now < t + 1000000)
  let s := s.modZp p (fun z => { z with crc := z.crc + 1, errTimes := ts })
  if 1000 ≤ ts.length ∧ ¬ s.link.port[p].storm then
    (s.modZp p (fun z => { z with storm := true })).lnkErr (1#15 <<< (4 + p.val))
  else s

/-- A frame with a good header arrives at a port: counted good, first detected bad, or stomped (R483, R521). -/
def State.heard (s : State) (p : Fin 4) (f : ZFrame) : State :=
  if f.crcOk then s.modZp p (fun z => { z with rx := z.rx + 1 })
  else if f.stomped then s.modZp p (fun z => { z with stomp := z.stomp + 1 })
  else s.crcError p

/-- The port of a frame works: the reach is on and the port up. -/
def State.portOn (s : State) (p : Fin 4) : Bool := s.on 5 && s.link.port[p].up

/-- A frame of a type comes to this device's own index (R488). -/
def State.mine (s : State) (p : Fin 4) (f : ZFrame) (ty : Byte) : Bool :=
  s.portOn p && decide (f.type = ty) && decide (s.dev.index ≠ 0xFF) && decide (bits f.dst.toNat 0 6 = s.dev.index.toNat)

/-- What a good frame for this device does; a device OUT_OF_SERVICE discards it (R492). -/
def State.deliver (s : State) (p : Fin 4) (f : ZFrame) (act : State → State) : State :=
  let s := s.heard p f
  if !f.crcOk then s else if s.dev.state = .outOfService then s.localDrop else act s

/-- The source index of a frame. -/
def frameFrom (f : ZFrame) : Nat := bits f.src.toNat 0 6

/-- This device's time is locked, as HELLO and TIME_RESP say it (R489, R506, R507). -/
def Time.isLocked (t : Time) : Bool := t.role = 1 || (t.role = 2 && t.locked)

/-- Hops from the grandmaster (R507, R521). -/
def Time.shownHops (t : Time) : Byte := if t.role = 1 then 0 else if t.role = 2 && t.ever then t.hops else 0xFF

/-- LNK_PORT_STATUS (R521). -/
def State.portStatus (s : State) (p : Fin 4) : Nat :=
  let z := s.link.port[p]
  let hello := z.nbrHello.any (fun t => decide (s.now ≤ t + 1000000))
  z.nbrIndex.toNat * 0x1000000 + z.nbrPort % 4 * 0x400000 + z.lanes.toNat * 0x10000 +
    (if z.enabled then s.link.rate else 0) * 0x4000 + 8 * b2n z.dup + 4 * b2n (s.time.role = 2 && s.time.upstream = p) +
    2 * b2n hello + b2n z.up

/-- A neighbour carries this device's index (R489). -/
def State.dupIndex (s : State) (p : Fin 4) : State :=
  ((s.modZp p (fun z => { z with dup := true })).event 0x0704 0 (0x10 + p.val) true
    (leBytes 1 p.val ++ leBytes 1 s.dev.index.toNat)).lnkErr 0x4000

/-! ### Control messages (R504, R505, R516; their payloads are log entry 90) -/

/-- A CTRL frame is sent, for the first time. -/
def State.ctrlSend (s : State) (dst : Nat) (payload : List Byte) (why : CtrlWhy) : State :=
  let id := s.link.msgId
  let o : CtrlOut := ⟨id, BitVec.ofNat 8 dst, payload, 1, s.now, s.now, why⟩
  State.sendFrame { s with link := { s.link with msgId := id + 1, out := s.link.out ++ [o] } } 0x04 dst false id.toNat 0 0
    payload

/-- A CTRL message is done with. -/
def State.ctrlForget (s : State) (o : CtrlOut) : State :=
  { s with link := { s.link with out := s.link.out.filter (fun x => x.id ≠ o.id) } }

/-- The unit size and destination mask of a transmit stream (R497, R504). -/
def State.txAnswer (s : State) (t : Fin 16) : Nat × Nat :=
  let x := s.link.txs[t]
  match x.kind with
  | 1 =>
    let c := s.aud.port[(Fin.ofNat 5 x.source : Fin 5)].cfg
    (c.stride c.eIn, x.dests)
  | 2 => (x.unitBytes, x.dests)
  | _ => (0, 0)

/-- LINK_STREAM_MISMATCH of receive stream r (R504). -/
def State.mismatch (s : State) (r : Fin 16) (reason : Nat) : State :=
  s.event 0x0706 0 0xFF false (leBytes 1 r.val ++ leBytes 1 reason)

/-- The check of a receive stream against what its source said (R504). -/
def State.streamCheck (s : State) (r : Fin 16) (unit mask : Nat) : State :=
  let x := s.link.rxs[r]
  if !x.on then s
  else if !bit mask s.dev.index.toNat then s.mismatch r 1
  else if unit ≠ x.unitBytes then s.mismatch r 2
  else s

/-- Act on a CTRL message of another device: a probe asks nothing more than its acknowledgement, a query of a transmit stream
is answered, an answer ends the check of a receive stream. -/
def State.ctrlAct (s : State) (src : Nat) (p : List Byte) : State :=
  let x : Fin 16 := Fin.ofNat 16 (field p 1 1)
  let r : Fin 16 := Fin.ofNat 16 (field p 2 1)
  match field p 0 1 with
  | 1 =>
    let (unit, mask) := s.txAnswer x
    s.ctrlSend src ([2] ++ leBytes 1 x.val ++ leBytes 1 r.val ++ [0] ++ leBytes 4 unit ++ leBytes 8 mask) .answer
  | 2 =>
    match s.link.out.find? (fun o => o.why = .check r && decide (o.dst.toNat = src)) with
    | some o => (s.ctrlForget o).streamCheck r (field p 4 4) (field p 8 8)
    | none => s
  | _ => s

/-- A CTRL message found no answer: five sends, and the wait after the last (R504, R505, R516). -/
def State.ctrlFail (s : State) (o : CtrlOut) : State :=
  let s := s.ctrlForget o
  match o.why with
  | .check r => s.mismatch r 0
  | .probe m => s.replyFor m 0x0704 (ok ([1] ++ leBytes 1 o.sends ++ zeros 6))
  | .answer => s

/-- A CTRL message is acknowledged: a probe is answered, a check waits 1 ms for its answer. -/
def State.ctrlAcked (s : State) (o : CtrlOut) : State :=
  match o.why with
  | .check _ =>
    { s with
      link := { s.link with
        out := s.link.out.map (fun (x : CtrlOut) => if x.id = o.id then { x with sends := 5, last := s.now + 800000 } else x) } }
  | .probe m =>
    (s.ctrlForget o).replyFor m 0x0704 (ok ([0] ++ leBytes 1 o.sends ++ zeros 2 ++ leBytes 4 (s.now - o.last)))
  | .answer => s.ctrlForget o

/-- Remember a message id of a source, of the last 64 (R505). -/
def seenAdd (l : List (Byte × List W16)) (src : Byte) (id : W16) : List (Byte × List W16) :=
  let old := ((l.find? (fun x => x.1 = src)).map (·.2)).getD []
  (src, (id :: old).take 64) :: l.filter (fun x => x.1 ≠ src)

/-! ### Time -/

/-- SYSTIME steps by a signed number of nanoseconds, with TIME_STEP (R510). -/
def State.timeStep (s : State) (by_ : Int) : State :=
  State.event { s with dev := { s.dev with systime := BitVec.ofInt 64 ((s.dev.systime.toNat : Int) + by_) } } 0x0709 0 0xFF
    true (leBytes 8 (wrapN 64 by_))

/-- A value within bounds. -/
def clampInt (n v : Int) : Int := max (-n) (min n v)

/-- time_update (R508), with the step of R510 and the hops of R507. -/
def State.timeUpdate (s : State) (t1 t2 t3 t4 : Int) (upLocked : Bool) (hops : Byte) : State :=
  let t := s.time
  let th := ((t4 - t3) - (t2 - t1) - t.asym).tdiv 2
  let integ := clampInt (2 ^ 30) (t.integ + th)
  let steer := clampInt 858993 (-(th * t.kp + integ * t.ki))
  let good := if th.natAbs ≤ 800 ∧ upLocked then t.good + 1 else 0
  let bad := if 3200 < th.natAbs then t.bad + 1 else 0
  let first := t.first
  let s := { s with
    time := { t with
      theta := th, integ := integ, steer := steer, good := good, bad := bad, first := false, req := none, misses := 0,
      delay := ((t2 - t1) + (t4 - t3)).tdiv 2, exchanges := t.exchanges + 1, hops := if hops = 0xFF then 0xFF else hops + 1 } }
  let s := if !t.locked && decide (16 ≤ good) then
      State.event { s with time := { s.time with locked := true, ever := true } } 0x0707 0 0xFF false
        (leBytes 1 s.time.hops.toNat ++ leBytes 4 (int32 th))
    else s
  let s := if s.time.locked && (decide (4 ≤ bad) || !upLocked) then s.timeUnlock (if 4 ≤ bad then 0 else 2) else s
  if first && t.step && !s.active && decide (16000 < th.natAbs) then
    State.timeStep { s with time := { s.time with integ := 0 } } (-(th.tdiv 16))
  else s

end Sys2Proof.Machine
end

