-- ==== Sys2Proof/Machine/Frames.lean ====
section
/-! DEFINITION. The meanings of what happens at the Zorud ports: ports down and up, frames, HELLO, trackers, streams, control
messages, time (R478 to R510). -/

namespace Sys2Proof.Machine

/-- LINK_PORT_DOWN (R478): an enabled port loses block lock. -/
def execLinkPortDown (p : Fin 4) (s : State) : Host.Outcome State Fault Refusal :=
  .next (if s.portOn p && s.link.port[p].enabled then s.portDown p 0 true else s)

/-- PORT_RETRAIN (R478, R479): every 10 ms, while it is enabled and down, and not held for its test or by LINK_UP. -/
def execPortRetrain (p : Fin 4) (result : TrainResult) (s : State) : Host.Outcome State Fault Refusal :=
  .next (
    let z := s.link.port[p]
    if s.on 5 && z.enabled && !z.up && !z.storm && decide (z.retry ≤ s.now) && (s.flights (fun c _ => c = 0x0701)).isEmpty then
      s.portTrained p result
    else s)

/-- CRC_STORM (R479, R551): firmware takes the port down with reason 2 and tests it at once. -/
def execCrcStorm (p : Fin 4) (s : State) : Host.Outcome State Fault Refusal :=
  .next (
    if s.portOn p && s.link.port[p].storm && s.fwUp then
      let s := (s.portDown p 2 true).queueTest (.zport p) 0x0702 none
      { s with
        health := { s.health with
          tests := s.health.tests.map (fun (t : Test) =>
            if t.unit = .zport p ∧ t.st = .pending then { t with st := .running, start := some s.now } else t) } }
    else s)

/-- HEADER_CRC_DISCARD (R479, R482). -/
def execHeaderCrcDiscard (p : Fin 4) (s : State) : Host.Outcome State Fault Refusal :=
  .next (if s.portOn p then s.crcError p else s)

/-- The frames that travel on (R481). -/
def routed (f : ZFrame) : Bool := decide (1 ≤ f.type.toNat ∧ f.type.toNat ≤ 5)

/-- A frame's priority (R484): DATA, STREAM and the RAISE of a barge have priority 1. -/
def framePrio1 (f : ZFrame) : Bool :=
  f.type = 0x01 || f.type = 0x03 || (f.type = 0x02 && decide (field f.payload 4 4 ≠ 0 ∨ f.id ≠ 0))

/-- TRANSIT_FRAME (R481, R483, R490): forwarded by the table with ttl decremented; a frame with a bad payload CRC leaves stomped;
a frame of an unknown type is discarded. -/
def execTransitFrame (p : Fin 4) (fr : ZFrame) (s : State) : Host.Outcome State Fault Refusal :=
  .next (
    let ours := decide (s.dev.index ≠ 0xFF) && decide (bits fr.dst.toNat 0 6 = s.dev.index.toNat)
    let one := decide (0x08 ≤ fr.type.toNat ∧ fr.type.toNat ≤ 0x0A)
    if !s.portOn p || one || (routed fr && ours) then s else
    let s := s.heard p fr
    let ttl := bits fr.ttl.toNat 0 5
    if !routed fr then s
    else if ttl = 0 then s.lnkErr 0x100
    else s.routeFrame (framePrio1 fr) { fr with ttl := BitVec.ofNat 8 (ttl - 1), stomped := !fr.crcOk })

/-- OUTPUT_WAIT_DISCARD (R484): the frame in front has waited 20 µs. -/
def execOutputWaitDiscard (p : Fin 4) (prio : Bool) (s : State) : Host.Outcome State Fault Refusal :=
  .next (
    match (if prio then s.link.port[p].q1 else s.link.port[p].q0) with
    | [] => s
    | (_, since) :: rest =>
      if s.now < since + 20000 then s
      else
        (s.modZp p (fun z =>
          let z := { z with drop := z.drop + 1, q0 := if prio then z.q0 else rest, q1 := if prio then rest else z.q1 }
          z.drain prio rest.length)).lnkErr 0x400)

/-- ZORUD_CREDIT_RETURN (R484). -/
def execZorudCreditReturn (p : Fin 4) (prio : Bool) (units : Nat) (s : State) : Host.Outcome State Fault Refusal :=
  .next (
    if s.portOn p then
      s.modZp p (fun z =>
        if prio then ({ z with credit1 := min 256 (z.credit1 + units) }).drain true z.q1.length
        else ({ z with credit0 := min 256 (z.credit0 + units) }).drain false z.q0.length)
    else s)

/-- Whether a DATA frame may be written (R494). -/
def State.dataOk (s : State) (a n : Nat) : Bool :=
  match spaceOf a, spaceOf (a + n - 1) with
  | .dram p _, .dram q _ => s.inRegions a n && s.clusterUp p && s.clusterUp q
  | .clus c o, .clus d _ => c = d && s.clusterUp c && !s.protectedIn c o n
  | _, _ => false

/-- The tracker of a transfer, opened if there is room (R495), after a frame that was written or not. -/
def State.track (s : State) (src : Byte) (id : W16) (written : Bool) : State :=
  let f (t : Tracker) : Tracker :=
    { t with count := if written then t.count + 1 else t.count, bad := t.bad || !written, last := s.now }
  if s.link.trackers.any (fun t => t.src = src && t.id = id) then
    { s with
      link := { s.link with trackers := s.link.trackers.map (fun (t : Tracker) => if t.src = src && t.id = id then f t else t) } }
  else if s.link.trackers.length < 256 then
    { s with link := { s.link with trackers := f ⟨src, id, 0, false, s.now⟩ :: s.link.trackers } }
  else s

/-- DATA_FRAME (R494, R495). -/
def execDataFrame (p : Fin 4) (fr : ZFrame) (s : State) : Host.Outcome State Fault Refusal :=
  .next (
    if s.mine p fr 0x01 then
      s.deliver p fr (fun s =>
        let a := bits (field fr.payload 0 8) 0 48
        let data := fr.payload.drop 8
        let src := BitVec.ofNat 8 (frameFrom fr)
        if s.dataOk a data.length then ((s.devWrite none a data).1).track src fr.id true
        else (s.track src fr.id false).localDrop)
    else s)

/-- RAISE_FRAME (R244, R246, R495, R496). -/
def execRaiseFrame (p : Fin 4) (fr : ZFrame) (s : State) : Host.Outcome State Fault Refusal :=
  .next (
    if s.mine p fr 0x02 then
      s.deliver p fr (fun s =>
        let ref : W32 := BitVec.ofNat 32 (field fr.payload 0 4)
        let count := field fr.payload 4 4
        let src := BitVec.ofNat 8 (frameFrom fr)
        let apply (s : State) : State :=
          if refValid ref then s.applyRaise (some (refCluster ref)) (refLock ref) (refCount ref) else s
        let same (t : Tracker) : Bool := t.src = src && t.id = fr.id
        if count = 0 ∧ fr.id = 0 then apply s
        else
          match s.link.trackers.find? same with
          | some t =>
            if t.count.toNat = count ∧ ¬ t.bad then
              apply { s with link := { s.link with trackers := s.link.trackers.filter (fun t => !same t) } }
            else
              (State.event
                { s with
                  link := { s.link with
                    trackers := s.link.trackers.map (fun (t : Tracker) => if same t then { t with last := s.now } else t) } }
                0x0701 0 0xFF false (leBytes 4 (field fr.payload 8 4))).lnkErr 0x1000
          | none => (s.event 0x0701 0 0xFF false (leBytes 4 (field fr.payload 8 4))).lnkErr 0x1000)
    else s)

/-- STREAM_FRAME (R498 to R502). -/
def execStreamFrame (p : Fin 4) (fr : ZFrame) (s : State) : Host.Outcome State Fault Refusal :=
  .next (if s.mine p fr 0x03 then s.deliver p fr (fun s => s.streamIn fr) else s)

/-- CTRL_FRAME (R505): acknowledged while firmware runs, and acted on once. -/
def execCtrlFrame (p : Fin 4) (fr : ZFrame) (s : State) : Host.Outcome State Fault Refusal :=
  .next (
    if s.mine p fr 0x04 then
      s.deliver p fr (fun s =>
        if !s.fwUp then s else
        let src := BitVec.ofNat 8 (frameFrom fr)
        let s := s.sendFrame 0x05 (frameFrom fr) false fr.id.toNat 0 0 []
        if s.link.seen.any (fun x => x.1 = src && decide (fr.id ∈ x.2)) then s
        else State.ctrlAct { s with link := { s.link with seen := seenAdd s.link.seen src fr.id } } (frameFrom fr) fr.payload)
    else s)

/-- CTRL_ACK_FRAME (R505). -/
def execCtrlAckFrame (p : Fin 4) (fr : ZFrame) (s : State) : Host.Outcome State Fault Refusal :=
  .next (
    if s.mine p fr 0x05 then
      let s := s.heard p fr
      if !fr.crcOk || !s.fwUp then s else
      match s.link.out.find? (fun o => o.id = fr.id && decide (o.dst.toNat = (frameFrom fr))) with
      | some o => s.ctrlAcked o
      | none => s
    else s)

/-- HELLO_FRAME (R489): a neighbour that newly carries this device's index is a duplicate. -/
def execHelloFrame (p : Fin 4) (fr : ZFrame) (s : State) : Host.Outcome State Fault Refusal :=
  .next (
    if s.portOn p && decide (fr.type = 0x08) then
      let s := s.heard p fr
      if !fr.crcOk then s else
      let i : Byte := BitVec.ofNat 8 (field fr.payload 0 1)
      let dup := decide (i = s.dev.index ∧ i ≠ 0xFF)
      let old := s.link.port[p].dup
      let s := s.modZp p (fun z =>
        { z with
          nbrIndex := i, nbrPort := field fr.payload 1 1 % 4, nbrHello := some s.now, nbrLocked := bit (field fr.payload 3 1) 0,
          nbrHops := BitVec.ofNat 8 (field fr.payload 4 1), dup := dup })
      if dup && !old then s.dupIndex p else s
    else s)

/-- A frame that travels one hop (R481, R484). -/
def State.hop (s : State) (p : Fin 4) (ty : Byte) (payload : List Byte) : State :=
  s.output p false ⟨ty, 0, s.dev.index, 0, 0, 0, 0, payload, true, false⟩

/-- TIME_REQ_FRAME (R506, R507): the answer carries t1, t2, t3, the lock state and the hops (log entry 91). -/
def execTimeReqFrame (p : Fin 4) (fr : ZFrame) (stamp16 : Nat) (s : State) : Host.Outcome State Fault Refusal :=
  .next (
    if s.portOn p && decide (fr.type = 0x09) then
      let s := s.heard p fr
      if !fr.crcOk || decide (s.time.role = 0) then s else
      let (t3, s) := s.draw
      s.hop p 0x0A (leBytes 8 (field fr.payload 0 8) ++ leBytes 8 stamp16 ++ leBytes 8 t3 ++
        leBytes 1 (b2n s.time.isLocked) ++ leBytes 1 s.time.shownHops.toNat ++ zeros 6)
    else s)

/-- TIME_RESP_FRAME (R507 to R510): the answer to the request in progress, on the upstream port. -/
def execTimeRespFrame (p : Fin 4) (fr : ZFrame) (stamp16 : Nat) (s : State) : Host.Outcome State Fault Refusal :=
  .next (
    if s.portOn p && decide (fr.type = 0x0A) then
      let s := s.heard p fr
      let t1 := field fr.payload 0 8
      if fr.crcOk && decide (s.time.role = 2 ∧ s.time.upstream = p ∧ s.time.req = some t1) then
        s.timeUpdate t1 (field fr.payload 8 8) (field fr.payload 16 8) stamp16 (bit (field fr.payload 24 1) 0)
          (BitVec.ofNat 8 (field fr.payload 25 1))
      else s
    else s)

/-- HELLO_SEND (R489). -/
def execHelloSend (p : Fin 4) (s : State) : Host.Outcome State Fault Refusal :=
  .next (
    if s.portOn p && decide (s.link.port[p].helloDue ≤ s.now) then
      let s := s.modZp p (fun z => { z with helloDue := z.helloDue + 100000 })
      s.hop p 0x08 ([s.dev.index] ++ leBytes 1 p.val ++ leBytes 1 (s.dev.size.getD 0) ++ leBytes 1 (b2n s.time.isLocked) ++
        [s.time.shownHops] ++ zeros 3)
    else s)

/-- HELLO_AGE_OUT (R489): the neighbour stays known by its last HELLO. -/
def execHelloAgeOut (p : Fin 4) (s : State) : Host.Outcome State Fault Refusal :=
  .next (
    if s.link.port[p].nbrHello.any (fun t => decide (t + 1000000 < s.now)) then
      s.modZp p (fun z => { z with nbrHello := none })
    else s)

/-- TRACKER_TIMEOUT (R495). -/
def execTrackerTimeout (src : Byte) (id : W16) (s : State) : Host.Outcome State Fault Refusal :=
  .next { s with
    link := { s.link with
      trackers := s.link.trackers.filter (fun t => !(t.src = src && t.id = id && decide (t.last + 1000000 ≤ s.now))) } }

/-- STREAM_UNIT_DUE (R499, R500, R502). -/
def execStreamUnitDue (r : Fin 16) (s : State) : Host.Outcome State Fault Refusal :=
  .next (
    let x := s.link.rxs[r]
    if x.on && x.started && s.on 5 && s.active && s.audUp (audPlace x.ring) &&
        decide (x.predicted x.unit + x.periodNs + x.dueUs * 1000 < s.now) then
      s.finaliseUnit r
    else s)

/-- STREAM_STALL (R501). -/
def execStreamStall (r : Fin 16) (s : State) : Host.Outcome State Fault Refusal :=
  .next (
    let x := s.link.rxs[r]
    if x.on && x.started && !x.stalled && s.on 5 && decide (x.lastFrame + 4 * x.periodNs ≤ s.now) then
      ((s.modRxs r (fun x => { x with stalled := true })).event 0x0705 0 0xFF false
        (leBytes 1 r.val ++ leBytes 1 0 ++ w32 x.unit)).lnkErr 0x2000
    else s)

/-- CTRL_RESEND (R505): sent again after 200 µs; after five sends it has failed. -/
def execCtrlResend (id : W16) (s : State) : Host.Outcome State Fault Refusal :=
  .next (
    match s.link.out.find? (fun o => o.id = id) with
    | some o =>
      if !s.fwUp || decide (s.now < o.last + 200000) then s
      else if 5 ≤ o.sends then s.ctrlFail o
      else
        State.sendFrame
          { s with
            link := { s.link with
              out := s.link.out.map (fun (x : CtrlOut) =>
                if x.id = id then { x with sends := x.sends + 1, last := s.now } else x) } }
          0x04 o.dst.toNat false id.toNat 0 0 o.payload
    | none => s)

/-- TIME_REQ_SEND (R507): one interval after the last; a request still unanswered is an interval without response (R509). -/
def execTimeReqSend (stamp16 : Nat) (s : State) : Host.Outcome State Fault Refusal :=
  .next (
    let t := s.time
    if decide (t.role = 2 ∧ t.reqAt + t.interval * 1000 ≤ s.now) && s.portOn t.upstream then
      let s := { s with
        time := { t with
          req := some (stamp16 % 2 ^ 64), reqAt := s.now, misses := if t.req.isSome then t.misses + 1 else t.misses } }
      s.hop t.upstream 0x09 (leBytes 8 stamp16)
    else s)

/-- TIME_RESPONSE_TIMEOUT (R509): 8 consecutive intervals without a TIME_RESP. -/
def execTimeResponseTimeout (s : State) : Host.Outcome State Fault Refusal :=
  .next (
    let t := s.time
    let n := t.misses + (if t.req.isSome ∧ t.reqAt + t.interval * 1000 ≤ s.now then 1 else 0)
    if t.role = 2 ∧ 8 ≤ n then s.timeUnlock 1 else s)

end Sys2Proof.Machine
end

