-- ==== Sys2Proof/Machine/LinkCmds.lean ====
section
/-! DEFINITION. The meanings of the LINK and TIME commands, and of the end of the training LINK_UP starts (R478, R513 to
R519). -/

namespace Sys2Proof.Machine

/-- E_LINK_OFF, before any other check (R519). -/
def State.linkOff (s : State) : Bool × Reply := (!s.on 5, err 0x8A01)

/-- LINK_UP (R513): the ports not named go down at once; the others train until LINK_TRAINING_DONE. -/
def execLinkUp (m : Fin 8) (s : State) : Host.Outcome State Fault Refusal :=
  .next (s.withTaken m 0x0701 (fun t =>
    let p := t.payload
    let mask := field p 0 1
    let rate := field p 1 1
    match ([s.linkOff, (decide (15 < mask), err 0x8006 (some 0)), (decide (rate < 1 ∨ 2 < rate), err 0x8006 (some 1)),
        (decide (field p 2 2 ≠ 0), err 0x8006 (some 2))] : List (Bool × Reply)).find? (fun x => x.1) with
    | some x => s.reply m x.2
    | none =>
      let oldRate := s.link.rate
      let oldPorts := ((List.finRange 4).map (fun q => if s.link.port[q].enabled then 2 ^ q.val else 0)).sum
      let s := (List.finRange 4).foldl
        (fun (s : State) q =>
          if bit mask q.val then s.modZp q (fun z => { z with enabled := true })
          else State.modZp (if s.link.port[q].up then s.portDown q 1 true else s) q (fun z => { z with enabled := false })) s
      State.fly { s with link := { s.link with rate := rate } } m 0x0701 [mask, oldRate, oldPorts] []))

/-- The result byte of a port (R513). -/
def resultByte (enabled : Bool) (r : TrainResult) : Nat :=
  if !enabled then 3 else match r with
    | .four => 0
    | .low => 1
    | .high => 1
    | .failed => 2

/-- LINK_TRAINING_DONE (R478, R513): every enabled port that can train does so; a port held for its test, or whose reach went
off, did not train. -/
def execLinkTrainingDone (r0 r1 r2 r3 : TrainResult) (s : State) : Host.Outcome State Fault Refusal :=
  .next (
    let l := s.flights (fun c _ => c = 0x0701)
    if l.isEmpty then s else
    let res (p : Fin 4) : TrainResult :=
      let r := match p with
        | 0 => r0
        | 1 => r1
        | 2 => r2
        | 3 => r3
      if s.on 5 && !s.link.port[p].storm then r else .failed
    let bytes := (List.finRange 4).map (fun p => resultByte s.link.port[p].enabled (res p))
    let s := (List.finRange 4).foldl (fun (s : State) p =>
      if s.link.port[p].enabled then s.portTrained p (res p) else s) s
    let part := bytes.any (fun b => decide (b = 1 ∨ b = 2))
    s.replyAll l ⟨if part then 0x4101 else 0, bytes.flatMap (leBytes 1)⟩)

/-- LINK_INDEX (R487, R514). -/
def execLinkIndex (m : Fin 8) (s : State) : Host.Outcome State Fault Refusal :=
  .next (s.answer m 0x0702 (fun t =>
    let i := field t.payload 0 1
    let n := field t.payload 1 1
    let used := s.link.route.toList.any (fun e => e ≠ 0xFF) || s.link.txs.toList.any (fun x => x.kind ≠ 0) ||
      s.link.rxs.toList.any (fun x => x.on)
    s.checked
      [s.linkOff, (decide (field t.payload 2 2 ≠ 0), err 0x8006 (some 2)), (decide (n < 1 ∨ 48 < n), err 0x8A03 (some 1)),
       (decide (n ≤ i), err 0x8A03 (some 0)), (used, err 0x8A04)]
      (fun s =>
        let s := State.groupChanged { s with dev := { s.dev with index := BitVec.ofNat 8 i, size := some n } }
        let dups := (List.finRange 4).filter (fun p => s.link.port[p].nbrHello.isSome && s.link.port[p].nbrIndex.toNat = i)
        let s := dups.foldl State.dupIndex s
        (s, ⟨if dups.isEmpty then 0 else 0x4102, []⟩))))

/-- The checks that every LINK_ROUTE makes (R515). -/
def State.routeChecks (s : State) (streams : Bool) : List (Bool × Reply) :=
  [(decide (s.dev.index = 0xFF), err 0x8A05), (streams && s.active, err 0x8A07)]

/-- LINK_ROUTE ops other than 2, 3 and 4: ROUTES replaces the entries it names (R491). -/
def execLinkRouteRoutes (m : Fin 8) (s : State) : Host.Outcome State Fault Refusal :=
  .next (s.answerIf m 0x0703 (fun op => decide (op < 2 ∨ 4 < op)) (fun t =>
    let p := t.payload
    let n := field p 1 1
    let ttl := field p 2 1
    let es := (List.range n).map (fun i => (field p (4 + 2 * i) 1, field p (5 + 2 * i) 1))
    let bad := es.findIdx? (fun (e : Nat × Nat) => decide (47 < e.1 ∨ (3 < e.2 ∧ e.2 ≠ 0xFF)))
    s.checked
      ([s.linkOff, (decide (field p 0 1 ≠ 1), err 0x8006 (some 0)), (decide (n < 1 ∨ 48 < n), err 0x8006 (some 1)),
        (decide (31 < ttl), err 0x8006 (some 2)), (decide (field p 3 1 ≠ 0), err 0x8006 (some 3)),
        (bad.isSome, err 0x8006 (bad.map (fun i => 4 + 2 * i)))] ++ s.routeChecks false)
      (fun s =>
        let set (v : Vector Byte 48) (e : Nat × Nat) : Vector Byte 48 :=
          Vector.ofFn (fun i => if i.val = e.1 then BitVec.ofNat 8 e.2 else v[i])
        ({ s with
           link := { s.link with route := es.foldl set s.link.route, ttl := if ttl = 0 then s.link.ttl else ttl } }, ok []))))

/-- E_LINK_STREAM for a ring of `n` bytes (R515): it breaks R336, or meets another receive ring or a committed area. -/
def State.ringClash (s : State) (ring n : Nat) (skip : Option (Fin 16)) : Bool :=
  let place := audPlace ring
  let rings := ((List.finRange 16).filter (fun r => s.link.rxs[r].on && decide (some r ≠ skip))).map (fun r =>
    (audPlace s.link.rxs[r].ring, s.link.rxs[r].k * (64 + s.link.rxs[r].unitBytes)))
  let areas := (s.cfg.committed.imgAreas ++ s.cfg.committed.audAreas).map (fun a => (a.place, a.len))
  place = .none || decide (place.off % 64 ≠ 0) || decide (place.size < place.off + n) ||
    (rings ++ areas).any (fun x => place.meets n x.1 x.2)

/-- A slot count of a stream (R515). -/
def slotsLegal (k : Nat) : Bool := k = 2 || k = 4 || k = 8 || k = 16

/-- A unit size of a stream (R515). -/
def unitLegal (n : Nat) : Bool := decide (64 ≤ n ∧ n ≤ 65536) && decide (n % 64 = 0)

/-- LINK_ROUTE TX_STREAM (R497, R515). -/
def execLinkRouteTxStream (m : Fin 8) (s : State) : Host.Outcome State Fault Refusal :=
  .next (s.answerIf m 0x0703 (fun op => op = 2) (fun t =>
    let p := t.payload
    let x : TxStream := ⟨field p 4 1, field p 5 1, field p 6 1, field p 8 4, field p 12 4, field p 16 8⟩
    let inRing := match audPlace x.ring with
      | .cluster _ _ => true
      | _ => false
    let noInput := decide (s.aud.port[(Fin.ofNat 5 x.source : Fin 5)].cfg.inMask = 0)
    s.checked
      ([s.linkOff, (decide (15 < field p 1 1), err 0x8006 (some 1)), (decide (field p 2 2 ≠ 0), err 0x8006 (some 2)),
        (decide (2 < x.kind), err 0x8006 (some 4)), (decide (x.kind = 1 ∧ 4 < x.source), err 0x8006 (some 5)),
        (decide (x.kind = 2) && !slotsLegal x.k, err 0x8006 (some 6)), (decide (field p 7 1 ≠ 0), err 0x8006 (some 7)),
        (decide (x.kind = 2) && !unitLegal x.unitBytes, err 0x8006 (some 12)),
        (decide (2 ^ 48 ≤ x.dests), err 0x8006 (some 16))] ++ s.routeChecks true ++
        [(decide (x.kind = 1) && noInput, err 0x8A06 (some 5)),
         (decide (x.kind = 2) && (!inRing || s.ringClash x.ring (x.k * x.unitBytes) none), err 0x8A06 (some 8))])
      (fun s =>
        let x := if x.kind = 0 then TxStream.off else x
        ({ s with link := { s.link with txs := vset s.link.txs (Fin.ofNat 16 (field p 1 1)) x } }, ok []))))

/-- LINK_ROUTE RX_STREAM (R498, R504, R515): the stream starts anew, and firmware asks its source about it. -/
def execLinkRouteRxStream (m : Fin 8) (s : State) : Host.Outcome State Fault Refusal :=
  .next (s.answerIf m 0x0703 (fun op => op = 3) (fun t =>
    let p := t.payload
    let r : Fin 16 := Fin.ofNat 16 (field p 1 1)
    let k := field p 6 1
    let ring := field p 8 4
    let unit := field p 12 4
    let src := field p 16 1
    let x := field p 17 1
    let raise : W32 := BitVec.ofNat 32 (field p 32 4)
    s.checked
      ([s.linkOff, (decide (15 < field p 1 1), err 0x8006 (some 1)), (decide (field p 2 2 ≠ 0), err 0x8006 (some 2)),
        (!slotsLegal k, err 0x8006 (some 6)), (decide (field p 7 1 ≠ 0), err 0x8006 (some 7)),
        (!unitLegal unit, err 0x8006 (some 12)), (decide (47 < src), err 0x8006 (some 16)), (decide (15 < x), err 0x8006 (some 17)),
        (decide (field p 18 6 ≠ 0), err 0x8006 (some 18)),
        (decide (field p 24 4 < 10000 ∨ 1000000000 < field p 24 4), err 0x8006 (some 24)),
        (decide (100000 < field p 28 4), err 0x8006 (some 28)),
        (!refLegal raise || (refValid raise && decide (1 < refScope raise)), err 0x8006 (some 32))] ++ s.routeChecks true ++
        [(s.ringClash ring (k * (64 + unit)) (some r), err 0x8A06 (some 8))])
      (fun s =>
        let s := s.modRxs r (fun o =>
          { RxStream.off with
            on := true, k := k, ring := ring, unitBytes := unit, src := src, stream := x, periodNs := field p 24 4,
            dueUs := field p 28 4, raise := raise, missing := o.missing, late := o.late })
        let s := if src = s.dev.index.toNat then
            let (u, mask) := s.txAnswer (Fin.ofNat 16 x)
            s.streamCheck r u mask
          else s.ctrlSend src ([1] ++ leBytes 1 x ++ leBytes 1 r.val ++ [0]) (.check r)
        (s, ok []))))

/-- LINK_ROUTE CLEAR_STREAMS (R515); the counters stay. -/
def execLinkRouteClearStreams (m : Fin 8) (s : State) : Host.Outcome State Fault Refusal :=
  .next (s.answerIf m 0x0703 (fun op => op = 4) (fun t =>
    s.checked
      ([s.linkOff, (decide (field t.payload 1 3 ≠ 0), err 0x8006 (some 1))] ++ s.routeChecks true)
      (fun s =>
        let off (x : RxStream) : RxStream := { RxStream.off with missing := x.missing, late := x.late }
        ({ s with
           link := { s.link with txs := Vector.replicate 16 TxStream.off, rxs := s.link.rxs.map off } }, ok []))))

/-- LINK_INFO op 0 (R516); other ops than 0 and 1 are refused here. -/
def execLinkInfoPorts (m : Fin 8) (s : State) : Host.Outcome State Fault Refusal :=
  .next (s.answerIf m 0x0704 (fun op => decide (op ≠ 1)) (fun t =>
    s.checked
      [s.linkOff, (decide (field t.payload 0 1 ≠ 0), err 0x8006 (some 0)), (decide (field t.payload 2 2 ≠ 0), err 0x8006 (some 2))]
      (fun s =>
        (s, ok ((List.finRange 4).flatMap (fun p => leBytes 4 (s.portStatus p) ++ w32 s.link.port[p].crc))))))

/-- LINK_INFO op 1 (R516): no route at once, its own index at once, else a CTRL probe whose acknowledgement replies. -/
def execLinkInfoProbe (m : Fin 8) (s : State) : Host.Outcome State Fault Refusal :=
  .next (s.withTaken m 0x0704 (fun t =>
    let d := field t.payload 1 1
    if field t.payload 0 1 ≠ 1 then s else
    match ([s.linkOff, (decide (47 < d), err 0x8006 (some 1)), (decide (field t.payload 2 2 ≠ 0), err 0x8006 (some 2))] :
        List (Bool × Reply)).find? (fun x => x.1) with
    | some x => s.reply m x.2
    | none =>
      if d = s.dev.index.toNat then s.reply m (ok ([0, 1] ++ zeros 6))
      else if s.dev.index = 0xFF ∨ s.link.route.toList.getD d 0xFF = 0xFF then s.reply m (ok ([2] ++ zeros 7))
      else (s.fly m 0x0704 [d] []).ctrlSend d (zeros 4) (.probe m)))

/-- TIME_SYNC (R510, R517). -/
def execTimeSync (m : Fin 8) (s : State) : Host.Outcome State Fault Refusal :=
  .next (s.answer m 0x0710 (fun t =>
    let p := t.payload
    let role := field p 0 1
    let up := field p 1 1
    let flags := field p 2 1
    let interval := field p 4 2
    let u : Fin 4 := Fin.ofNat 4 up
    s.checked
      [s.linkOff, (decide (2 < role), err 0x8006 (some 0)), (decide (3 < up), err 0x8006 (some 1)),
       (decide (3 < flags) || (bit flags 1 && decide (role ≠ 1)), err 0x8006 (some 2)),
       (decide (field p 3 1 ≠ 0), err 0x8006 (some 3)), (decide (interval < 16 ∨ 1024 < interval), err 0x8006 (some 4)),
       (decide (field p 12 4 ≠ 0), err 0x8006 (some 12)),
       (decide (role = 2) && !s.link.port[u].up, err 0x8A02 (some 1)), (bit flags 1 && s.active, err 0x8A08 (some 2))]
      (fun s =>
        let s := { s with
          time := { Time.reset with
            role := role, upstream := u, step := bit flags 0, interval := interval, kp := field p 6 2, ki := field p 8 2,
            asym := sgn 16 (field p 10 2), exchanges := s.time.exchanges, reqAt := s.now } }
        (if bit flags 1 then s.timeStep ((field p 16 8 : Nat) - (s.now : Int)) else s, ok []))))

/-- TIME_INFO (R518). -/
def execTimeInfo (m : Fin 8) (s : State) : Host.Outcome State Fault Refusal :=
  .next (s.answer m 0x0711 (fun _ =>
    s.checked [s.linkOff] (fun s =>
      let t := s.time
      (s, ok (leBytes 1 t.role ++ leBytes 1 (b2n t.isLocked) ++ leBytes 1 t.shownHops.toNat ++ leBytes 1 t.upstream.val ++
        leBytes 4 (int32 t.theta) ++ leBytes 4 (int32 t.delay) ++ leBytes 4 (int32 t.steer) ++ leBytes 4 (int32 t.integ) ++
        w32 t.exchanges ++ leBytes 8 s.now ++ zeros 8)))))

end Sys2Proof.Machine
end

