-- ==== Sys2Proof/Machine/Mailbox.lean ====
section
/-! DEFINITION. The meanings of mailbox posts, of firmware's taking of them, of SYS_INFO, and of an abandoned transaction
(R399 to R406, R420, R574). -/

namespace Sys2Proof.Machine

/-- The host writes 1 to a mailbox's state (R400): a post when it is IDLE or DONE, else nothing. -/
def State.mailboxWrite1 (s : State) (m : Fin 8) : State :=
  let b := s.mboxes[m]
  if s.on 3 && (b.st = 0 || b.st = 3) then
    let s := s.modMbox m (fun b => { b with page := b.page.putLe 7 1 1, posted := s.posts, postTime := s.now })
    { s with posts := s.posts + 1 }
  else s

/-- The host writes 0 to a mailbox's state (R401): a posted command is withdrawn; while BUSY the write is discarded. -/
def State.mailboxWrite0 (s : State) (m : Fin 8) : State :=
  if s.on 3 && decide (s.mboxes[m].st ≠ 2) then s.modMbox m (fun b => { b with page := b.page.putLe 7 1 0 }) else s

/-- MAILBOX_POST (R400). -/
def execMailboxPost (m : Fin 8) (s : State) : Host.Outcome State Fault Refusal := .next (s.mailboxWrite1 m)

/-- MAILBOX_WITHDRAW (R401). -/
def execMailboxWithdraw (m : Fin 8) (s : State) : Host.Outcome State Fault Refusal := .next (s.mailboxWrite0 m)

/-- The mailbox whose post comes first (R403): of posts in one 250 MHz cycle, that of the lowest mailbox. -/
def State.firstPost (s : State) : Option (Fin 8) :=
  (List.finRange 8).foldl
    (fun (b : Option (Fin 8)) m =>
      if s.mboxes[m].st ≠ 1 then b
      else match b with
        | none => some m
        | some k =>
          if s.mboxes[m].postTime / 4 ≠ s.mboxes[k].postTime / 4 ∧ s.mboxes[m].posted < s.mboxes[k].posted then some m
          else b) none

/-- The three kinds of command that are rejected, not queued, while an earlier one on their object is in flight (R258, R362,
R403, R600). -/
def State.rejectedBusy (s : State) (m : Fin 8) (t : Taken) : Bool :=
  let p := t.payload
  if (s.updates t).any (s.updateInFlight m) then true
  else if t.command = 0x0B01 then
    s.takenElsewhere m (fun x => decide (x.command = 0x0B01 ∧ field x.payload 0 1 = field p 0 1))
  else if t.command = 0x0A01 ∧ field p 0 1 = 0 then s.fw.load.isSome
  else if t.command = 0x0A10 then s.takenElsewhere m (fun x => decide (x.command = 0x0A10))
  else false

/-- MAILBOX_TAKE (R401 to R404, R409, R412): firmware takes the first post. A post equal to the last completed one gets the
kept reply again; one that fails its checks is answered at once; any other stays BUSY with its copy until its command's own
row executes it. -/
def execMailboxTake (s : State) : Host.Outcome State Fault Refusal :=
  .next (
    if !s.serving then s else
    match s.firstPost with
    | none => s
    | some m =>
      let page := s.mboxes[m].page
      let len := page.le 4 2
      let t : Taken := ⟨page.le 0 2, page.le 6 1, page.readBytes 16 (min len 4080)⟩
      let key := page.readBytes 0 7 ++ t.payload
      let order := 1 + (s.mboxes.toList.map (·.order)).foldl max 0
      let s := s.modMbox m (fun b => { b with page := b.page.putLe 7 1 2, taken := some t, flight := none, order := order })
      match s.mboxes[m].kept with
      | some (k, status, reply) =>
        if k = key then s.writeReply m ⟨status, reply⟩ true
        else match s.gate t.command t.context len t.payload with
          | some r => s.reply m r
          | none => if s.rejectedBusy m t then s.reply m (err 0x8401) else s
      | none =>
        match s.gate t.command t.context len t.payload with
        | some r => s.reply m r
        | none => if s.rejectedBusy m t then s.reply m (err 0x8401) else s)

/-- The firmware version of the image that runs (R583); with none running a free value (log entry 78). -/
def State.fwVersion (s : State) : Nat × State := if s.fw.slot = 0xFF then s.draw else (field s.fw.image 8 4, s)

/-- The SYS_INFO reply. -/
def State.sysInfoReply (s : State) : State × Reply :=
  let (v, s) := s.fwVersion
  (s, ok (leBytes 1 s.dev.state.code ++ leBytes 1 s.pwr.mode ++ [s.dev.index] ++ [s.fw.slot] ++ leBytes 4 v ++
    leBytes 2 0x0100 ++ leBytes 2 s.dev.powered.toNat ++ s.clusters.toList.flatMap (fun c => leBytes 1 c.healthy) ++
    leBytes 1 s.inReset ++ leBytes 1 (b2n s.cfg.txn.isSome) ++ leBytes 2 s.fw.settings.toNat ++ leBytes 4 s.escCount ++
    leBytes 8 s.now ++ zeros 16))

/-- SYS_INFO (R406). -/
def execSysInfo (m : Fin 8) (s : State) : Host.Outcome State Fault Refusal :=
  .next (s.answer m 0x0101 (fun _ => s.sysInfoReply))

/-- SYS_INFO_SUPERVISOR_REPLY (R406, R574): firmware has not taken the post for 500 µs. -/
def execSysInfoSupervisorReply (m : Fin 8) (s : State) : Host.Outcome State Fault Refusal :=
  .next (
    let b := s.mboxes[m]
    if s.on 3 && decide (s.dev.state ≠ .off) && b.st = 1 && b.page.le 0 2 = 0x0101 &&
        decide (b.postTime + 500000 ≤ s.now) then
      let len := b.page.le 4 2
      let s := s.modMbox m (fun b =>
        { b with taken := some ⟨0x0101, b.page.le 6 1, b.page.readBytes 16 (min len 4080)⟩, flight := none })
      if len ≠ 0 then s.reply m (err 0x8002)
      else
        let (s, r) := s.sysInfoReply
        s.reply m r
    else s)

/-- CFG_TRANSACTION_ABANDON (R420): a transaction that received no command for 10 s. -/
def execCfgTransactionAbandon (s : State) : Host.Outcome State Fault Refusal :=
  .next (
    match s.cfg.txn with
    | none => s
    | some (w, t) =>
      if s.fwUp && decide (t + 10000000000 ≤ s.now) then
        let changed := !KeySet.same w s.cfg.committed
        let s := { s with cfg := { s.cfg with txn := none } }
        if changed then s.enterHold.event 0x0105 0 0xFF false [] else s
      else s)

end Sys2Proof.Machine
end

