-- ==== Sys2Proof/Machine/RingCmds.lean ====
section
/-! DEFINITION. The meanings of RING_CREATE and RING_DESTROY (R438, R439). -/

namespace Sys2Proof.Machine

/-- A ring that exists. -/
def State.ring? (s : State) (r : Nat) : Option Ring :=
  match assoc s.rings r with
  | some g => if g.kind = 0 then none else some g
  | none => none

/-- RING_CREATE (R438); the ring is the lowest free one (log entry 85). -/
def execRingCreate (m : Fin 8) (s : State) : Host.Outcome State Fault Refusal :=
  .next (s.answer m 0x0420 (fun t =>
    let p := t.payload
    let kind := field p 0 1
    let n := field p 1 1
    let v := field p 2 1
    let pair := field p 4 2
    let base := field p 8 8
    let free := (List.range 512).find? (fun r => (s.ring? r).isNone)
    let pairBad := if kind = 1 then !(s.ring? pair).any (fun g => decide (g.kind = 2 ∧ g.ctx = t.context)) else decide (pair ≠ 0)
    s.checked
      [(decide (kind < 1 ∨ 3 < kind), err 0x8006 (some 0)), (decide (n < 4 ∨ 16 < n), err 0x8006 (some 1)),
       (decide (63 < v ∧ v ≠ 0xFF), err 0x8006 (some 2)), (decide (field p 3 1 ≠ 0), err 0x8006 (some 3)),
       (pairBad, err 0x8006 (some 4)), (decide (field p 6 2 ≠ 0), err 0x8006 (some 6)),
       (decide (base % 4096 ≠ 0), err 0x8702 (some 8)),
       (decide (kind = 3) && s.rings.any (fun e => decide (e.2.kind = 3 ∧ e.2.ctx = t.context)), err 0x8701), (free.isNone, err 0x8701)]
      (fun s =>
        let r := free.getD 0
        let g : Ring :=
          { kind := kind, n := n, vector := v, pair := pair, base := base, ctx := t.context, host := 0, dev := 0, arm := false,
            badIndex := false, lost := false, lostCount := 0, held := [], dropped := none, seq := 0 }
        ({ s with rings := assocSet s.rings r g }, ok (leBytes 4 r)))))

/-- The number under which a destroyed ring is kept: its own and a multiple of 512. -/
def State.deadNumber (s : State) (r : Nat) : Nat :=
  ((List.range (s.rings.length + 1)).map (fun k => r + 512 * (k + 1))).findSome? (fun x =>
    if (assoc s.rings x).isNone then some x else none) |>.getD (r + 512)

/-- A ring ceases to exist (R439): what its entries taken still owe, and the completions lost with it, are kept apart from the number,
which another ring may take. -/
def State.ringDie (s : State) (r : Nat) (g : Ring) : State :=
  let d := s.deadNumber r
  let dead : Ring :=
    { g with kind := 0, host := g.dev, arm := false, held := [], lostCount := g.lostCount + BitVec.ofNat 32 g.held.length }
  { s with
    rings := (assocDel s.rings r).map (fun (e : Nat × Ring) =>
        if e.2.kind = 0 ∧ e.2.pair = r then (e.1, { e.2 with pair := d }) else e) ++ [(d, dead)],
    barges := s.barges.map (fun (b : Barge) => match b.by_ with
      | .ring k i => if k = r then { b with by_ := .ring d i } else b
      | _ => b),
    img := { s.img with
      tx := s.img.tx.map (fun (t : Tx) => match t.buf with
        | some (.taken k i tag a len n) => if k = r then { t with buf := some (.taken d i tag a len n) } else t
        | _ => t) } }

/-- RING_DESTROY (R439): entries not yet taken are discarded; those taken still complete; completions held for it, or due to it later,
are counted as lost. -/
def execRingDestroy (m : Fin 8) (s : State) : Host.Outcome State Fault Refusal :=
  .next (s.answer m 0x0421 (fun t =>
    let r := field t.payload 0 4
    let g := s.ring? r
    s.checked
      [(g.isNone, err 0x8007 (some 0) (some r)), (g.any (fun g => decide (g.ctx ≠ t.context)), err 0x8004 (some 0) (some r)),
       (s.streamRing r || s.rings.any (fun e => decide (e.2.kind = 1 ∧ e.2.pair = r)), err 0x8703 (some 0) (some r))]
      (fun s =>
        match s.ring? r with
        | some g => (s.ringDie r g, ok [])
        | none => (s, ok []))))

end Sys2Proof.Machine
end

