-- ==== Sys2Proof/Machine/Status.lean ====
section
/-! DEFINITION. The meanings of the status map's publications and of the heartbeat (R472 to R474, R556 to R558). -/

namespace Sys2Proof.Machine

/-- ST_HB_MODE bit 0 (R487): the system has one to eight devices, or no size yet. -/
def State.actsOnMisses (s : State) : Bool := s.dev.size.all (fun n => decide (n ≤ 8))

/-- The supervisor publishes: TOWPATH is up and PERST_L released. -/
def State.supervised (s : State) : Bool := s.dev.towpath && !s.dev.perst && decide (s.dev.state ≠ .off)

/-- The next time of a series of period `p`. -/
def nextDue (due now p : Nat) : Nat := if due + p ≤ now ∨ now + p < due + p then now + p else due + p

/-- The six data words of the state group (R472). -/
def State.stateWords (s : State) : List Nat :=
  [s.dev.state.code + 16 * s.pwr.mode + 256 * s.inReset, s.dev.powered.toNat, s.dev.index.toNat,
   ((List.finRange 4).map (fun c => s.clusters[c].healthy * 16 ^ c.val)).sum, min s.escCount 0xFFFF, 0]

/-- STATE_GROUP_PUBLISH (R473). -/
def execStateGroupPublish (s : State) : Host.Outcome State Fault Refusal :=
  .next (
    if s.supervised && s.status.stateDue then
      let s := s.publish 0x04 s.stateWords
      { s with status := { s.status with stateDue := false } }
    else s)

/-- HEALTH_GROUP_PUBLISH (R473): once a millisecond. -/
def execHealthGroupPublish (s : State) : Host.Outcome State Fault Refusal :=
  .next (
    if s.supervised && decide (s.status.healthDue ≤ s.now) then
      let n := s.log.records.toNat
      let s := s.publish 0x18
        [s.pwr.tj.toNat, 2 * b2n s.pwr.armed.isSome + b2n (decide (0 < s.pwr.level)), n % 65536, n / 65536, s.log.lastCode.toNat, 0]
      { s with status := { s.status with healthDue := nextDue s.status.healthDue s.now 1000000 } }
    else s)

/-- FIRMWARE_HEARTBEAT (R473, R557): firmware signals the supervisor. -/
def execFirmwareHeartbeat (s : State) : Host.Outcome State Fault Refusal :=
  .next (if s.fwUp && s.on 3 then { s with health := { s.health with seen := true } } else s)

/-- HEARTBEAT_PERIOD (R461, R473, R556, R578): progress or a miss, the publication, the keys of the next period, and the firmware
restart when the misses reach their limit. -/
def execHeartbeatPeriod (s : State) : Host.Outcome State Fault Refusal :=
  .next (
    if !s.supervised || decide (s.now < s.health.due) then s else
    let seen := s.health.seen
    let missed := if seen then 0 else if s.health.missed = 0xFFFF then 0xFFFF else s.health.missed + 1
    let limit := s.health.misses
    let s : State := { s with
      health := { s.health with
        progress := if seen then s.health.progress + 1 else s.health.progress, missed := missed, seen := false } }
    let n := s.health.progress.toNat
    let s := s.publish 0x10
      [n % 65536, n / 65536, s.health.period, missed.toNat, b2n s.actsOnMisses, 0]
    let s := if seen then s else s.setCause 14
    let s := if s.fw.running then s.healthKeys else s
    let s : State := { s with
      health := { s.health with due := nextDue s.health.due s.now (1000 * s.health.period) } }
    let act := s.actsOnMisses && s.on 3 && s.fwUp && decide (s.dev.state ≠ .boot ∧ s.dev.state ≠ .recovery)
    if act && !seen && decide (missed.toNat = limit) then s.fwRestart else s)

end Sys2Proof.Machine
end

