-- ==== Sys2Proof/Machine/Regs.lean ====
section
/-! DEFINITION. The registers of BAR0: what a read returns, which offsets exist, and what a write does (R322, R360, R400, R401,
R440 to R443, R455 to R457, R461 to R466, R471, R521, R547, R607 to R612). -/

namespace Sys2Proof.Machine

/-! ### Doorbells -/

/-- The host's index moves (R440, R445): ignored with bad_index where it would overfill the ring; held completions and EVENT_LOST
take the room it makes. -/
def State.dbHost (s : State) (r : Nat) (v : W32) : State :=
  match s.ring? r with
  | none => s
  | some g =>
    if !s.on 3 then s
    else
      let used := if g.kind = 1 then (v - g.dev).toNat else (g.dev - v).toNat
      if 2 ^ g.n < used then s.modRing r (fun g => { g with badIndex := true })
      else
        let s := s.modRing r (fun g => { g with host := v })
        if g.kind = 2 then State.drainHeld r 16 s else if g.kind = 3 then s.eventLost r else s

/-- A write to QM_DB_ARM (R441): while entries are unconsumed the vector goes at once and arm is left at 0. -/
def State.dbArm (s : State) (r : Nat) (v : W32) : State :=
  match s.ring? r with
  | none => s
  | some g =>
    if !s.on 3 || !v.getLsbD 0 then s
    else if g.host = g.dev then s.modRing r (fun g => { g with arm := true })
    else
      let s := s.modRing r (fun g => { g with arm := false })
      if g.vector < 64 then s.sendVec g.vector else s

/-! ### GLB -/

/-- A write to GLB_WAKE (R465). -/
def State.glbWake (s : State) (v : W32) : State :=
  if v.getLsbD 0 && !s.on 3 then { s with pwr := { s.pwr with wake := true } } else s

/-- A write to GLB_INT_EOI (R462). -/
def State.glbEoi (s : State) (v : W32) : State :=
  let n := bits v.toNat 0 6
  if s.pending64.getLsbD n then s.sendVec n else s

/-! ### Trace -/

/-- TRC_CTRL.clear (R612). -/
def Trc.clear (t : Trc) : Trc :=
  { t with
    sink := Mem.empty, head := 0, wraps := 0, held := 0, dropped := 0,
    unit := t.unit.map (fun (u : TrcUnit) => { u with lostClear := 0 }) }

/-- The clip slot that a selection names, while its cluster stands (R611). -/
def State.clipSel (s : State) (v : W32) : Option ClipSlot :=
  let c : Fin 4 := Fin.ofNat 4 (bits v.toNat 24 2)
  if s.clusterUp c then s.clusters[c].slots.find? (fun t => t.num = bits v.toNat 0 9) else none

/-- A write to TRC_CLIP_SEL captures (R611). -/
def State.clipCapture (s : State) (v : W32) : State :=
  let sel := v &&& 0x030001FF
  let c : ClipRegs := match s.clipSel sel with
    | none => { ClipRegs.reset with sel := sel }
    | some t =>
      { sel := sel, ceil := t.ceiling, cal := t.cCal, share := t.lastShare,
        state := BitVec.ofNat 32 (0x80000000 + 0x40000000 * b2n t.inFallback + 0x20000000 * b2n t.linked +
          0x10000000 * b2n t.reload.isSome + 0x800000 * t.hist.length + t.streak),
        max := t.hist.headD 0, clipped := t.lastClipped, total := t.lastTotal, steps := t.steps }
  { s with trc := { s.trc with clip := c } }

/-- Counters without those of layer watcher w (R609, R610). -/
def cntWithout (w : Nat) (l : List (Nat × Nat)) : List (Nat × Nat) :=
  l.filter (fun e => ¬ (256 + 8 * w ≤ e.1 ∧ e.1 < 264 + 8 * w))

/-- A write to TRC_LW_SEL_w (R610): a changed selection sets the watcher's counters to 0. -/
def State.lwSelect (s : State) (w : Fin 8) (v : W32) : State :=
  let v := v &&& 0x83FFFFFF
  if s.trc.lw[w] = v then s
  else
    { s with
      trc := { s.trc with
        lw := vset s.trc.lw w v, lwFlags := vset s.trc.lwFlags w 0, cnt := cntWithout w.val s.trc.cnt } }

/-- Counters the model keeps no cycles for (R609): their values are those of timing, and a snapshot takes free ones (log
entry 114). -/
def timedCounter (n : Nat) : Bool :=
  if n < 256 then decide (n % 64 ∈ [2, 3, 4, 5, 13, 14])
  else decide ((n < 320 ∧ (n - 256) % 8 = 1) ∨ (320 ≤ n ∧ n < 324))

/-- The snapshot of every counter (R609). -/
def State.snapshot (s : State) : State :=
  let timed := (List.range 324).filter timedCounter
  let snap := s.trc.cnt.filter (fun e => !timedCounter e.1) ++
    timed.zipIdx.map (fun (x : Nat × Nat) => (x.1, Config.freeNat (s.fresh + x.2) % 2 ^ 64))
  { s with fresh := s.fresh + timed.length, trc := { s.trc with snap := snap } }

/-! ### What a 32-bit read returns -/

/-- Bits of a flag word. -/
def flagWord (l : List (Nat × Bool)) : Nat := (l.map (fun x => if x.2 then 2 ^ x.1 else 0)).sum

/-- GLB registers (R464). -/
def State.readGlb (s : State) (off : Nat) : Option Nat :=
  match off with
  | 0x00 => some (0x48000000 + Config.stepping.toNat * 256)
  | 0x04 => some (s.dev.index.toNat * 0x10000 + s.inReset * 0x1000 + s.pwr.mode * 0x400 + s.dev.state.code)
  | 0x08 => some s.dev.powered.toNat
  | 0x0C => some 0
  | 0x10 => some (s.now % 0x100000000)
  | 0x14 => some s.glb.latch.toNat
  | 0x18 => some s.glb.err.toNat
  | 0x20 => some s.causes.toNat
  | 0x24 => some s.glb.enable.toNat
  | 0x28 => some 0
  | 0x30 => some s.glb.vec[0].toNat
  | 0x34 => some s.glb.vec[1].toNat
  | 0x38 => some s.glb.vec[2].toNat
  | 0x3C => some s.glb.vec[3].toNat
  | _ => none

/-- Doorbell pages (R442). -/
def State.readDb (s : State) (off : Nat) : Option Nat :=
  let g := s.ring? (off / 0x40)
  match off % 0x40 with
  | 0x0 => some (g.elim 0 (fun g => g.host.toNat))
  | 0x4 => some (g.elim 0 (fun g => g.dev.toNat))
  | 0x8 => some (g.elim 4 (fun g => 2 * b2n g.badIndex + b2n g.lost))
  | 0xC => some 0
  | _ => if g.isNone && decide (off % 4 = 0) then some 0 else none

/-- The entries lost by the last ring of a number, destroyed or not (R443). -/
def State.ringLost (s : State) (r : Nat) : Nat :=
  match s.ring? r with
  | some g => g.lostCount.toNat
  | none => ((s.rings.filter (fun e => decide (e.2.kind = 0 ∧ e.1 % 512 = r))).getLast?.map (fun e => e.2.lostCount.toNat)).getD 0

/-- The ring configuration block (R443). -/
def State.readRingCfg (s : State) (off : Nat) : Option Nat :=
  let g := s.ring? (off / 0x20)
  match off % 0x20 with
  | 0x0 => some (g.elim 0 (fun g => g.base % 0x100000000))
  | 0x4 => some (g.elim 0 (fun g => g.base / 0x100000000))
  | 0x8 => some (g.elim 0 (fun g =>
      0x80000000 + g.kind * 0x20000000 + g.ctx * 0x800000 + g.n * 0x40000 + b2n g.arm * 0x20000 +
        b2n (decide (g.vector < 64)) * 0x10000 + g.vector % 64 * 0x400 + g.pair % 512))
  | 0xC => some (s.ringLost (off / 0x20))
  | _ => none

/-- AUD registers of a port (R360). -/
def State.readPort (s : State) (n : Fin 5) (off : Nat) : Option Nat :=
  let p := s.aud.port[n]
  let a := s.aud.apll[(Fin.ofNat 2 p.cfg.apll : Fin 2)]
  match off with
  | 0x0 => some (p.cfg.eIn * 0x10000 + p.cfg.eOut * 0x100 +
      flagWord [(5, decide (p.restart ≠ 0)), (4, p.noClock), (3, decide (p.sIn ≠ 0 ∨ p.sOut ≠ 0)), (2, decide (p.cfg.apll < 2) && a.started && a.isLocked),
        (1, p.cfg.slave), (0, p.running)])
  | 0x4 => some p.err.toNat
  | 0x8 => some (p.outSlips.toNat * 0x1000000 + p.inSlips.toNat * 0x10000 + p.sOut * 0x100 + p.sIn)
  | 0xC => some p.lastSeq.toNat
  | 0x10 => some (if p.cfg.slave then p.outBuf.length * 0x10000 + p.inBuf.length else 0)
  | _ => none

/-- AUD registers (R360). -/
def State.readAud (s : State) (off : Nat) : Option Nat :=
  if off < 0x500 then s.readPort (Fin.ofNat 5 (off / 0x100)) (off % 0x100)
  else if 0x800 ≤ off ∧ off < 0xA00 then
    let a := s.aud.apll[(Fin.ofNat 2 ((off - 0x800) / 0x100) : Fin 2)]
    match off % 0x100 with
    | 0x0 => some (if a.started then
        a.mode * 4 + flagWord [(4, a.refLost), (1, a.clamped), (0, a.isLocked)] else 0)
    | 0x4 => some (wrapN 32 a.w)
    | _ => none
  else if off = 0xC00 then
    some (flagWord [(2, s.aud.vaux.fault), (1, s.aud.vaux.on), (0, s.aud.vaux.enabled)])
  else none

/-- IMG registers (R322). -/
def State.readImg (s : State) (off : Nat) : Option Nat :=
  if off < 0x200 then
    let x := s.img.rx[(Fin.ofNat 2 (off / 0x100) : Fin 2)]
    match off % 0x100 with
    | 0x0 => some ((if x.lock then x.cfg.lanes * 0x1000 else 0) + x.cfg.phy * 0x100 +
        flagWord [(3, x.seen && !(x.inFrame && !x.ended)), (2, x.inFrame && !x.ended), (1, !x.held.isEmpty), (0, x.lock)])
    | 0x4 => some x.err.toNat
    | 0x8 => some x.frame.toNat
    | 0xC => some x.lineNs.toNat
    | 0x10 => some x.crcCnt.toNat
    | _ => none
  else if off < 0x400 then
    let t := s.img.tx[(Fin.ofNat 2 ((off - 0x200) / 0x100) : Fin 2)]
    let sending := decide (t.cfg.src ≠ 0) && t.inFrame.isSome
    match off % 0x100 with
    | 0x0 => some ((if sending && decide (t.cfg.phy ≠ 0) then t.cfg.lanes * 0x1000 else 0) + t.cfg.phy * 0x100 +
        flagWord [(2, decide (t.cfg.src ≠ 0) && bit t.cfg.pcie 15), (1, t.inFrame.isSome), (0, sending)])
    | 0x4 => some t.err.toNat
    | 0x8 => some t.frame.toNat
    | _ => none
  else if off = 0x400 then some (s.img.ref.toNat % 0x100000000)
  else if off = 0x404 then some s.img.refLatch.toNat
  else none

/-- LNK registers (R521). -/
def State.readLnk (s : State) (off : Nat) : Option Nat :=
  if off % 4 ≠ 0 then none
  else if off < 0x100 then
    let p : Fin 4 := Fin.ofNat 4 (off / 0x40)
    let z := s.link.port[p]
    match off % 0x40 with
    | 0x0 => some (s.portStatus p)
    | 0x4 => some z.crc.toNat
    | 0x8 => some z.stomp.toNat
    | 0xC => some z.tx.toNat
    | 0x10 => some z.rx.toNat
    | 0x14 => some z.drop.toNat
    | _ => none
  else if off = 0x100 then some s.link.err.toNat
  else if off = 0x104 then some s.link.localDrop.toNat
  else if off = 0x200 then
    some (s.time.shownHops.toNat * 0x100 + s.time.upstream.val * 0x10 + s.time.role * 4 +
      flagWord [(1, decide (s.time.role = 2) && !s.time.locked && s.time.ever), (0, s.time.isLocked)])
  else if off = 0x204 then some (int32 s.time.theta)
  else if off = 0x208 then some (wrapN 32 s.time.steer)
  else if 0x300 ≤ off ∧ off < 0x3C0 then some (s.link.route.toList.getD ((off - 0x300) / 4) 0xFF).toNat
  else if 0x400 ≤ off ∧ off < 0x480 then
    let x := s.link.rxs[(Fin.ofNat 16 ((off - 0x400) / 8) : Fin 16)]
    some (if off % 8 = 0 then x.missing.toNat else x.late.toNat)
  else none

/-- PWR registers (R547); the electrical readings are free (log entry 2). -/
def State.readPwr (s : State) (off : Nat) : Option Nat :=
  if off % 4 ≠ 0 then none
  else if off = 0 then
    some ((s.required.map (fun r => 2 ^ (16 + r.val))).sum + s.pwr.watch.val * 0x100 + s.pwr.linkReq.toNat * 0x80 +
      s.pwr.cause.toNat * 0x40 + (s.pwr.change.elim s.pwr.mode (·.new)) * 0x10 + s.pwr.change.isSome.toNat * 8 + s.pwr.mode)
  else if off = 4 then some (s.pwr.tj.toNat * 0x10000 + s.pwr.armed.isSome.toNat * 8 + s.pwr.level)
  else if off < 0x38 then some (Config.freePower (s.fresh + off) % 0x100000000)
  else if off = 0x40 then
    some (flagWord [(5, s.casc.stage[1].pending.isSome), (4, s.casc.stage[0].pending.isSome), (2, s.casc.stage[1].session.isSome),
      (1, s.casc.stage[0].session.isSome), (0, s.casc.writing)])
  else none

/-- TRC registers (R612). -/
def State.readTrc (s : State) (off : Nat) : Option Nat :=
  let t := s.trc
  let perUnit (f : Fin 10 → Bool) : Nat := ((List.finRange 10).map (fun r => if f r then 2 ^ r.val else 0)).sum
  let free := 131072 - t.held
  if off % 4 ≠ 0 then none
  else if off = 0x0 then some (flagWord [(2, t.freeze), (1, t.mode), (0, t.enable)])
  else if off = 0x4 then
    some (flagWord [(21, t.mode && decide (free < 16)), (20, t.mode && decide (free ≤ 1024))] +
      perUnit (fun r => !t.unit[r].fifo.isEmpty) * 0x400 + perUnit (fun r => t.unit[r].filter.getLsbD 31 && s.on r.val))
  else if off = 0x8 then some (t.wraps % 4096 * 0x100000 + t.head)
  else if off = 0xC then some t.dropped.toNat
  else if off = 0x10 then some t.syncPeriod
  else if 0x40 ≤ off ∧ off < 0x68 then some t.unit[(Fin.ofNat 10 ((off - 0x40) / 4) : Fin 10)].filter.toNat
  else if 0x80 ≤ off ∧ off < 0xA8 then some t.unit[(Fin.ofNat 10 ((off - 0x80) / 4) : Fin 10)].lostClear.toNat
  else if off = 0x100 ∨ off = 0x104 then some 0
  else if 0x800 ≤ off ∧ off ≤ 0x828 then
    match off with
    | 0x800 => some t.clip.sel.toNat
    | 0x804 => some t.clip.ceil.toNat
    | 0x808 => some t.clip.cal.toNat
    | 0x80C => some t.clip.share.toNat
    | 0x810 => some t.clip.state.toNat
    | 0x814 => some t.clip.max.toNat
    | 0x818 => some (t.clip.clipped % 0x100000000)
    | 0x81C => some (t.clip.clipped / 0x100000000)
    | 0x820 => some (t.clip.total % 0x100000000)
    | 0x824 => some (t.clip.total / 0x100000000)
    | _ => some t.clip.steps.toNat
  else if 0x900 ≤ off ∧ off < 0x920 then some t.lw[(Fin.ofNat 8 ((off - 0x900) / 4) : Fin 8)].toNat
  else if 0x1000 ≤ off ∧ off < 0x1000 + 8 * 324 then
    let v := (assoc t.snap ((off - 0x1000) / 8)).getD 0
    some (if off % 8 = 0 then v % 0x100000000 else v / 0x100000000)
  else if 0x10000 ≤ off ∧ off < 0x30000 then some (t.sink.le (off - 0x10000) 4)
  else none

/-- A block of BAR0: the reach it needs, its start. -/
def blockOf (off : Nat) : Option (Option Nat × Nat) :=
  if off < 0x1000 then some (none, 0)
  else if 0x10000 ≤ off ∧ off < 0x10400 then some (none, 0x10000)
  else if 0x20000 ≤ off ∧ off < 0x28000 then some (some 3, 0x20000)
  else if 0x100000 ≤ off ∧ off < 0x108000 then some (some 3, 0x100000)
  else if 0x180000 ≤ off ∧ off < 0x184000 then some (some 3, 0x180000)
  else if 0x200000 ≤ off ∧ off < 0x300000 then some (some 2, 0x200000)
  else if 0x300000 ≤ off ∧ off < 0x400000 then some (some 4, 0x300000)
  else if 0x400000 ≤ off ∧ off < 0x500000 then some (some 5, 0x400000)
  else if 0x500000 ≤ off ∧ off < 0x600000 then some (some 3, 0x500000)
  else if 0x600000 ≤ off ∧ off < 0x630000 then some (some 3, 0x600000)
  else none

/-- What a register of a powered block reads as; none where no block defines the offset. Mailbox pages are no registers. -/
def State.readReg (s : State) (off : Nat) : Option Nat :=
  match blockOf off with
  | some (_, 0) => s.readGlb off
  | some (_, 0x10000) => if off % 4 = 0 then some (s.status.map.le ((off - 0x10000) / 2) 2) else none
  | some (_, 0x100000) => s.readDb (off - 0x100000)
  | some (_, 0x180000) => s.readRingCfg (off - 0x180000)
  | some (_, 0x200000) => s.readAud (off - 0x200000)
  | some (_, 0x300000) => s.readImg (off - 0x300000)
  | some (_, 0x400000) => s.readLnk (off - 0x400000)
  | some (_, 0x500000) => s.readPwr (off - 0x500000)
  | some (_, 0x600000) => s.readTrc (off - 0x600000)
  | _ => none

/-- The value of an aligned 32-bit read of BAR0 outside the mailbox pages (R456, R457). -/
def State.read32 (s : State) (off : Nat) : Nat :=
  match blockOf off with
  | some (some r, _) => if s.on r then (s.readReg off).getD 0 else 0xFFFFFFFF
  | _ => (s.readReg off).getD 0

/-! ### What a 32-bit write does -/

/-- bad_access of GLB_ERR (R456). -/
def State.badAccess (s : State) : State := { s with glb := { s.glb with err := s.glb.err ||| 1 } }

/-- Writes to GLB (R461, R462, R464, R465). -/
def State.writeGlb (s : State) (off : Nat) (v : W32) : State :=
  match off with
  | 0x0C => s.glbWake v
  | 0x18 => { s with glb := { s.glb with err := s.glb.err &&& ~~~(v.truncate 2) } }
  | 0x20 => State.irqSync { s with glb := { s.glb with cause := s.glb.cause &&& ~~~(v.truncate 16) } }
  | 0x24 => State.irqSync { s with glb := { s.glb with enable := v.truncate 16 } }
  | 0x28 => s.glbEoi v
  | 0x30 => State.irqSync { s with glb := { s.glb with vec := vset s.glb.vec 0 (v &&& 0x3F3F3F3F) } }
  | 0x34 => State.irqSync { s with glb := { s.glb with vec := vset s.glb.vec 1 (v &&& 0x3F3F3F3F) } }
  | 0x38 => State.irqSync { s with glb := { s.glb with vec := vset s.glb.vec 2 (v &&& 0x3F3F3F3F) } }
  | 0x3C => State.irqSync { s with glb := { s.glb with vec := vset s.glb.vec 3 (v &&& 0x3F3F3F3F) } }
  | _ => s

/-- Writes to a doorbell page (R440 to R442). -/
def State.writeDb (s : State) (off : Nat) (v : W32) : State :=
  let r := off / 0x40
  match off % 0x40 with
  | 0x0 => s.dbHost r v
  | 0x8 =>
    if (s.ring? r).isNone then s
    else s.modRing r (fun g => { g with badIndex := g.badIndex && !v.getLsbD 1, lost := g.lost && !v.getLsbD 0 })
  | 0xC => s.dbArm r v
  | _ => s

/-- Writes to AUD (R357, R360). -/
def State.writeAud (s : State) (off : Nat) (v : W32) : State :=
  if off < 0x500 ∧ off % 0x100 = 4 then
    State.irqSync (s.modAud (Fin.ofNat 5 (off / 0x100)) (fun p => { p with err := p.err &&& ~~~(v.truncate 7) }))
  else if off = 0xC00 ∧ v.getLsbD 2 then s.vauxClear
  else s

/-- Writes to IMG (R322). -/
def State.writeImg (s : State) (off : Nat) (v : W32) : State :=
  if off < 0x200 ∧ off % 0x100 = 4 then
    State.irqSync (s.modRx (Fin.ofNat 2 (off / 0x100)) (fun x => { x with err := x.err &&& ~~~(v.truncate 7) }))
  else if 0x200 ≤ off ∧ off < 0x400 ∧ off % 0x100 = 4 then
    State.irqSync (s.modTx (Fin.ofNat 2 ((off - 0x200) / 0x100)) (fun t => { t with err := t.err &&& ~~~(v.truncate 2) }))
  else s

/-- Writes to LNK (R521). -/
def State.writeLnk (s : State) (off : Nat) (v : W32) : State :=
  if off = 0x100 then State.irqSync { s with link := { s.link with err := s.link.err &&& ~~~(v.truncate 15) } } else s

/-- Writes to TRC (R603, R609 to R612). A sync period that the table does not give leaves a free one (log entry 115). -/
def State.writeTrc (s : State) (off : Nat) (v : W32) : State :=
  if off = 0x0 then
    let s : State := { s with
      trc := { s.trc with enable := v.getLsbD 0, mode := v.getLsbD 1, freeze := v.getLsbD 2 } }
    if v.getLsbD 3 then { s with trc := s.trc.clear } else s
  else if off = 0x10 then
    let n := v.toNat % 0x100000
    if n = 0 ∨ (100 ≤ n ∧ n ≤ 1000000) then { s with trc := { s.trc with syncPeriod := n } }
    else
      let (x, s) := s.draw
      { s with trc := { s.trc with syncPeriod := x % 0x100000 } }
  else if 0x40 ≤ off ∧ off < 0x68 then
    s.modTrc (Fin.ofNat 10 ((off - 0x40) / 4)) (fun u => { u with filter := v &&& 0x800000FF })
  else if off = 0x100 then (if v.getLsbD 0 then s.snapshot else s)
  else if off = 0x104 then (if v.getLsbD 0 then { s with trc := { s.trc with cnt := [], snap := [] } } else s)
  else if off = 0x800 then s.clipCapture v
  else if 0x900 ≤ off ∧ off < 0x920 then s.lwSelect (Fin.ofNat 8 ((off - 0x900) / 4)) v
  else s

/-- An aligned 32-bit write outside the mailbox pages (R456, R457): discarded while the block's reach is off, and with bad_access
where no block defines the offset. -/
def State.write32 (s : State) (off : Nat) (v : W32) : State :=
  match blockOf off with
  | none => s.badAccess
  | some (reach, base) =>
    if reach.any (fun r => !s.on r) then s
    else if (s.readReg off).isNone then s.badAccess
    else
      let o := off - base
      match base with
      | 0 => s.writeGlb o v
      | 0x100000 => s.writeDb o v
      | 0x200000 => s.writeAud o v
      | 0x300000 => s.writeImg o v
      | 0x400000 => s.writeLnk o v
      | 0x600000 => s.writeTrc o v
      | _ => s

/-- A byte written to a mailbox page (R399 to R401): the state byte posts or withdraws; while BUSY a write is discarded. -/
def State.mailboxByte (s : State) (off : Nat) (v : Byte) : State :=
  let m : Fin 8 := Fin.ofNat 8 (off / 0x1000)
  let a := off % 0x1000
  if !s.on 3 then s
  else if a = 7 then (if v = 1 then s.mailboxWrite1 m else if v = 0 then s.mailboxWrite0 m else s)
  else if s.mboxes[m].st = 2 then s
  else s.modMbox m (fun b => { b with page := b.page.write a v })

/-- Whether an access lies in the doorbell page of a ring that does not exist (R442). -/
def State.noRing (s : State) (off n : Nat) : Bool :=
  decide (0x100000 ≤ off ∧ off < 0x108000 ∧ off % 0x40 + n ≤ 0x40) && (s.ring? ((off - 0x100000) / 0x40)).isNone

/-- A host write to BAR0 of any length (R456, R458). One to the doorbell page of a ring that does not exist is discarded (R442). -/
def State.barWrite (s : State) (off : Nat) (data : List Byte) : State :=
  if 0x20000 ≤ off ∧ off + data.length ≤ 0x28000 then
    data.zipIdx.foldl (fun (s : State) (x : Byte × Nat) => s.mailboxByte (off - 0x20000 + x.2) x.1) s
  else if data.length = 4 ∧ off % 4 = 0 then s.write32 off (BitVec.ofNat 32 (leVal data))
  else if data.length = 8 ∧ off % 8 = 0 then
    (s.write32 off (BitVec.ofNat 32 (leVal (data.take 4)))).write32 (off + 4) (BitVec.ofNat 32 (leVal (data.drop 4)))
  else if s.noRing off data.length then s
  else s.badAccess

end Sys2Proof.Machine
end

