-- ==== Sys2Proof/Machine/Pcie.lean ====
section
/-! DEFINITION. The meanings of doorbells, submission entries, the PCIe function's events and register writes (R13, R439 to R445,
R452 to R466). -/

namespace Sys2Proof.Machine

/-! ### Doorbells and submission entries -/

/-- QM_DB_HOST_WRITE (R440, R445). -/
def execQmDbHostWrite (r : Fin 512) (value : W32) (s : State) : Host.Outcome State Fault Refusal := .next (s.dbHost r.val value)

/-- QM_DB_ARM_WRITE (R441). -/
def execQmDbArmWrite (r : Fin 512) (value : W32) (s : State) : Host.Outcome State Fault Refusal := .next (s.dbArm r.val value)

/-- The cluster that executes a host's barge (R444); none for a remote FILL with no cluster powered. An address in neither DRAM nor
cluster memory names cluster 0 (log entry 117). -/
def State.hostCluster (s : State) (d : BDesc) : Option (Fin 4) :=
  if d.op = 0x40 then some ((partOf d.src).getD 0)
  else if d.remote then (List.finRange 4).find? (fun c => s.on (clusterReach c))
  else some ((partOf d.dst).getD 0)

/-- A host's barge is issued (R230, R235, R236, R444): abandoned at issue it completes with status 1; a full queue leaves it in its
ring. -/
def State.hostBarge (s : State) (r i : Nat) (g : Ring) (l : List Byte) : State :=
  let (bad, d) := s.bargeCheck false l
  let c := (s.hostCluster d).getD 0
  let refuse (s : State) (code : Nat) (data : List Byte) : State :=
    ((s.ringTake r).bargeRefused g.ctx c code d.tag data).complete r 1 1 i d.tag.toNat 0 []
  match bad with
  | some f => refuse (s.offNote d f) 0x0303 (leBytes 1 f)
  | none =>
    if (s.hostCluster d).isNone then refuse s 0x0303 (leBytes 1 40)
    else if d.parts.any (fun p => s.clusters[p].reset.isSome) || s.clusters[c].reset.isSome then refuse s 0x0304 []
    else if s.moverFull (.dram c) then s
    else
      let cls := ((assoc s.ctxs g.ctx).map (·.cls)).getD 2
      let (s, bid) := (s.ringTake r).enqueue (.ring r i) (.dram c) c g.ctx cls d []
      if bid.isNone then s.complete r 1 1 i d.tag.toNat 0 [] else s

/-- HOST_BARGE_ENTRY (R444, R445): the entry at the head, unless it is a BUFFER entry. -/
def execHostBargeEntry (r : Fin 512) (s : State) : Host.Outcome State Fault Refusal :=
  .next (match s.ring? r.val, s.ringHead r.val with
    | some g, some (i, e) =>
      let op := field e 0 1
      if op = 0x50 then s
      else if (op ≠ 0x40 ∧ op ≠ 0x41) ∨ s.streamRing r.val then (s.ringTake r.val).complete r.val 1 2 i (field e 16 4) 0 []
      else s.hostBarge r.val i g e
    | _, _ => s)

/-- BUFFER_ENTRY (R311, R444): for a transmitter that wants its frame's buffer; in a ring that no stream key names the entry is
rejected. Audio streams take theirs at each block (R343). -/
def execBufferEntry (r : Fin 512) (s : State) : Host.Outcome State Fault Refusal :=
  .next (match s.ringHead r.val with
    | some (i, e) =>
      if field e 0 1 ≠ 0x50 then s
      else if !s.streamRing r.val then (s.ringTake r.val).complete r.val 1 2 i (field e 16 4) 0 []
      else
        match (List.finRange 2).find? (fun n =>
            decide (s.img.tx[n].buf = some .wanted) && bit s.img.tx[n].cfg.pcie 15 &&
              decide (bits s.img.tx[n].cfg.pcie 0 9 = r.val)) with
        | some n => s.txTake n
        | none => s
    | none => s)

/-- HOST_READ_TIMEOUT (R454): the entry at the head completes with status 2; its tag was not read, and is free (log entry 2). -/
def execHostReadTimeout (r : Fin 512) (s : State) : Host.Outcome State Fault Refusal :=
  .next (match s.ringHead r.val with
    | some (i, _) =>
      let (tag, s) := s.draw
      (s.ringTake r.val).complete r.val 1 2 i (tag % 0x100000000) 0 []
    | none => s)

/-! ### The function and its link -/

/-- Bus Master Enable set again: held completions and lost events are written (R445, R453). -/
def State.busMasterOn (s : State) : State :=
  let s : State := { s with pcie := { s.pcie with busMaster := true } }
  s.rings.foldl
    (fun (s : State) (e : Nat × Ring) =>
      if e.2.kind = 2 then State.drainHeld e.1 16 s else if e.2.kind = 3 then s.eventLost e.1 else s) s

/-- BUS_MASTER_ENABLE_WRITE (R453). -/
def execBusMasterEnableWrite (value : Bool) (s : State) : Host.Outcome State Fault Refusal :=
  .next (
    if !s.supervised then s
    else if value then s.busMasterOn
    else { s with pcie := { s.pcie with busMaster := false } })

/-- PCIE_HOT_RESET (R453): the configuration registers and the MSI-X table reset. -/
def execPcieHotReset (kind : HotResetKind) (s : State) : Host.Outcome State Fault Refusal :=
  .next (
    if !s.supervised then s
    else
      { s with
        pcie := { s.pcie with
          busMaster := Pcie.reset.busMaster, d3hot := decide (kind = .d3hot), masked := Pcie.reset.masked, pend := Pcie.reset.pend,
          elwSel := Pcie.reset.elwSel, elwData := Pcie.reset.elwData } })

/-- PCIE_LINK_WAKE (R13, R532): the link reaches L0, and WAKE_L is released. -/
def execPcieLinkWake (s : State) : Host.Outcome State Fault Refusal :=
  .next (if s.supervised then { s with pcie := { s.pcie with link := 0, wakeL := false, d3hot := false } } else s)

/-- PME_TURN_OFF_MESSAGE (R452): in D3hot the link enters L2. -/
def execPmeTurnOffMessage (s : State) : Host.Outcome State Fault Refusal :=
  .next (
    if s.supervised && s.pcie.d3hot then State.wakeSync { s with pcie := { s.pcie with link := 2 } }
    else s)

/-- GLB_ELW_SEL_WRITE (R459, R460). -/
def execGlbElwSelWrite (value : W32) (s : State) : Host.Outcome State Fault Refusal :=
  .next (
    if !s.supervised then s
    else { s with pcie := { s.pcie with elwSel := value &&& 0xFFC0, elwData := s.log.line (bits value.toNat 6 10) } })

/-- MSIX_VECTOR_UNMASK (R463). -/
def execMsixVectorUnmask (v : Fin 64) (s : State) : Host.Outcome State Fault Refusal :=
  .next (
    if !s.supervised then s
    else
      let m : BitVec 64 := ~~~(1#64 <<< v.val)
      let due := s.pcie.pend.getLsbD v.val
      let s : State := { s with pcie := { s.pcie with masked := s.pcie.masked &&& m, pend := s.pcie.pend &&& m } }
      if due then s.sendVec v.val else s)

/-! ### Registers -/

/-- GLB_WAKE_WRITE (R465). -/
def execGlbWakeWrite (value : W32) (s : State) : Host.Outcome State Fault Refusal :=
  .next (if s.supervised then s.glbWake value else s)

/-- GLB_INT_EOI_WRITE (R462). -/
def execGlbIntEoiWrite (value : W32) (s : State) : Host.Outcome State Fault Refusal :=
  .next (if s.supervised then s.glbEoi value else s)

/-- GLB_SYSTIME_LO_READ (R466). -/
def execGlbSystimeLoRead (s : State) : Host.Outcome State Fault Refusal :=
  .next (
    if s.supervised then { s with glb := { s.glb with latch := (s.dev.systime >>> 32).setWidth 32 } } else s)

/-- REGISTER_WRITE (R400, R401, R456 to R458). -/
def execRegisterWrite (off : Nat) (data : List Byte) (s : State) : Host.Outcome State Fault Refusal :=
  .next (if s.supervised && decide (off + data.length ≤ 0x4000000) then s.barWrite off data else s)

end Sys2Proof.Machine
end

