-- ==== Sys2Proof/Machine/RunCtl.lean ====
section
/-! DEFINITION. The meanings of the RUN commands (R47 to R50, R291, R425 to R429). -/

namespace Sys2Proof.Machine

/-- A receiver as RUN_START leaves it (R291): new keys, no frame; tables, black levels and registers kept. -/
def Rx.start (x : Rx) (c : RxCfg) : Rx :=
  { Rx.reset with
    cfg := c, tables := x.tables, tablesNext := x.tablesNext, black := x.black, blackNext := x.blackNext,
    lock := x.lock && decide (c.phy ≠ 0), lastBurst := x.lastBurst, err := x.err, lineNs := x.lineNs, crcCnt := x.crcCnt }

/-- A transmitter as RUN_START leaves it. -/
def Tx.start (t : Tx) (c : TxCfg) : Tx := { Tx.reset with cfg := c, err := t.err, frame := t.frame, sent := t.sent }

/-- The device runs a timetable from now on (R291, R425). The kept state of its entries goes on where it is the timetable that ran
before (log entry 84). -/
def State.startRunning (s : State) (t : Timetable) : State :=
  let w := s.cfg.committed
  let same := decide (s.sched.tt = some t)
  let s : State := if same then s else s.shareRings
  let s := { s with
    sched := { s.sched with
      tt := some t, staged := none, running := true, startStamp := s.now, ovr := [],
      entries := if same then s.sched.entries.map (fun (e : EntrySt) => { e with dropNext := false, pf := none }) else freshEntries t,
      runs := if same then s.sched.runs else s.sched.runs.map (fun (r : Run) => { r with old := true }) } }
  let period := KeySet.get w .imgGenPeriod
  let phase := KeySet.get w .imgGenPhase
  let s := { s with
    img := { s.img with
      rx := Vector.ofFn (fun n => s.img.rx[n].start (w.rxCfg n)), tx := Vector.ofFn (fun n => s.img.tx[n].start (w.txCfg n)),
      refSeen := false, frameSrc := KeySet.get w .imgFrameSrc, genPeriod := period, genPhase := phase,
      genNext := nextMatch s.now phase period, frames := Vector.replicate 2 [] } }
  (s.setState .running).refresh

/-- RUN_START (R425). -/
def execRunStart (m : Fin 8) (s : State) : Host.Outcome State Fault Refusal :=
  .next (s.answer m 0x0401 (fun _ =>
    match s.sched.committed with
    | none => (s, err 0x8005)
    | some t => if s.dev.state = .ready then (s.startRunning t, ok []) else (s, err 0x8005)))

/-- RUN_STOP (R426): no run is made ready from now on; the reply waits for the last run. -/
def execRunStop (m : Fin 8) (s : State) : Host.Outcome State Fault Refusal :=
  .next (s.withTaken m 0x0402 (fun _ =>
    (State.fly { s with sched := { s.sched with running := false } } m 0x0402 [] []).settleStop))

/-- RUN_STAGE (R48 to R50, R310, R427). -/
def execRunStage (m : Fin 8) (s : State) : Host.Outcome State Fault Refusal :=
  .next (s.answer m 0x0403 (fun t =>
    let p := t.payload
    let h := field p 0 4
    let off := field p 4 4
    let x := s.region? h
    s.checked
      [(decide (off % 64 ≠ 0), err 0x8006 (some 4)), (x.isNone, err 0x8007 (some 0) (some h)),
       (x.any (fun y => !s.on (clusterReach y.1)), err 0x8407 (some 0) (some h)),
       (x.any (fun y => decide (y.2.len < off)), err 0x8006 (some 4))]
      (fun s =>
        match s.ttBytes h off with
        | none => (s, err 0x8601 (some 0))
        | some (l, owner) =>
          match s.ttCheck s.cfg.committed l with
          | some r => (s, r)
          | none =>
            match s.delayChanges (ttOf l owner) with
            | some n => (s, err 0x8204 none (some n.val))
            | none =>
              let (s, replaced) := s.stage (ttOf l owner)
              (s, ⟨if replaced then 0x4001 else 0, []⟩))))

/-- An entry_id names a DEGRADE entry of the running timetable. -/
def State.degradeEntry (s : State) (id : Nat) : Bool :=
  (s.sched.tt.map (fun t => t.entries.any (fun e => e.id = id && e.policy = 1))).getD false

/-- An entry_id names a DEGRADE task of a loaded DSP image. -/
def State.degradeTask (s : State) (id : Nat) : Bool :=
  s.dsps.toList.any (fun d => d.taskList.any (fun x => x.1.entry = id && x.1.policy = 1))

/-- RUN_RESTORE (R47, R394, R428). -/
def execRunRestore (m : Fin 8) (s : State) : Host.Outcome State Fault Refusal :=
  .next (s.answer m 0x0404 (fun t =>
    let p := t.payload
    let n := field p 0 2
    let ids := ((p.drop 4).take n).map (·.toNat)
    let bad := ids.zipIdx.find? (fun (x : Nat × Nat) => !s.degradeEntry x.1 && !s.degradeTask x.1)
    s.checked
      [(decide (256 < n), err 0x8006 (some 0)), (decide (field p 2 2 ≠ 0), err 0x8006 (some 2)),
       (bad.isSome, err 0x8006 (bad.map (fun x => 4 + x.2)) (bad.map (·.1)))]
      (fun s =>
        let hit (i : Nat) : Bool := ids.isEmpty || decide (i ∈ ids)
        let s := { s with
          sched := { s.sched with
            entries := s.sched.entries.map (fun (e : EntrySt) => if hit e.id then { e with atAlt := false } else e) },
          dsps := s.dsps.map (fun (d : Dsp) =>
            { d with
              tasks := d.tasks.zipIdx.map (fun (x : TaskSt × Nat) =>
                if (d.taskList[x.2]?).any (fun (y : DspTask × TaskSt) => hit y.1.entry) then { x.1 with atAlt := false } else x.1) }) }
        (s.refresh, ok []))))

/-- The last two words of a RUN_INFO reply (R429). -/
def State.runInfoTail (s : State) : List Byte :=
  s.clusters.toList.flatMap (fun k => leBytes 1 k.kvB) ++ s.clusters.toList.flatMap (fun k => leBytes 1 k.healthy)

/-- What RUN_INFO answers of a timetable entry (R429). -/
def State.entryInfo (s : State) (e : Entry) : List Byte :=
  let x := (s.entry? e.id).getD ⟨e.id, 0, 0, 0, 0, false, false, none, none⟩
  let alt := s.useAlt e (s.threeCore e.cluster)
  w32 x.overruns ++ leBytes 2 x.lastOvr.toNat ++ leBytes 2 x.numFlags.toNat ++ w32 x.lastSeq ++
    leBytes 4 (s.budgetOf e s.clusters[e.cluster].healthy alt) ++ leBytes 1 (b2n alt) ++ leBytes 1 e.cls ++
    leBytes 1 e.cluster.val ++ [0]

/-- What RUN_INFO answers of a DSP task; its class is TICK (log entry 84). -/
def taskInfo (d : Fin 4) (t : DspTask) (x : TaskSt) : List Byte :=
  w32 x.overruns ++ leBytes 2 x.lastOvr.toNat ++ leBytes 2 x.numFlags.toNat ++ w32 x.lastSeq ++ leBytes 4 t.budget ++
    leBytes 1 (b2n x.atAlt) ++ [0] ++ leBytes 1 (0x10 + d.val) ++ [0]

/-- RUN_INFO (R429). -/
def execRunInfo (m : Fin 8) (s : State) : Host.Outcome State Fault Refusal :=
  .next (s.answer m 0x0405 (fun t =>
    let id := field t.payload 0 2
    let entry := s.sched.committed.bind (fun t => t.entries.find? (fun e => e.id = id))
    let task := (List.finRange 4).findSome? (fun d => (s.dsps[d].taskList.find? (fun x => x.1.entry = id)).map (fun x => (d, x)))
    if field t.payload 2 2 ≠ 0 then (s, err 0x8006 (some 2))
    else if id = 0xFFFF then (s, ok (zeros 20 ++ s.runInfoTail))
    else
      match entry, task with
      | some e, _ => (s, ok (s.entryInfo e ++ s.runInfoTail))
      | none, some (d, x) => (s, ok (taskInfo d x.1 x.2 ++ s.runInfoTail))
      | none, none => (s, err 0x8006 (some 0) (some id))))

end Sys2Proof.Machine
end

