-- ==== Sys2Proof/Machine/Shares.lean ====
section
/-! DEFINITION. The meanings of the instructions of share programs (R217, R218, R232, R238 to R243). -/

namespace Sys2Proof.Machine

/-- Run an instruction of the share on a core: nothing unless a share is executing there. -/
def State.shareStep (s : State) (co : CoreId) (f : Run → Share → State) : State :=
  match s.shareOn co with
  | some (r, h) => if h.st = .running && !h.ended && s.clusterUp co.c then f r h else s
  | none => s

/-- The share goes on `n` words further. -/
def State.pcPlus (s : State) (co : CoreId) (n : Nat) : State := s.modShare co (fun h => { h with pc := h.pc + n })

/-- A branch: to the word at a signed offset from its own, or to the next word. -/
def State.branch (s : State) (co : CoreId) (off : W16) (taken : Bool) : State :=
  s.modShare co (fun h => { h with pc := if taken then ((h.pc : Int) + off.toInt).toNat else h.pc + 1 })

/-- A conditional branch on a register. -/
def State.branchOn (s : State) (co : CoreId) (r : Fin 16) (off : W16) (test : W32 → Bool) : State :=
  s.shareStep co (fun _ h => s.branch co off (test h.regs[r]))

/-- Source b of a scalar instruction. -/
def scalarSrc (b : ScalarSrc) (h : Share) : W32 :=
  match b with
  | .reg r => h.regs[r]
  | .imm v => v.signExtend 32

/-- Write a scalar register and go on. -/
def State.putReg (s : State) (co : CoreId) (rd : Fin 16) (v : W32) : State :=
  s.modShare co (fun h => { h with regs := vset h.regs rd v, pc := h.pc + 1 })

/-- A scalar operation of two sources. -/
def State.scalar (s : State) (co : CoreId) (rd ra : Fin 16) (b : ScalarSrc) (f : W32 → W32 → W32) : State :=
  s.shareStep co (fun _ h => s.putReg co rd (f h.regs[ra] (scalarSrc b h)))

/-- NOP (R217). -/
def execShareNop (co : CoreId) (s : State) : Host.Outcome State Fault Refusal :=
  .next (s.shareStep co (fun _ _ => s.pcPlus co 1))

/-- END (R210, R217): once every engine operation issued has completed, the program ends. -/
def execShareEnd (co : CoreId) (s : State) : Host.Outcome State Fault Refusal :=
  .next (s.shareStep co (fun _ h => if h.ops.isEmpty then s.modShare co (fun h => { h with ended := true }) else s))

/-- WAITE (R217): goes on once every engine operation issued has completed. -/
def execWaite (co : CoreId) (s : State) : Host.Outcome State Fault Refusal :=
  .next (s.shareStep co (fun _ h => if h.ops.isEmpty then s.pcPlus co 1 else s))

/-- MARK (R217, R604). -/
def execMark (co : CoreId) (operand : W32) (s : State) : Host.Outcome State Fault Refusal :=
  .next (s.shareStep co (fun _ h => (s.trace (clusterUnit co.c) 5 0x3F h.idx.val (w32 operand)).pcPlus co 2))

/-- BZ (R217). -/
def execShareBz (co : CoreId) (r : Fin 16) (off : W16) (s : State) : Host.Outcome State Fault Refusal :=
  .next (s.branchOn co r off (fun v => v == 0))

/-- BNZ (R217). -/
def execShareBnz (co : CoreId) (r : Fin 16) (off : W16) (s : State) : Host.Outcome State Fault Refusal :=
  .next (s.branchOn co r off (fun v => v != 0))

/-- BLT (R217): register negative. -/
def execShareBlt (co : CoreId) (r : Fin 16) (off : W16) (s : State) : Host.Outcome State Fault Refusal :=
  .next (s.branchOn co r off (fun v => v.msb))

/-- BRA (R217). -/
def execShareBra (co : CoreId) (off : W16) (s : State) : Host.Outcome State Fault Refusal :=
  .next (s.shareStep co (fun _ _ => s.branch co off true))

/-- ADD (R217). -/
def execScalarAdd (co : CoreId) (rd ra : Fin 16) (b : ScalarSrc) (s : State) : Host.Outcome State Fault Refusal :=
  .next (s.scalar co rd ra b (fun x y => x + y))

/-- SUB (R217). -/
def execScalarSub (co : CoreId) (rd ra : Fin 16) (b : ScalarSrc) (s : State) : Host.Outcome State Fault Refusal :=
  .next (s.scalar co rd ra b (fun x y => x - y))

/-- MUL (R217). -/
def execScalarMul (co : CoreId) (rd ra : Fin 16) (b : ScalarSrc) (s : State) : Host.Outcome State Fault Refusal :=
  .next (s.scalar co rd ra b (fun x y => x * y))

/-- AND (R217). -/
def execScalarAnd (co : CoreId) (rd ra : Fin 16) (b : ScalarSrc) (s : State) : Host.Outcome State Fault Refusal :=
  .next (s.scalar co rd ra b (fun x y => x &&& y))

/-- OR (R217). -/
def execScalarOr (co : CoreId) (rd ra : Fin 16) (b : ScalarSrc) (s : State) : Host.Outcome State Fault Refusal :=
  .next (s.scalar co rd ra b (fun x y => x ||| y))

/-- XOR (R217). -/
def execScalarXor (co : CoreId) (rd ra : Fin 16) (b : ScalarSrc) (s : State) : Host.Outcome State Fault Refusal :=
  .next (s.scalar co rd ra b (fun x y => x ^^^ y))

/-- SHL (R69, R217). -/
def execScalarShl (co : CoreId) (rd ra : Fin 16) (b : ScalarSrc) (s : State) : Host.Outcome State Fault Refusal :=
  .next (s.scalar co rd ra b (fun x y => BitVec.ofNat 32 (shlN 32 x.toNat y.toNat)))

/-- LSR (R69, R217). -/
def execScalarLsr (co : CoreId) (rd ra : Fin 16) (b : ScalarSrc) (s : State) : Host.Outcome State Fault Refusal :=
  .next (s.scalar co rd ra b (fun x y => BitVec.ofNat 32 (lsrN 32 x.toNat y.toNat)))

/-- ASR (R69, R217). -/
def execScalarAsr (co : CoreId) (rd ra : Fin 16) (b : ScalarSrc) (s : State) : Host.Outcome State Fault Refusal :=
  .next (s.scalar co rd ra b (fun x y => BitVec.ofNat 32 (asrN 32 x.toNat y.toNat)))

/-- LDI (R217): the immediate sign-extended. -/
def execScalarLdi (co : CoreId) (rd : Fin 16) (imm : W16) (s : State) : Host.Outcome State Fault Refusal :=
  .next (s.shareStep co (fun _ _ => s.putReg co rd (imm.signExtend 32)))

/-- LDIH (R217): the immediate to bits [31:16]. -/
def execScalarLdih (co : CoreId) (rd : Fin 16) (imm : W16) (s : State) : Host.Outcome State Fault Refusal :=
  .next (s.shareStep co (fun _ h => s.putReg co rd (imm ++ h.regs[rd].setWidth 16)))

/-- The address of a scalar memory access (R217). -/
def scalarAddr (h : Share) (base : Fin 16) (off : BitVec 19) : Nat := (h.regs[base] + off.setWidth 32).toNat

/-- Whether an address may be accessed: a multiple of 4 below 0x40_0000. -/
def scalarOk (a : Nat) : Bool := decide (a % 4 = 0 ∧ a < 0x400000)

/-- A scalar memory fault (R217): no access, SHARE_FAULT, the share stops. -/
def State.shareFault (s : State) (co : CoreId) (r : Run) (h : Share) : State :=
  let s := s.event 0x0108 r.ctx co.c.val true
    (leBytes 1 h.idx.val ++ leBytes 2 r.entry.id ++ leBytes 2 h.pc ++ leBytes 1 0)
  s.stopShare co r h none

/-- LDS (R217). -/
def execLds (co : CoreId) (r base : Fin 16) (off : BitVec 19) (s : State) : Host.Outcome State Fault Refusal :=
  .next (s.shareStep co (fun run h =>
    let a := scalarAddr h base off
    if scalarOk a then s.putReg co r (BitVec.ofNat 32 (s.clusters[co.c].lmem[h.idx].le a 4)) else s.shareFault co run h))

/-- STS (R217). -/
def execSts (co : CoreId) (r base : Fin 16) (off : BitVec 19) (s : State) : Host.Outcome State Fault Refusal :=
  .next (s.shareStep co (fun run h =>
    let a := scalarAddr h base off
    if scalarOk a then (s.modLocal co.c h.idx (fun m => m.putLe a 4 h.regs[r].toNat)).pcPlus co 1 else s.shareFault co run h))

/-- EXEC (R217, R112): the operations of a descriptor are issued; their order is their engines' matter. -/
def execEngineExec (co : CoreId) (operand : W32) (s : State) : Host.Outcome State Fault Refusal :=
  .next (s.shareStep co (fun _ h =>
    let l := s.issued co.c h operand.toNat
    let s := s.modShare co (fun h =>
      { h with ops := h.ops ++ l, opSeq := h.opSeq + l.length, execs := h.execs + 1, pc := h.pc + 2 })
    s.syncWords co))

/-- BARGE (R217, R232, R233, R236): the descriptor enters its mover's queue; a full queue stalls the share, which tries again
when the instruction comes again. -/
def execBarge (co : CoreId) (src : BargeSrc) (s : State) : Host.Outcome State Fault Refusal :=
  .next (match s.shareOn co with
    | none => s
    | some (r, h) =>
      if !((h.st = .running || h.st = .stalled) && !h.ended && s.clusterUp co.c) then s
      else
        match src with
        | .word a => s.shareBarge co r h (s.shareBytes co.c h.idx a.toNat 64) (h.pc + 2)
        | .reg q =>
          let a := h.regs[q].toNat
          let legal := decide (a % 64 = 0 ∧ bits a 24 7 = 0) && (bit a 31 || decide (bits a 0 24 < 0x400000))
          if legal then s.shareBarge co r h (s.shareBytes co.c h.idx a 64) (h.pc + 1)
          else
            (s.bargeRefused r.ctx co.c 0x0303 0 (leBytes 1 0xFF)).modShare co (fun h => { h with pc := h.pc + 1, st := .running }))

/-- A LOCKW that timed out ends its share (R241): its run is in overrun with cause LOCK_TIMEOUT. -/
def State.lockwExpired (s : State) (r : Run) (i : Fin 4) : State :=
  let s := s.modRun r.rid (fun r => { r with shares := sharesMod (fun h => { h with st := .running, ended := true }) r.shares i })
  match s.run? r.rid with
  | some r => if r.cause.isNone then (s.overrunRun r 2).settleStop else s
  | none => s

/-- LOCKW (R217, R239 to R242). -/
def execLockw (co : CoreId) (timeout : BitVec 20) (ref : W32) (s : State) : Host.Outcome State Fault Refusal :=
  .next (s.shareStep co (fun r h =>
    if !refValid ref then s.pcPlus co 2
    else
      let (s, res) := s.lockWait (waitKeeper co.c ref) (refLock ref) (refCount ref) (s.now + timeout.toNat * 1000) (.share co r.rid h.idx)
      match res with
      | .released => s.pcPlus co 2
      | .queued => s.modShare co (fun h => { h with st := .inLockw })
      | .full => s.lockwExpired r h.idx))

/-- RAISE (R217, R238, R243). -/
def execRaise (co : CoreId) (ref : W32) (s : State) : Host.Outcome State Fault Refusal :=
  .next (s.shareStep co (fun _ _ => (s.raiseRef (some co.c) ref).pcPlus co 2))

/-- A share that began its LOCKW on a core waits in a keeper longer than it allows (R36, R240): which share, and its waiter. A
share suspended meanwhile waits on. -/
def State.lockwLate (s : State) (co : CoreId) : Option (Nat × Fin 4 × Waiter) :=
  ([some co.c, none] : List KeeperId).findSome? (fun k =>
    (s.keeper k).waiters.findSome? (fun w =>
      match w.who with
      | .share co' rid i => if co' = co ∧ w.expiry < s.now then some (rid, i, w) else none
      | _ => none))

/-- LOCKW_TIMEOUT (R240, R241). -/
def execLockwTimeout (co : CoreId) (s : State) : Host.Outcome State Fault Refusal :=
  .next (match s.lockwLate co with
    | some (rid, i, w) =>
      match s.run? rid with
      | some r => ((s.waitEnded w 1).dropWaiters (fun x => x.who = .share co rid i)).lockwExpired r i
      | none => s
    | none => s)

/-- CROSS_CLUSTER_RAISE (R243): the oldest raise on its way to a cluster's keeper is applied. -/
def execCrossClusterRaise (c : Fin 4) (s : State) : Host.Outcome State Fault Refusal :=
  .next (match s.clusters[c].raisesIn with
    | [] => s
    | (l, n) :: rest => (s.modCl c (fun x => { x with raisesIn := rest })).applyRaise (some c) l n)

/-- GLOBAL_LOCK_RAISE (R243): the oldest raise on its way to the global keeper in firmware is applied. -/
def execGlobalLockRaise (s : State) : Host.Outcome State Fault Refusal :=
  .next (if !s.fwUp then s else
    match s.globalIn with
    | [] => s
    | (l, n) :: rest => State.applyRaise { s with globalIn := rest } none l n)

end Sys2Proof.Machine
end

