-- ==== Sys2Proof/Machine/Supply.lean ====
section
/-! DEFINITION. The meanings of VIN, TOWPATH and PERST_L (R254, R447, R470, R474, R492, R523, R574, R587, R602, R606, R609,
R619 to R624). -/

namespace Sys2Proof.Machine

/-- Trace as PERST_L leaves it: the configuration and the counters reset, the sink and what the units count since VIN application
stay (R602, R604, R609). -/
def Trc.config (t : Trc) : Trc :=
  { Trc.reset with
    unit := t.unit.map (fun (u : TrcUnit) => { u with filter := TrcUnit.reset.filter }), sink := t.sink, head := t.head,
    wraps := t.wraps, held := t.held, dropped := t.dropped, turn := t.turn, epoch := t.epoch }

/-- Every reach but TOWPATH powers off and what PERST_L and VIN loss clear is cleared (R254, R492, R523, R574, R606): all but
NOR, the log, the status map, the trace sink, the JTAG port and the host's own memory. -/
def State.blackout (s : State) : State :=
  let t := ([5, 4, 9, 8, 7, 6, 2, 1, 3] : List (Fin 10)).foldl State.powerOff s
  { State.reset with
    pending := s.pending, fresh := t.fresh, epoch := t.epoch, host := s.host, nor := s.nor,
    pcie := { Pcie.reset with sent := s.pcie.sent, sris := s.pcie.sris }, log := s.log, status := s.status, trc := t.trc.config, jtag := s.jtag,
    dev := { s.dev with index := 0xFF, size := none, powered := if s.dev.towpath then 1 else 0 } }

/-- BOOT begins (R447, R474, R570, R587, R605): SYSTIME restarts, the log is cleared, the state group is published, the TOWPATH
unit writes REACH_ON and SYNC. -/
def State.beginBoot (s : State) : State :=
  State.traceReachOn
    { s with
      dev := { s.dev with state := .boot, systime := 0, frac := 0 }, log := LogSt.reset, status := StatusSt.reset,
      trc := { s.trc with
        epoch := s.trc.epoch + 1, unit := s.trc.unit.map (fun (u : TrcUnit) => { u with last := 0, lastSync := 0 }) } } 0 2

/-- The status map at VIN application (R474): every group zero. -/
def StatusSt.zero : StatusSt := ⟨(Mem.empty.putLe 0 2 0x4800).putLe 2 2 0x0100, false, 1000000⟩

/-- VIN_RISE (R474, R570, R602, R619, R622, R624): power-up begins; a TOWPATH still running from the hold-up charge goes down
first. -/
def execVinRise (s : State) : Host.Outcome State Fault Refusal :=
  .next (
    if s.dev.vin ∨ s.dev.vinOver then s else
    { s.blackout with
      dev := { Dev.reset with state := .off, powered := 0, vin := true, towpath := false, perst := s.dev.perst },
      log := LogSt.reset, status := StatusSt.zero, trc := { Trc.reset with epoch := 0 }, jtag := Jtag.reset })

/-- TOWPATH_UP (R622, R623): SYSTIME counts; a PERST_L released before takes effect. -/
def execTowpathUp (s : State) : Host.Outcome State Fault Refusal :=
  .next (
    if ¬ s.dev.vin ∨ s.dev.towpath then s else
    let s : State := { s with dev := { s.dev with towpath := true, powered := 1 } }
    if s.dev.perst then s else s.beginBoot)

/-- VIN is lost (R574, R619, R624): OFF, with TOWPATH on its hold-up charge. -/
def State.vinLoss (s : State) : State :=
  let s := s.blackout
  { s with dev := { s.dev with state := .off, vin := false } }

/-- VIN_FALL (R447, R574, R624). -/
def execVinFall (s : State) : Host.Outcome State Fault Refusal := .next (if s.dev.vin then s.vinLoss else s)

/-- VIN_OVERVOLTAGE (R619). -/
def execVinOvervoltage (s : State) : Host.Outcome State Fault Refusal :=
  .next (
    let s := if s.dev.vin then s.vinLoss else s
    { s with dev := { s.dev with vinOver := true } })

/-- VIN_OVERVOLTAGE_CLEAR (R619): VIN is within range again only from its next rising crossing. -/
def execVinOvervoltageClear (s : State) : Host.Outcome State Fault Refusal :=
  .next { s with dev := { s.dev with vinOver := false } }

/-- HOLD_UP_CHARGE_SPENT (R606, R624): TOWPATH goes down, and the sink with it. -/
def execHoldUpChargeSpent (s : State) : Host.Outcome State Fault Refusal :=
  .next (
    if s.dev.vin ∨ ¬ s.dev.towpath then s
    else { s with dev := { s.dev with towpath := false, powered := 0 }, trc := Trc.reset })

/-- PERST_L_ASSERT (R447, R574, R597, R623): a pulse of 1 µs or more. -/
def execPerstLAssert (s : State) : Host.Outcome State Fault Refusal :=
  .next (
    if s.dev.perst then s
    else
      let s := if s.dev.state = .off then s else s.blackout
      { s with dev := { s.dev with perst := true } })

/-- PERST_L_RELEASE (R447, R587, R622, R623, R636): the endpoint takes common-clock mode where a reference clock runs on its balls,
else SRIS mode; no command sets what is on the balls, so it is a free value at each release (log entry 179). BOOT begins while
TOWPATH is up and VIN within range. -/
def execPerstLRelease (s : State) : Host.Outcome State Fault Refusal :=
  .next (
    if ¬ s.dev.perst then s
    else
      let s : State := { s with dev := { s.dev with perst := false } }
      let s := if s.dev.vin ∧ s.dev.towpath then s.beginBoot else s
      let (ref, s) := s.draw
      { s with pcie := { s.pcie with sris := decide (ref % 2 = 1) } })

end Sys2Proof.Machine
end

