-- ==== Sys2Proof/Machine/Trace.lean ====
section
/-! DEFINITION. The meanings of trace's own writes, of the TRC commands and of the JTAG port (R602 to R615). -/

namespace Sys2Proof.Machine

/-! ### Trace -/

/-- TRACE_SYNC_PERIOD (R605): a unit that has produced packets since its last SYNC writes the next one. -/
def execTraceSyncPeriod (r : Fin 10) (s : State) : Host.Outcome State Fault Refusal :=
  .next (
    let u := s.trc.unit[r]
    let p := 1000 * s.trc.syncPeriod
    if s.dev.towpath && decide (0 < p ∧ u.lastSync + p ≤ s.now ∧ u.lastSync < u.last) then s.traceSync r else s)

/-- TRACE_LOST_WRITE (R605, R607): the pending LOST goes into the first free unit, once the unit has been quiet for 40 ns with
the sink accepting, or 256 packets were lost. -/
def execTraceLostWrite (r : Fin 10) (s : State) : Host.Outcome State Fault Refusal :=
  .next (
    let u := s.trc.unit[r]
    match u.lost with
    | none => s
    | some (n, _) =>
      let quiet := !s.trc.refuses && decide (u.last + 40 ≤ s.now)
      if s.on r.val && u.filter.getLsbD 31 && decide (fifoUnits u.fifo + 1 ≤ 256) && (quiet || decide (256 ≤ n)) then s.traceLost r
      else s)

/-- The TRC block answers (R457). -/
def State.trcUp (s : State) : Bool := s.supervised && s.on 3

/-- TRC_CTRL_CLEAR (R602, R612). -/
def execTrcCtrlClear (s : State) : Host.Outcome State Fault Refusal :=
  .next (if s.trcUp then { s with trc := s.trc.clear } else s)

/-- TRC_CNT_SNAP (R609). -/
def execTrcCntSnap (s : State) : Host.Outcome State Fault Refusal := .next (if s.trcUp then s.snapshot else s)

/-- TRC_CNT_CLEAR (R609). -/
def execTrcCntClear (s : State) : Host.Outcome State Fault Refusal :=
  .next (if s.trcUp then { s with trc := { s.trc with cnt := [], snap := [] } } else s)

/-- TRC_CLIP_SEL_WRITE (R611). -/
def execTrcClipSelWrite (value : W32) (s : State) : Host.Outcome State Fault Refusal :=
  .next (if s.trcUp then s.clipCapture value else s)

/-- TRC_LW_SEL_WRITE (R610). -/
def execTrcLwSelWrite (w : Fin 8) (value : W32) (s : State) : Host.Outcome State Fault Refusal :=
  .next (if s.trcUp then s.lwSelect w value else s)

/-! ### The JTAG port (R613 to R615) -/

/-- The port answers: TOWPATH is up. -/
def State.jtagUp (s : State) : Bool := s.dev.towpath

/-- The state with an instruction selected. -/
def State.jtagIr (s : State) (ir : Byte) (f : Jtag → Jtag) : State :=
  if s.jtagUp then { s with jtag := f { s.jtag with ir := ir } } else s

/-- How the balls are driven. -/
inductive BallDrive where
  | device | boundary | highZ
deriving DecidableEq, Repr

/-- How the balls with boundary cells are driven (R614, R624): EXTEST, CLAMP and HIGHZ take effect only while PERST_L is asserted;
without TOWPATH every ball is high impedance. -/
def State.balls (s : State) : BallDrive :=
  if !s.dev.towpath then .highZ
  else if s.dev.perst && (s.jtag.ir = 0x00 || s.jtag.ir = 0x04) then .boundary
  else if s.dev.perst && s.jtag.ir = 0x05 then .highZ
  else .device

/-- JTAG_TEST_LOGIC_RESET (R613): BYPASS is selected, and the device drives its balls. -/
def execJtagTestLogicReset (s : State) : Host.Outcome State Fault Refusal := .next (s.jtagIr 0xFF (fun j => j))

/-- EXTEST (R614): drives the balls from the boundary register while PERST_L is asserted, else behaves as BYPASS. -/
def execExtest (cells : List Bool) (s : State) : Host.Outcome State Fault Refusal :=
  .next (s.jtagIr 0x00 (fun j => if s.dev.perst then { j with cells := cells } else { j with bypass := false }))

/-- SAMPLE/PRELOAD (R614): loads the boundary register and disturbs nothing. -/
def execSamplePreload (cells : List Bool) (s : State) : Host.Outcome State Fault Refusal :=
  .next (s.jtagIr 0x01 (fun j => { j with cells := cells }))

/-- CLAMP (R614): the bypass register stands between TDI and TDO, the balls are driven from the boundary register while PERST_L is
asserted. -/
def execClamp (s : State) : Host.Outcome State Fault Refusal :=
  .next (s.jtagIr 0x04 (fun j => { j with bypass := false }))

/-- HIGHZ (R614): the balls are high impedance while PERST_L is asserted. -/
def execHighz (s : State) : Host.Outcome State Fault Refusal :=
  .next (s.jtagIr 0x05 (fun j => { j with bypass := false }))

/-- BYPASS (R613): its one-bit register captures 0. -/
def execJtagBypass (s : State) : Host.Outcome State Fault Refusal :=
  .next (s.jtagIr 0xFF (fun j => { j with bypass := false }))

/-- DBG_ADDR (R615). -/
def execDbgAddr (value : W32) (s : State) : Host.Outcome State Fault Refusal :=
  .next (s.jtagIr 0x20 (fun j => { j with addr := value }))

/-- The bytes of a debug space (R615). -/
def dbgSize (space : Nat) : Nat :=
  match space with
  | 0 => 0x20000
  | 1 => 0x400
  | 2 => 0x10000
  | _ => 0x20000

/-- The 32-bit word that a debug address names (R470, R615). The status map reads 0 while PERST_L is asserted, but for ST_SIG; in
OFF the reads give free values (log entry 118). -/
def State.dbgWord (s : State) (a : W32) : Nat :=
  let space := bits a.toNat 30 2
  let off := bits a.toNat 2 15 * 4 % dbgSize space
  if s.dev.state = .off then Config.freeNat s.fresh % 0x100000000
  else
    match space with
    | 0 => s.trc.sink.le off 4
    | 1 => if s.dev.perst && decide (off ≠ 0) then 0 else s.status.map.le (off / 2) 2
    | 2 => s.log.mem.le off 4
    | _ => 0

/-- DBG_DATA_CAPTURE (R615): Capture-DR reads the addressed word. -/
def execDbgDataCapture (s : State) : Host.Outcome State Fault Refusal :=
  .next (
    if s.jtagUp then
      { s with
        fresh := if s.dev.state = .off then s.fresh + 1 else s.fresh,
        jtag := { s.jtag with ir := 0x21, data := BitVec.ofNat 32 (s.dbgWord s.jtag.addr) } }
    else s)

/-- The address after an Update-DR: the offset 4 higher, wrapping within its space (R615). -/
def dbgNext (a : W32) : W32 :=
  let space := bits a.toNat 30 2
  let off := (bits a.toNat 2 15 * 4 + 4) % dbgSize space
  (a &&& 0xFFFE0000) ||| BitVec.ofNat 32 off

/-- DBG_DATA_UPDATE (R615). -/
def execDbgDataUpdate (s : State) : Host.Outcome State Fault Refusal :=
  .next (s.jtagIr 0x21 (fun j => { j with addr := dbgNext j.addr }))

end Sys2Proof.Machine
end

