-- ==== Sys2Proof/Machine/VecFn.lean ====
section
/-! DEFINITION. The vector engine's lane arithmetic (R222 to R225): registers are 256 bytes each at 256 times their number
of a register memory. -/

namespace Sys2Proof.Machine

/-- The floating-point format of a lane format. -/
def vfloat : VFmt → Option FFmt
  | .fp32 => some fp32
  | .fp16 => some fp16
  | .bf16 => some bf16
  | _ => none

/-- Lane width in bytes. -/
def vbytes : VFmt → Nat
  | .fp32 => 4
  | .fp16 => 2
  | .bf16 => 2
  | .int8 => 1
  | .int16 => 2
  | .int32 => 4

/-- Lane width in bits and lane count. -/
def vbits (f : VFmt) : Nat := 8 * vbytes f
def vlanes (f : VFmt) : Nat := 256 / vbytes f

/-- Lane `i` of a register. -/
def lane (m : Mem) (f : VFmt) (r : Fin 32) (i : Nat) : Nat := m.le (256 * r.val + i * vbytes f) (vbytes f)

/-- Write lane `i` of a register. -/
def putLane (m : Mem) (f : VFmt) (r : Fin 32) (i v : Nat) : Mem := m.putLe (256 * r.val + i * vbytes f) (vbytes f) v

/-- Whether an operation writes lane `i` (R222). -/
def laneOn (mask : BitVec 256) (masked : Bool) (i : Nat) : Bool := !masked || mask.getLsbD i

/-- A lane-wise operation: every written lane gets `op va vb vd`, its flags gathered. -/
def laneWise (m : Mem) (mask : BitVec 256) (a : VArgs) (op : Nat → Nat → Nat → Nat × NFlags) : Mem × NFlags :=
  let rs := ((List.range (vlanes a.fmt)).filter (laneOn mask a.masked)).map (fun i =>
    (i, op (lane m a.fmt a.va i) (lane m a.fmt a.vb i) (lane m a.fmt a.vd i)))
  (rs.foldl (fun m r => putLane m a.fmt a.vd r.1 r.2.1) m, rs.foldl (fun f r => f.or r.2.2) .none)

/-- A comparison into the lane mask (R222): the bits of the written lanes. -/
def laneCmp (m : Mem) (mask : BitVec 256) (a : VArgs) (op : Nat → Nat → Bool × NFlags) : BitVec 256 × NFlags :=
  let rs := ((List.range (vlanes a.fmt)).filter (laneOn mask a.masked)).map (fun i =>
    (i, op (lane m a.fmt a.va i) (lane m a.fmt a.vb i)))
  (rs.foldl (fun k r => if r.2.1 then k ||| BitVec.twoPow 256 r.1 else k &&& ~~~ BitVec.twoPow 256 r.1) mask,
    rs.foldl (fun f r => f.or r.2.2) .none)

/-- The comparison of two lanes. -/
def cmpLane (f : VFmt) (op : CmpOp) (x y : Nat) : Bool × NFlags :=
  match vfloat f with
  | some ff => fcmp ff op x y
  | none =>
    let a := sgn (vbits f) x
    let b := sgn (vbits f) y
    (match op with
      | .eq => decide (a = b)
      | .ne => decide (a ≠ b)
      | .lt => decide (a < b)
      | .le => decide (a ≤ b), .none)

/-- An operation with a float form and an integer form on signed lane values. -/
def arith (f : VFmt) (fop : FFmt → Nat → Nat → Nat × NFlags) (iop : Nat → Int → Int → Nat × NFlags) (x y : Nat) : Nat × NFlags :=
  match vfloat f with
  | some ff => fop ff x y
  | none => iop (vbits f) (sgn (vbits f) x) (sgn (vbits f) y)

/-- EXP2 (R224): exp2_u for t ≤ 0, scaled for t > 0. -/
def vexp2 (t : Nat) : Nat × NFlags :=
  let (v, fl) := fp32.decode t
  match v with
  | .nan => fp32.nanRes
  | .inf n => if n then (0, .none) else (fp32.infBits false, .none)
  | .fin n m e =>
    if m = 0 then let r := exp2u 0; (r.1, fl.or r.2)
    else if n then exp2u t
    else
      let c : Nat := if e ≥ 0 then m * 2 ^ e.toNat else (m + 2 ^ (-e).toNat - 1) / 2 ^ (-e).toNat
      let u := (fsub fp32 t (f32i c)).1
      if c > 1000 then (fp32.maxBits false, .mkOv)
      else
        let (p, g1) := exp2u u
        let (z, g2) := scale2 p c
        (z, g1.or g2)

/-- LOG2 (R224). -/
def vlog2 (x : Nat) : Nat × NFlags :=
  let (v, fl) := fp32.decode x
  match v with
  | .nan => fp32.nanRes
  | .inf n => if n then fp32.nanRes else (fp32.infBits false, .none)
  | .fin n m _ =>
    if m = 0 then (fp32.infBits true, fl.or .mkDz) else if n then fp32.nanRes else log2u x

/-- CVT of one lane (R64): float to float, float to integer, integer to float; between integers as NARROW by 0. -/
def cvtLane (src dst : VFmt) (x : Nat) : Nat × NFlags :=
  match vfloat src, vfloat dst with
  | some s, some d => fcvt s d x
  | some s, none => let r := fToInt s (vbits dst) x; (wrapN (vbits dst) r.1, r.2)
  | none, some d => intToF d (sgn (vbits src) x)
  | none, none => satRes (vbits dst) (sgn (vbits src) x)

/-- A conversion of every lane that both formats have, read before any is written. -/
def convWise (m : Mem) (mask : BitVec 256) (a : VArgs) (dst : VFmt) (op : Nat → Nat → Nat × NFlags) : Mem × NFlags :=
  let rs := ((List.range (min (vlanes a.fmt) (vlanes dst))).filter (laneOn mask a.masked)).map (fun i =>
    (i, op (lane m a.fmt a.va i) (lane m a.fmt a.vb i)))
  (rs.foldl (fun m r => putLane m dst a.vd r.1 r.2.1) m, rs.foldl (fun f r => f.or r.2.2) .none)

/-- The reductions of R223 over all lanes of a register: FP32 exact sum rounded once, INT32 sum wrapping with V. -/
def reduceSum (m : Mem) (a : VArgs) : Nat × NFlags :=
  let ls := (List.range (vlanes a.fmt)).map (lane m a.fmt a.va)
  match vfloat a.fmt with
  | some ff =>
    let (v, fl) := decodeAll ff ls
    let (r, g) := ff.sumVals v
    (r, fl.or g)
  | none => wrapInt (vbits a.fmt) (ls.foldl (fun x y => x + sgn (vbits a.fmt) y) 0)

/-- RMAX and RMIN: the fold of the lane operation from lane 0. -/
def reduceWith (m : Mem) (a : VArgs) (op : Nat → Nat → Nat × NFlags) : Nat × NFlags :=
  match (List.range (vlanes a.fmt)).map (lane m a.fmt a.va) with
  | [] => (0, .none)
  | x :: t =>
    let z := op x x
    t.foldl (fun acc y => let r := op acc.1 y; (r.1, acc.2.or r.2)) z

/-- Whether the table of R222 gives an operation class a format. -/
def vIsFloat (f : VFmt) : Bool := (vfloat f).isSome
def vIsInt (f : VFmt) : Bool := (vfloat f).isNone

end Sys2Proof.Machine
end

