-- ==== Sys2Proof/Machine/Vector.lean ====
section
/-! DEFINITION. The meanings of the vector engine's instructions (R222 to R225). A form that the table of R222 does not
give is a fault; FMA adds its destination, SEL takes source a where the lane mask is set, a reduction writes lane 0 (log
entries 47 to 49). -/

namespace Sys2Proof.Machine

/-- Run a vector instruction of a form the table gives: the registers and mask it leaves, its flags gathered in the run
(R65), the next word. -/
def State.vecStep (s : State) (co : CoreId) (f : Mem → BitVec 256 → Mem × BitVec 256 × NFlags) : State :=
  s.shareStep co (fun r h =>
    let (m, k, fl) := f h.vreg h.vmask
    let s := s.modRun r.rid (fun r => { r with flags := r.flags ||| fl.word })
    s.modShare co (fun h => { h with vreg := m, vmask := k, pc := h.pc + 1 }))

/-- A vector instruction: its form, then its effect. -/
def State.vec (s : State) (co : CoreId) (legal : Bool) (f : Mem → BitVec 256 → Mem × BitVec 256 × NFlags) :
    Host.Outcome State Fault Refusal :=
  if legal then .next (s.vecStep co f) else .fault .illegalVectorForm

/-- A lane-wise instruction of the values of va, vb and vd. -/
def State.vecLanes (s : State) (co : CoreId) (a : VArgs) (legal : Bool) (op : Nat → Nat → Nat → Nat × NFlags) :
    Host.Outcome State Fault Refusal :=
  s.vec co legal (fun m k => let r := laneWise m k a op; (r.1, k, r.2))

/-- A lane-wise instruction with a float and an integer form. -/
def State.vecArith (s : State) (co : CoreId) (a : VArgs) (legal : Bool) (fop : FFmt → Nat → Nat → Nat × NFlags)
    (iop : Nat → Int → Int → Nat × NFlags) : Host.Outcome State Fault Refusal :=
  s.vecLanes co a legal (fun x y _ => arith a.fmt fop iop x y)

/-- A comparison into the lane mask. -/
def State.vecCmp (s : State) (co : CoreId) (a : VArgs) (op : CmpOp) : Host.Outcome State Fault Refusal :=
  s.vec co true (fun m k => let r := laneCmp m k a (cmpLane a.fmt op); (m, r.1, r.2))

/-- A reduction of a register into lane 0 of the destination. -/
def State.vecReduce (s : State) (co : CoreId) (a : VArgs) (op : Mem → Nat × NFlags) : Host.Outcome State Fault Refusal :=
  s.vec co (a.fmt = .fp32 || a.fmt = .int32) (fun m k =>
    let r := op m
    (if laneOn k a.masked 0 then putLane m a.fmt a.vd 0 r.1 else m, k, r.2))

/-- An integer shift or logic operation on the lanes' bits. -/
def State.vecBits (s : State) (co : CoreId) (a : VArgs) (op : Nat → Nat → Nat → Nat) : Host.Outcome State Fault Refusal :=
  s.vecLanes co a (vIsInt a.fmt) (fun x y _ => (op (vbits a.fmt) x y % 2 ^ vbits a.fmt, .none))

/-- ADD (R59, R68). -/
def execVecAdd (co : CoreId) (a : VArgs) (s : State) : Host.Outcome State Fault Refusal :=
  s.vecArith co a true fadd (fun w x y => wrapInt w (x + y))

/-- SUB (R59, R68). -/
def execVecSub (co : CoreId) (a : VArgs) (s : State) : Host.Outcome State Fault Refusal :=
  s.vecArith co a true fsub (fun w x y => wrapInt w (x - y))

/-- MUL (R59, R68). -/
def execVecMul (co : CoreId) (a : VArgs) (s : State) : Host.Outcome State Fault Refusal :=
  s.vecArith co a true fmul (fun w x y => wrapInt w (x * y))

/-- FMA (R59): va * vb + vd, rounded once (log entry 47). -/
def execVecFma (co : CoreId) (a : VArgs) (s : State) : Host.Outcome State Fault Refusal :=
  s.vecLanes co a (vIsFloat a.fmt) (fun x y z => match vfloat a.fmt with
    | some f => ffma f x y z
    | none => (0, .none))

/-- NEG (R66 to R68). -/
def execVecNeg (co : CoreId) (a : VArgs) (s : State) : Host.Outcome State Fault Refusal :=
  s.vecArith co a true (fun f x _ => fneg f x) (fun w x _ => satRes w (-x))

/-- ABS (R66, R68). -/
def execVecAbs (co : CoreId) (a : VArgs) (s : State) : Host.Outcome State Fault Refusal :=
  s.vecArith co a true (fun f x _ => fabs f x) (fun w x _ => satRes w x.natAbs)

/-- MIN (R63). -/
def execVecMin (co : CoreId) (a : VArgs) (s : State) : Host.Outcome State Fault Refusal :=
  s.vecArith co a true fmin (fun w x y => (wrapN w (min x y), .none))

/-- MAX (R63). -/
def execVecMax (co : CoreId) (a : VArgs) (s : State) : Host.Outcome State Fault Refusal :=
  s.vecArith co a true fmax (fun w x y => (wrapN w (max x y), .none))

/-- DIV (R63, R68, R222): a float quotient; an integer quotient in vd and remainder in vr. -/
def execVecDiv (co : CoreId) (a : VArgs) (vr : Fin 32) (s : State) : Host.Outcome State Fault Refusal :=
  if vIsFloat a.fmt then s.vecArith co a true fdiv (fun _ _ _ => (0, .none))
  else
    s.vec co true (fun m k =>
      let w := vbits a.fmt
      let q := laneWise m k a (fun x y _ => let r := idiv w (sgn w x) (sgn w y); (r.1, r.2.2))
      let rem := ((List.range (vlanes a.fmt)).filter (laneOn k a.masked)).map (fun i =>
        (i, (idiv w (sgn w (lane m a.fmt a.va i)) (sgn w (lane m a.fmt a.vb i))).2.1))
      (rem.foldl (fun m r => putLane m a.fmt vr r.1 r.2) q.1, k, q.2))

/-- RECIP (R63, R66). -/
def execVecRecip (co : CoreId) (a : VArgs) (s : State) : Host.Outcome State Fault Refusal :=
  s.vecArith co a (vIsFloat a.fmt) (fun f x _ => frecip f x) (fun _ _ _ => (0, .none))

/-- SQRT (R63, R66). -/
def execVecSqrt (co : CoreId) (a : VArgs) (s : State) : Host.Outcome State Fault Refusal :=
  s.vecArith co a (vIsFloat a.fmt) (fun f x _ => fsqrt f x) (fun _ _ _ => (0, .none))

/-- RSQRT (R63, R66). -/
def execVecRsqrt (co : CoreId) (a : VArgs) (s : State) : Host.Outcome State Fault Refusal :=
  s.vecArith co a (vIsFloat a.fmt) (fun f x _ => frsqrt f x) (fun _ _ _ => (0, .none))

/-- EXP2 (R224). -/
def execVecExp2 (co : CoreId) (a : VArgs) (s : State) : Host.Outcome State Fault Refusal :=
  s.vecLanes co a (a.fmt = .fp32) (fun x _ _ => vexp2 x)

/-- LOG2 (R224). -/
def execVecLog2 (co : CoreId) (a : VArgs) (s : State) : Host.Outcome State Fault Refusal :=
  s.vecLanes co a (a.fmt = .fp32) (fun x _ _ => vlog2 x)

/-- ADDS (R68). -/
def execVecAdds (co : CoreId) (a : VArgs) (s : State) : Host.Outcome State Fault Refusal :=
  s.vecArith co a (vIsInt a.fmt) (fun _ _ _ => (0, .none)) (fun w x y => satRes w (x + y))

/-- SUBS (R68). -/
def execVecSubs (co : CoreId) (a : VArgs) (s : State) : Host.Outcome State Fault Refusal :=
  s.vecArith co a (vIsInt a.fmt) (fun _ _ _ => (0, .none)) (fun w x y => satRes w (x - y))

/-- MULS (R68). -/
def execVecMuls (co : CoreId) (a : VArgs) (s : State) : Host.Outcome State Fault Refusal :=
  s.vecArith co a (vIsInt a.fmt) (fun _ _ _ => (0, .none)) (fun w x y => satRes w (x * y))

/-- AND (R222). -/
def execVecAnd (co : CoreId) (a : VArgs) (s : State) : Host.Outcome State Fault Refusal :=
  s.vecBits co a (fun _ x y => x &&& y)

/-- OR (R222). -/
def execVecOr (co : CoreId) (a : VArgs) (s : State) : Host.Outcome State Fault Refusal :=
  s.vecBits co a (fun _ x y => x ||| y)

/-- XOR (R222). -/
def execVecXor (co : CoreId) (a : VArgs) (s : State) : Host.Outcome State Fault Refusal :=
  s.vecBits co a (fun _ x y => x ^^^ y)

/-- NOT (R222). -/
def execVecNot (co : CoreId) (a : VArgs) (s : State) : Host.Outcome State Fault Refusal :=
  s.vecBits co a (fun w x _ => 2 ^ w - 1 - x)

/-- SHL (R68, R69). -/
def execVecShl (co : CoreId) (a : VArgs) (s : State) : Host.Outcome State Fault Refusal :=
  s.vecBits co a shlN

/-- LSR (R68, R69). -/
def execVecLsr (co : CoreId) (a : VArgs) (s : State) : Host.Outcome State Fault Refusal :=
  s.vecBits co a lsrN

/-- ASR (R68, R69). -/
def execVecAsr (co : CoreId) (a : VArgs) (s : State) : Host.Outcome State Fault Refusal :=
  s.vecBits co a asrN

/-- CMPEQ (R63). -/
def execVecCmpeq (co : CoreId) (a : VArgs) (s : State) : Host.Outcome State Fault Refusal :=
  s.vecCmp co a .eq

/-- CMPNE (R63). -/
def execVecCmpne (co : CoreId) (a : VArgs) (s : State) : Host.Outcome State Fault Refusal :=
  s.vecCmp co a .ne

/-- CMPLT (R63). -/
def execVecCmplt (co : CoreId) (a : VArgs) (s : State) : Host.Outcome State Fault Refusal :=
  s.vecCmp co a .lt

/-- CMPLE (R63). -/
def execVecCmple (co : CoreId) (a : VArgs) (s : State) : Host.Outcome State Fault Refusal :=
  s.vecCmp co a .le

/-- SEL (R222): source a where the lane mask is set, source b elsewhere (log entry 48). -/
def execVecSel (co : CoreId) (a : VArgs) (s : State) : Host.Outcome State Fault Refusal :=
  s.vec co true (fun m k =>
    let rs := ((List.range (vlanes a.fmt)).filter (laneOn k a.masked)).map (fun i =>
      (i, if k.getLsbD i then lane m a.fmt a.va i else lane m a.fmt a.vb i))
    (rs.foldl (fun m r => putLane m a.fmt a.vd r.1 r.2) m, k, .none))

/-- CVT (R64, R66, R67). -/
def execVecCvt (co : CoreId) (a : VArgs) (dst : VFmt) (s : State) : Host.Outcome State Fault Refusal :=
  s.vec co true (fun m k => let r := convWise m k a dst (fun x _ => cvtLane a.fmt dst x); (r.1, k, r.2))

/-- NARROW (R68, R69): INT32 to INT16 or INT8, INT16 to INT8, by the shift count in source b's lane. -/
def execVecNarrow (co : CoreId) (a : VArgs) (dst : VFmt) (s : State) : Host.Outcome State Fault Refusal :=
  s.vec co (vIsInt a.fmt && vIsInt dst && decide (vbytes dst < vbytes a.fmt)) (fun m k =>
    let r := convWise m k a dst (fun x n => narrowInt (vbits dst) (sgn (vbits a.fmt) x) n)
    (r.1, k, r.2))

/-- RSUM (R223). -/
def execVecRsum (co : CoreId) (a : VArgs) (s : State) : Host.Outcome State Fault Refusal :=
  s.vecReduce co a (fun m => reduceSum m a)

/-- RMAX (R222). -/
def execVecRmax (co : CoreId) (a : VArgs) (s : State) : Host.Outcome State Fault Refusal :=
  s.vecReduce co a (fun m => reduceWith m a (arith a.fmt fmax (fun w x y => (wrapN w (max x y), .none))))

/-- RMIN (R222). -/
def execVecRmin (co : CoreId) (a : VArgs) (s : State) : Host.Outcome State Fault Refusal :=
  s.vecReduce co a (fun m => reduceWith m a (arith a.fmt fmin (fun w x y => (wrapN w (min x y), .none))))

/-- The local ranges of a vector load or store: `count` registers, their starts `stride` bytes apart. -/
def vecSpans (count off stride : Nat) : List (Nat × Nat) := (List.range count).map (fun i => (off + i * stride, 256))

/-- A vector load or store has a form: registers up to v31, and every byte in local memory (R225). -/
def vecMemOk (vd : Fin 32) (count off stride : Nat) : Bool :=
  decide (1 ≤ count ∧ vd.val + count ≤ 32) && (vecSpans count off stride).all (fun r => decide (r.1 + r.2 ≤ 0x400000))

/-- The ranges of a vector load or store (R112, R225). -/
def vecRanges (l : List (Nat × Nat)) (store : Bool) : Ranges :=
  let g := l.map (fun r => (⟨false, r.1, r.2⟩ : Rng))
  if store then ⟨[], g⟩ else ⟨g, []⟩

/-- VLD (R222, R225): it waits for an operation of its share whose ranges meet its own. -/
def execVld (co : CoreId) (vd : Fin 32) (count : Nat) (off stride : W32) (s : State) : Host.Outcome State Fault Refusal :=
  if !vecMemOk vd count off.toNat stride.toNat then .fault .illegalVectorForm
  else .next (s.shareStep co (fun r h =>
    let l := vecSpans count off.toNat stride.toNat
    if !(s.localBlockers r h (vecRanges l false)).isEmpty then s
    else
      let loc := s.clusters[co.c].lmem[h.idx]
      let m := l.zipIdx.foldl (fun (m : Mem) x => m.writeBytes (256 * (vd.val + x.2)) (loc.readBytes x.1.1 256)) h.vreg
      s.modShare co (fun h => { h with vreg := m, pc := h.pc + 3 })))

/-- VST (R222, R225). -/
def execVst (co : CoreId) (vd : Fin 32) (count : Nat) (off stride : W32) (s : State) : Host.Outcome State Fault Refusal :=
  if !vecMemOk vd count off.toNat stride.toNat then .fault .illegalVectorForm
  else .next (s.shareStep co (fun r h =>
    let l := vecSpans count off.toNat stride.toNat
    if !(s.localBlockers r h (vecRanges l true)).isEmpty then s
    else
      let s := s.modLocal co.c h.idx (fun m =>
        l.zipIdx.foldl (fun (m : Mem) x => m.writeBytes x.1.1 (h.vreg.readBytes (256 * (vd.val + x.2)) 256)) m)
      s.modShare co (fun h => { h with pc := h.pc + 3 })))

end Sys2Proof.Machine
end

