-- ==== Sys2Proof/Machine/Dispatch.lean ====
section
/-! DEFINITION. The dispatch of commands to their meanings: one arm for each row of the table. -/

namespace Sys2Proof.Machine

/-- The effect of a command on everything but the queue. -/
def exec (i : Instr) (s : State) : Host.Outcome State Fault Refusal :=
  match i with
  | .controlTick k => Sys2Proof.Machine.execControlTick k s
  | .frameGeneratorMatch => Sys2Proof.Machine.execFrameGeneratorMatch s
  | .frameRefEdge rising => Sys2Proof.Machine.execFrameRefEdge rising s
  | .blankTick k => Sys2Proof.Machine.execBlankTick k s
  | .tickLost k => Sys2Proof.Machine.execTickLost k s
  | .suspendedRunResume rid => Sys2Proof.Machine.execSuspendedRunResume rid s
  | .entryRunStart rid => Sys2Proof.Machine.execEntryRunStart rid s
  | .shareRetire co => Sys2Proof.Machine.execShareRetire co s
  | .overrunBudget rid => Sys2Proof.Machine.execOverrunBudget rid s
  | .runDeadline rid => Sys2Proof.Machine.execRunDeadline rid s
  | .entryLockWaitTimeout rid => Sys2Proof.Machine.execEntryLockWaitTimeout rid s
  | .droppedRunDeadline rid => Sys2Proof.Machine.execDroppedRunDeadline rid s
  | .clipStepEvaluation c slot => Sys2Proof.Machine.execClipStepEvaluation c slot s
  | .shareNop co => Sys2Proof.Machine.execShareNop co s
  | .shareEnd co => Sys2Proof.Machine.execShareEnd co s
  | .waite co => Sys2Proof.Machine.execWaite co s
  | .mark co operand => Sys2Proof.Machine.execMark co operand s
  | .shareBz co r off => Sys2Proof.Machine.execShareBz co r off s
  | .shareBnz co r off => Sys2Proof.Machine.execShareBnz co r off s
  | .shareBlt co r off => Sys2Proof.Machine.execShareBlt co r off s
  | .shareBra co off => Sys2Proof.Machine.execShareBra co off s
  | .scalarAdd co rd ra b => Sys2Proof.Machine.execScalarAdd co rd ra b s
  | .scalarSub co rd ra b => Sys2Proof.Machine.execScalarSub co rd ra b s
  | .scalarMul co rd ra b => Sys2Proof.Machine.execScalarMul co rd ra b s
  | .scalarAnd co rd ra b => Sys2Proof.Machine.execScalarAnd co rd ra b s
  | .scalarOr co rd ra b => Sys2Proof.Machine.execScalarOr co rd ra b s
  | .scalarXor co rd ra b => Sys2Proof.Machine.execScalarXor co rd ra b s
  | .scalarShl co rd ra b => Sys2Proof.Machine.execScalarShl co rd ra b s
  | .scalarLsr co rd ra b => Sys2Proof.Machine.execScalarLsr co rd ra b s
  | .scalarAsr co rd ra b => Sys2Proof.Machine.execScalarAsr co rd ra b s
  | .scalarLdi co rd imm => Sys2Proof.Machine.execScalarLdi co rd imm s
  | .scalarLdih co rd imm => Sys2Proof.Machine.execScalarLdih co rd imm s
  | .lds co r base off => Sys2Proof.Machine.execLds co r base off s
  | .sts co r base off => Sys2Proof.Machine.execSts co r base off s
  | .engineExec co operand => Sys2Proof.Machine.execEngineExec co operand s
  | .barge co src => Sys2Proof.Machine.execBarge co src s
  | .lockw co timeout ref => Sys2Proof.Machine.execLockw co timeout ref s
  | .raise co ref => Sys2Proof.Machine.execRaise co ref s
  | .lockwTimeout co => Sys2Proof.Machine.execLockwTimeout co s
  | .crossClusterRaise c => Sys2Proof.Machine.execCrossClusterRaise c s
  | .globalLockRaise => Sys2Proof.Machine.execGlobalLockRaise s
  | .vecAdd co a => Sys2Proof.Machine.execVecAdd co a s
  | .vecSub co a => Sys2Proof.Machine.execVecSub co a s
  | .vecMul co a => Sys2Proof.Machine.execVecMul co a s
  | .vecFma co a => Sys2Proof.Machine.execVecFma co a s
  | .vecNeg co a => Sys2Proof.Machine.execVecNeg co a s
  | .vecAbs co a => Sys2Proof.Machine.execVecAbs co a s
  | .vecMin co a => Sys2Proof.Machine.execVecMin co a s
  | .vecMax co a => Sys2Proof.Machine.execVecMax co a s
  | .vecDiv co a vr => Sys2Proof.Machine.execVecDiv co a vr s
  | .vecRecip co a => Sys2Proof.Machine.execVecRecip co a s
  | .vecSqrt co a => Sys2Proof.Machine.execVecSqrt co a s
  | .vecRsqrt co a => Sys2Proof.Machine.execVecRsqrt co a s
  | .vecExp2 co a => Sys2Proof.Machine.execVecExp2 co a s
  | .vecLog2 co a => Sys2Proof.Machine.execVecLog2 co a s
  | .vecAdds co a => Sys2Proof.Machine.execVecAdds co a s
  | .vecSubs co a => Sys2Proof.Machine.execVecSubs co a s
  | .vecMuls co a => Sys2Proof.Machine.execVecMuls co a s
  | .vecAnd co a => Sys2Proof.Machine.execVecAnd co a s
  | .vecOr co a => Sys2Proof.Machine.execVecOr co a s
  | .vecXor co a => Sys2Proof.Machine.execVecXor co a s
  | .vecNot co a => Sys2Proof.Machine.execVecNot co a s
  | .vecShl co a => Sys2Proof.Machine.execVecShl co a s
  | .vecLsr co a => Sys2Proof.Machine.execVecLsr co a s
  | .vecAsr co a => Sys2Proof.Machine.execVecAsr co a s
  | .vecCmpeq co a => Sys2Proof.Machine.execVecCmpeq co a s
  | .vecCmpne co a => Sys2Proof.Machine.execVecCmpne co a s
  | .vecCmplt co a => Sys2Proof.Machine.execVecCmplt co a s
  | .vecCmple co a => Sys2Proof.Machine.execVecCmple co a s
  | .vecSel co a => Sys2Proof.Machine.execVecSel co a s
  | .vecCvt co a dst => Sys2Proof.Machine.execVecCvt co a dst s
  | .vecNarrow co a dst => Sys2Proof.Machine.execVecNarrow co a dst s
  | .vecRsum co a => Sys2Proof.Machine.execVecRsum co a s
  | .vecRmax co a => Sys2Proof.Machine.execVecRmax co a s
  | .vecRmin co a => Sys2Proof.Machine.execVecRmin co a s
  | .vld co vd count off stride => Sys2Proof.Machine.execVld co vd count off stride s
  | .vst co vd count off stride => Sys2Proof.Machine.execVst co vd count off stride s
  | .matrixLayer co => Sys2Proof.Machine.execMatrixLayer co s
  | .activeSetParityError at_ => Sys2Proof.Machine.execActiveSetParityError at_ s
  | .shadowSetParityError co => Sys2Proof.Machine.execShadowSetParityError co s
  | .arrayParityStop at_ set => Sys2Proof.Machine.execArrayParityStop at_ set s
  | .ingest co => Sys2Proof.Machine.execIngest co s
  | .gather co => Sys2Proof.Machine.execGather co s
  | .depthwise co => Sys2Proof.Machine.execDepthwise co s
  | .maxpool co => Sys2Proof.Machine.execMaxpool co s
  | .avgpool co => Sys2Proof.Machine.execAvgpool co s
  | .append co => Sys2Proof.Machine.execAppend co s
  | .attend co => Sys2Proof.Machine.execAttend co s
  | .attendBwd co => Sys2Proof.Machine.execAttendBwd co s
  | .dataSetCapture cargo => Sys2Proof.Machine.execDataSetCapture cargo s
  | .adaptTimeLimit cargo => Sys2Proof.Machine.execAdaptTimeLimit cargo s
  | .adaptCommit cargo lossBefore new => Sys2Proof.Machine.execAdaptCommit cargo lossBefore new s
  | .bargeStart bid => Sys2Proof.Machine.execBargeStart bid s
  | .bargeComplete bid => Sys2Proof.Machine.execBargeComplete bid s
  | .bargeWaitTimeout bid => Sys2Proof.Machine.execBargeWaitTimeout bid s
  | .arbiterWindow p ch wantTick wantInteractive wantBackground wantAdapt setAside short => Sys2Proof.Machine.execArbiterWindow p ch wantTick wantInteractive wantBackground wantAdapt setAside short s
  | .budgetPeriod => Sys2Proof.Machine.execBudgetPeriod s
  | .bar2Read addr len => Sys2Proof.Machine.execBar2Read addr len s
  | .bar2Write addr data => Sys2Proof.Machine.execBar2Write addr data s
  | .dramCorrectableError addr => Sys2Proof.Machine.execDramCorrectableError addr s
  | .dramUe addr reader => Sys2Proof.Machine.execDramUe addr reader s
  | .rowRangeTestStart p => Sys2Proof.Machine.execRowRangeTestStart p s
  | .rowRangeCopyDone p => Sys2Proof.Machine.execRowRangeCopyDone p s
  | .rowRangeTestDone p pass => Sys2Proof.Machine.execRowRangeTestDone p pass s
  | .rowRangeCopyBackDone p => Sys2Proof.Machine.execRowRangeCopyBackDone p s
  | .patrolScrubLine p => Sys2Proof.Machine.execPatrolScrubLine p s
  | .channelRetrain stack ch => Sys2Proof.Machine.execChannelRetrain stack ch s
  | .channelRetrainDone p ch => Sys2Proof.Machine.execChannelRetrainDone p ch s
  | .regionZeroFillDone m => Sys2Proof.Machine.execRegionZeroFillDone m s
  | .csiFrameStart rx vc corrected => Sys2Proof.Machine.execCsiFrameStart rx vc corrected s
  | .csiFrameEnd rx vc corrected => Sys2Proof.Machine.execCsiFrameEnd rx vc corrected s
  | .csiLineMarker rx hdr => Sys2Proof.Machine.execCsiLineMarker rx hdr s
  | .csiEmbeddedData rx hdr => Sys2Proof.Machine.execCsiEmbeddedData rx hdr s
  | .csiLongPacket rx vc dt corrected crcOk pixels => Sys2Proof.Machine.execCsiLongPacket rx vc dt corrected crcOk pixels s
  | .generatedRow rx => Sys2Proof.Machine.execGeneratedRow rx s
  | .heldBandsWrite rx c => Sys2Proof.Machine.execHeldBandsWrite rx c s
  | .rxLockLoss rx => Sys2Proof.Machine.execRxLockLoss rx s
  | .triggerAssert m => Sys2Proof.Machine.execTriggerAssert m s
  | .triggerDeassert m => Sys2Proof.Machine.execTriggerDeassert m s
  | .outputRowGroupEmission tx => Sys2Proof.Machine.execOutputRowGroupEmission tx s
  | .txRowRead tx => Sys2Proof.Machine.execTxRowRead tx s
  | .txStop tx => Sys2Proof.Machine.execTxStop tx s
  | .i3cTransferStart n => Sys2Proof.Machine.execI3cTransferStart n s
  | .i3cTransferDone n result done data => Sys2Proof.Machine.execI3cTransferDone n result done data s
  | .i3cIbi n addr data => Sys2Proof.Machine.execI3cIbi n addr data s
  | .i3cHotjoin n => Sys2Proof.Machine.execI3cHotjoin n s
  | .imgRefTimeLoRead => Sys2Proof.Machine.execImgRefTimeLoRead s
  | .apllStrobe m => Sys2Proof.Machine.execApllStrobe m s
  | .zcTimeout port => Sys2Proof.Machine.execZcTimeout port s
  | .wclkEdge m => Sys2Proof.Machine.execWclkEdge m s
  | .apllRefLost m => Sys2Proof.Machine.execApllRefLost m s
  | .tdmFsEdge n => Sys2Proof.Machine.execTdmFsEdge n s
  | .tdmSlotReceived n slot word => Sys2Proof.Machine.execTdmSlotReceived n slot word s
  | .tdmOutputSlotDue n slot => Sys2Proof.Machine.execTdmOutputSlotDue n slot s
  | .tdmClockLost n => Sys2Proof.Machine.execTdmClockLost n s
  | .pdmFrame samples => Sys2Proof.Machine.execPdmFrame samples s
  | .replaySlotWrite stage => Sys2Proof.Machine.execReplaySlotWrite stage s
  | .cascadeCreditTimeout stage => Sys2Proof.Machine.execCascadeCreditTimeout stage s
  | .cascadeSessionLimit stage => Sys2Proof.Machine.execCascadeSessionLimit stage s
  | .vauxRampDone => Sys2Proof.Machine.execVauxRampDone s
  | .pdmClockStart => Sys2Proof.Machine.execPdmClockStart s
  | .vauxOvercurrent => Sys2Proof.Machine.execVauxOvercurrent s
  | .vauxFaultClear => Sys2Proof.Machine.execVauxFaultClear s
  | .interruptEntry d => Sys2Proof.Machine.execInterruptEntry d s
  | .dspTaskOverrun d task => Sys2Proof.Machine.execDspTaskOverrun d task s
  | .dspNop d => Sys2Proof.Machine.execDspNop d s
  | .rti d => Sys2Proof.Machine.execRti d s
  | .swi d level => Sys2Proof.Machine.execSwi d level s
  | .waiti d => Sys2Proof.Machine.execWaiti d s
  | .dspBra d cond off => Sys2Proof.Machine.execDspBra d cond off s
  | .bsr d cond off => Sys2Proof.Machine.execBsr d cond off s
  | .jmp d cond addr => Sys2Proof.Machine.execJmp d cond addr s
  | .rts d cond => Sys2Proof.Machine.execRts d cond s
  | .rep d count => Sys2Proof.Machine.execRep d count s
  | .loop d len count => Sys2Proof.Machine.execLoop d len count s
  | .mpy d a => Sys2Proof.Machine.execMpy d a s
  | .mac d a => Sys2Proof.Machine.execMac d a s
  | .msu d a => Sys2Proof.Machine.execMsu d a s
  | .mpyd d a => Sys2Proof.Machine.execMpyd d a s
  | .macd d a => Sys2Proof.Machine.execMacd d a s
  | .msud d a => Sys2Proof.Machine.execMsud d a s
  | .dspAdd d a => Sys2Proof.Machine.execDspAdd d a s
  | .dspAdds d a => Sys2Proof.Machine.execDspAdds d a s
  | .dspSub d a => Sys2Proof.Machine.execDspSub d a s
  | .dspSubs d a => Sys2Proof.Machine.execDspSubs d a s
  | .dspCmp d a => Sys2Proof.Machine.execDspCmp d a s
  | .dspNeg d a => Sys2Proof.Machine.execDspNeg d a s
  | .dspAbs d a => Sys2Proof.Machine.execDspAbs d a s
  | .dspMin d a => Sys2Proof.Machine.execDspMin d a s
  | .dspMax d a => Sys2Proof.Machine.execDspMax d a s
  | .dspMul d a => Sys2Proof.Machine.execDspMul d a s
  | .dspAnd d a => Sys2Proof.Machine.execDspAnd d a s
  | .dspOr d a => Sys2Proof.Machine.execDspOr d a s
  | .dspXor d a => Sys2Proof.Machine.execDspXor d a s
  | .dspNot d a => Sys2Proof.Machine.execDspNot d a s
  | .dspShl d a => Sys2Proof.Machine.execDspShl d a s
  | .dspLsr d a => Sys2Proof.Machine.execDspLsr d a s
  | .dspAsr d a => Sys2Proof.Machine.execDspAsr d a s
  | .divinit d acc a => Sys2Proof.Machine.execDivinit d acc a s
  | .divs d acc a => Sys2Proof.Machine.execDivs d acc a s
  | .divend d acc => Sys2Proof.Machine.execDivend d acc s
  | .clr d acc => Sys2Proof.Machine.execClr d acc s
  | .mova d acc field toReg reg => Sys2Proof.Machine.execMova d acc field toReg reg s
  | .lda d acc reg sh => Sys2Proof.Machine.execLda d acc reg sh s
  | .dspNarrow d acc reg sh => Sys2Proof.Machine.execDspNarrow d acc reg sh s
  | .adda d acc acc2 => Sys2Proof.Machine.execAdda d acc acc2 s
  | .asra d acc sh => Sys2Proof.Machine.execAsra d acc sh s
  | .dspLd d a => Sys2Proof.Machine.execDspLd d a s
  | .dspSt d a => Sys2Proof.Machine.execDspSt d a s
  | .dspLdi d reg high imm => Sys2Proof.Machine.execDspLdi d reg high imm s
  | .moveblk d route src dst count => Sys2Proof.Machine.execMoveblk d route src dst count s
  | .movc d fromCtl num reg => Sys2Proof.Machine.execMovc d fromCtl num reg s
  | .pmod d ptr n => Sys2Proof.Machine.execPmod d ptr n s
  | .lraise d reg => Sys2Proof.Machine.execLraise d reg s
  | .mailboxPost m => Sys2Proof.Machine.execMailboxPost m s
  | .mailboxWithdraw m => Sys2Proof.Machine.execMailboxWithdraw m s
  | .mailboxTake => Sys2Proof.Machine.execMailboxTake s
  | .sysInfoSupervisorReply m => Sys2Proof.Machine.execSysInfoSupervisorReply m s
  | .cfgTransactionAbandon => Sys2Proof.Machine.execCfgTransactionAbandon s
  | .sysInfo m => Sys2Proof.Machine.execSysInfo m s
  | .cfgBegin m => Sys2Proof.Machine.execCfgBegin m s
  | .cfgSet m => Sys2Proof.Machine.execCfgSet m s
  | .cfgCommit m => Sys2Proof.Machine.execCfgCommit m s
  | .cfgAbort m => Sys2Proof.Machine.execCfgAbort m s
  | .cfgGet m => Sys2Proof.Machine.execCfgGet m s
  | .cargoLoad m => Sys2Proof.Machine.execCargoLoad m s
  | .cargoUnload m => Sys2Proof.Machine.execCargoUnload m s
  | .cargoInfo m => Sys2Proof.Machine.execCargoInfo m s
  | .cargoCeiling m => Sys2Proof.Machine.execCargoCeiling m s
  | .runStart m => Sys2Proof.Machine.execRunStart m s
  | .runStop m => Sys2Proof.Machine.execRunStop m s
  | .runStage m => Sys2Proof.Machine.execRunStage m s
  | .runRestore m => Sys2Proof.Machine.execRunRestore m s
  | .runInfo m => Sys2Proof.Machine.execRunInfo m s
  | .contextCreate m => Sys2Proof.Machine.execContextCreate m s
  | .contextDestroy m => Sys2Proof.Machine.execContextDestroy m s
  | .regionAlloc m => Sys2Proof.Machine.execRegionAlloc m s
  | .regionFree m => Sys2Proof.Machine.execRegionFree m s
  | .regionSetRetain m => Sys2Proof.Machine.execRegionSetRetain m s
  | .regionClearRetain m => Sys2Proof.Machine.execRegionClearRetain m s
  | .regionClearStale m => Sys2Proof.Machine.execRegionClearStale m s
  | .regionInfo m => Sys2Proof.Machine.execRegionInfo m s
  | .ringCreate m => Sys2Proof.Machine.execRingCreate m s
  | .ringDestroy m => Sys2Proof.Machine.execRingDestroy m s
  | .quotaSet m => Sys2Proof.Machine.execQuotaSet m s
  | .quotaInfo m => Sys2Proof.Machine.execQuotaInfo m s
  | .imgI3cXfer m => Sys2Proof.Machine.execImgI3cXfer m s
  | .audPortStart m => Sys2Proof.Machine.execAudPortStart m s
  | .audPortStop m => Sys2Proof.Machine.execAudPortStop m s
  | .audPortRestart m => Sys2Proof.Machine.execAudPortRestart m s
  | .audChanSet m => Sys2Proof.Machine.execAudChanSet m s
  | .linkUp m => Sys2Proof.Machine.execLinkUp m s
  | .linkIndex m => Sys2Proof.Machine.execLinkIndex m s
  | .linkRouteRoutes m => Sys2Proof.Machine.execLinkRouteRoutes m s
  | .linkRouteTxStream m => Sys2Proof.Machine.execLinkRouteTxStream m s
  | .linkRouteRxStream m => Sys2Proof.Machine.execLinkRouteRxStream m s
  | .linkRouteClearStreams m => Sys2Proof.Machine.execLinkRouteClearStreams m s
  | .linkInfoPorts m => Sys2Proof.Machine.execLinkInfoPorts m s
  | .linkInfoProbe m => Sys2Proof.Machine.execLinkInfoProbe m s
  | .timeSync m => Sys2Proof.Machine.execTimeSync m s
  | .timeInfo m => Sys2Proof.Machine.execTimeInfo m s
  | .pwrMode m => Sys2Proof.Machine.execPwrMode m s
  | .pwrInfo m => Sys2Proof.Machine.execPwrInfo m s
  | .healthSelftest m => Sys2Proof.Machine.execHealthSelftest m s
  | .healthResetPartition m => Sys2Proof.Machine.execHealthResetPartition m s
  | .healthLogSummary m => Sys2Proof.Machine.execHealthLogSummary m s
  | .healthLogLines m => Sys2Proof.Machine.execHealthLogLines m s
  | .fwLoadBegin m => Sys2Proof.Machine.execFwLoadBegin m s
  | .fwLoadData m => Sys2Proof.Machine.execFwLoadData m s
  | .fwLoadFinish m => Sys2Proof.Machine.execFwLoadFinish m s
  | .fwLoadAbort m => Sys2Proof.Machine.execFwLoadAbort m s
  | .fwConfirm m => Sys2Proof.Machine.execFwConfirm m s
  | .fwRevert m => Sys2Proof.Machine.execFwRevert m s
  | .fwInfo m => Sys2Proof.Machine.execFwInfo m s
  | .settingsSave m => Sys2Proof.Machine.execSettingsSave m s
  | .dspLoad m => Sys2Proof.Machine.execDspLoad m s
  | .dspStart m => Sys2Proof.Machine.execDspStart m s
  | .dspStop m => Sys2Proof.Machine.execDspStop m s
  | .dspInfo m => Sys2Proof.Machine.execDspInfo m s
  | .adaptStart m => Sys2Proof.Machine.execAdaptStart m s
  | .adaptAbort m => Sys2Proof.Machine.execAdaptAbort m s
  | .adaptInfo m => Sys2Proof.Machine.execAdaptInfo m s
  | .qmDbHostWrite r value => Sys2Proof.Machine.execQmDbHostWrite r value s
  | .qmDbArmWrite r value => Sys2Proof.Machine.execQmDbArmWrite r value s
  | .hostBargeEntry r => Sys2Proof.Machine.execHostBargeEntry r s
  | .bufferEntry r => Sys2Proof.Machine.execBufferEntry r s
  | .hostReadTimeout r => Sys2Proof.Machine.execHostReadTimeout r s
  | .pcieHotReset kind => Sys2Proof.Machine.execPcieHotReset kind s
  | .pcieLinkWake => Sys2Proof.Machine.execPcieLinkWake s
  | .glbElwSelWrite value => Sys2Proof.Machine.execGlbElwSelWrite value s
  | .glbWakeWrite value => Sys2Proof.Machine.execGlbWakeWrite value s
  | .glbIntEoiWrite value => Sys2Proof.Machine.execGlbIntEoiWrite value s
  | .glbSystimeLoRead => Sys2Proof.Machine.execGlbSystimeLoRead s
  | .msixVectorUnmask v => Sys2Proof.Machine.execMsixVectorUnmask v s
  | .registerWrite off data => Sys2Proof.Machine.execRegisterWrite off data s
  | .stateGroupPublish => Sys2Proof.Machine.execStateGroupPublish s
  | .heartbeatPeriod => Sys2Proof.Machine.execHeartbeatPeriod s
  | .healthGroupPublish => Sys2Proof.Machine.execHealthGroupPublish s
  | .firmwareHeartbeat => Sys2Proof.Machine.execFirmwareHeartbeat s
  | .firmwareRestartDone agree => Sys2Proof.Machine.execFirmwareRestartDone agree s
  | .linkPortDown p => Sys2Proof.Machine.execLinkPortDown p s
  | .portRetrain p result => Sys2Proof.Machine.execPortRetrain p result s
  | .crcStorm p => Sys2Proof.Machine.execCrcStorm p s
  | .headerCrcDiscard p => Sys2Proof.Machine.execHeaderCrcDiscard p s
  | .transitFrame p fr => Sys2Proof.Machine.execTransitFrame p fr s
  | .outputWaitDiscard p prio => Sys2Proof.Machine.execOutputWaitDiscard p prio s
  | .dataFrame p fr => Sys2Proof.Machine.execDataFrame p fr s
  | .raiseFrame p fr => Sys2Proof.Machine.execRaiseFrame p fr s
  | .streamFrame p fr => Sys2Proof.Machine.execStreamFrame p fr s
  | .ctrlFrame p fr => Sys2Proof.Machine.execCtrlFrame p fr s
  | .ctrlAckFrame p fr => Sys2Proof.Machine.execCtrlAckFrame p fr s
  | .helloFrame p fr => Sys2Proof.Machine.execHelloFrame p fr s
  | .timeReqFrame p fr stamp16 => Sys2Proof.Machine.execTimeReqFrame p fr stamp16 s
  | .timeRespFrame p fr stamp16 => Sys2Proof.Machine.execTimeRespFrame p fr stamp16 s
  | .helloSend p => Sys2Proof.Machine.execHelloSend p s
  | .helloAgeOut p => Sys2Proof.Machine.execHelloAgeOut p s
  | .trackerTimeout src id => Sys2Proof.Machine.execTrackerTimeout src id s
  | .streamUnitDue r => Sys2Proof.Machine.execStreamUnitDue r s
  | .streamStall r => Sys2Proof.Machine.execStreamStall r s
  | .ctrlResend id => Sys2Proof.Machine.execCtrlResend id s
  | .timeReqSend stamp16 => Sys2Proof.Machine.execTimeReqSend stamp16 s
  | .timeResponseTimeout => Sys2Proof.Machine.execTimeResponseTimeout s
  | .reachPowerDown r => Sys2Proof.Machine.execReachPowerDown r s
  | .reachPowerUp r => Sys2Proof.Machine.execReachPowerUp r s
  | .thermalSample tj => Sys2Proof.Machine.execThermalSample tj s
  | .sramUe unit off reader => Sys2Proof.Machine.execSramUe unit off reader s
  | .sramCeLimit unit bank => Sys2Proof.Machine.execSramCeLimit unit bank s
  | .engineTimeout co engine => Sys2Proof.Machine.execEngineTimeout co engine s
  | .keeperStateError c => Sys2Proof.Machine.execKeeperStateError c s
  | .stagingUe => Sys2Proof.Machine.execStagingUe s
  | .selftestDone tid outcome us => Sys2Proof.Machine.execSelftestDone tid outcome us s
  | .partitionLogbook p => Sys2Proof.Machine.execPartitionLogbook p s
  | .partitionHwResetDone p => Sys2Proof.Machine.execPartitionHwResetDone p s
  | .partitionReturn p => Sys2Proof.Machine.execPartitionReturn p s
  | .logCoalesced => Sys2Proof.Machine.execLogCoalesced s
  | .vinRise => Sys2Proof.Machine.execVinRise s
  | .vinFall => Sys2Proof.Machine.execVinFall s
  | .vinOvervoltage => Sys2Proof.Machine.execVinOvervoltage s
  | .perstLAssert => Sys2Proof.Machine.execPerstLAssert s
  | .perstLRelease => Sys2Proof.Machine.execPerstLRelease s
  | .bootRomRun => Sys2Proof.Machine.execBootRomRun s
  | .firmwareStart => Sys2Proof.Machine.execFirmwareStart s
  | .fwLoadTimeout => Sys2Proof.Machine.execFwLoadTimeout s
  | .traceSyncPeriod r => Sys2Proof.Machine.execTraceSyncPeriod r s
  | .traceLostWrite r => Sys2Proof.Machine.execTraceLostWrite r s
  | .trcCtrlClear => Sys2Proof.Machine.execTrcCtrlClear s
  | .trcCntSnap => Sys2Proof.Machine.execTrcCntSnap s
  | .trcCntClear => Sys2Proof.Machine.execTrcCntClear s
  | .trcClipSelWrite value => Sys2Proof.Machine.execTrcClipSelWrite value s
  | .trcLwSelWrite w value => Sys2Proof.Machine.execTrcLwSelWrite w value s
  | .jtagTestLogicReset => Sys2Proof.Machine.execJtagTestLogicReset s
  | .extest cells => Sys2Proof.Machine.execExtest cells s
  | .samplePreload cells => Sys2Proof.Machine.execSamplePreload cells s
  | .clamp => Sys2Proof.Machine.execClamp s
  | .highz => Sys2Proof.Machine.execHighz s
  | .jtagBypass => Sys2Proof.Machine.execJtagBypass s
  | .dbgAddr value => Sys2Proof.Machine.execDbgAddr value s
  | .dbgDataCapture => Sys2Proof.Machine.execDbgDataCapture s
  | .dbgDataUpdate => Sys2Proof.Machine.execDbgDataUpdate s
  | .towpathUp => Sys2Proof.Machine.execTowpathUp s
  | .holdUpChargeSpent => Sys2Proof.Machine.execHoldUpChargeSpent s
  | .vinOvervoltageClear => Sys2Proof.Machine.execVinOvervoltageClear s
  | .linkTrainingDone r0 r1 r2 r3 => Sys2Proof.Machine.execLinkTrainingDone r0 r1 r2 r3 s
  | .zorudCreditReturn p prio units => Sys2Proof.Machine.execZorudCreditReturn p prio units s
  | .headerUncorrectableError rx carriedRow => Sys2Proof.Machine.execHeaderUncorrectableError rx carriedRow s
  | .pmeTurnOffMessage => Sys2Proof.Machine.execPmeTurnOffMessage s
  | .busMasterEnableWrite value => Sys2Proof.Machine.execBusMasterEnableWrite value s
  | .escalationWindowExpiry => Sys2Proof.Machine.execEscalationWindowExpiry s

end Sys2Proof.Machine
end

