-- ==== Sys2Proof/WellFormed.lean ====
section
/-! DEFINITION. Which commands the spec's limits allow: the checks a command passes before it has a form. A command that fails one
still has a meaning in the machine (a fault, an ILLEGAL cause, an unchanged state), which its own definition gives. -/

namespace Sys2Proof

/-- The floating-point lane formats (R222). -/
def floatForm : VFmt → Bool
  | .fp32 | .fp16 | .bf16 => true
  | .int8 | .int16 | .int32 => false

/-- NARROW goes from an integer format to a narrower one (R68, R222). -/
def narrowForm : VFmt → VFmt → Bool
  | .int32, .int16 | .int32, .int8 | .int16, .int8 => true
  | _, _ => false

/-- A vector load or store: registers up to v31, each register's 256 bytes in local core memory of 4 MiB (R225). -/
def vectorSpan (vd : Fin 32) (n : Nat) (off stride : W32) : Bool :=
  decide (1 ≤ n ∧ vd.val + n ≤ 32) &&
    (List.range n).all (fun i => decide (off.toNat + i * stride.toNat + 256 ≤ 0x400000))

/-- A BAR2 access: at least one byte, in one 4 KiB page of the mapped range (R252). -/
def bar2Span (addr n : Nat) : Bool :=
  decide (0 < n ∧ addr / 4096 = (addr + n - 1) / 4096 ∧ addr < 0x800000000)

/-- An immediate count of REP, LOOP or MOVEBLK is 1 to 4096 (R381, R383, R385). -/
def dspCount : DspCount → Bool
  | .imm n => decide (1 ≤ n ∧ n ≤ 4096)
  | .reg _ => true

/-- A Zorud payload is 0 to 264 bytes, an even number (R481). -/
def frameForm (fr : ZFrame) : Bool := decide (fr.payload.length ≤ 264 ∧ fr.payload.length % 2 = 0)

/-- Whether a command is within the limits the spec gives its operands. -/
def Instr.wf : Instr → Bool
  | .controlTick .. => true
  | .frameGeneratorMatch => true
  | .frameRefEdge .. => true
  | .blankTick .. => true
  | .tickLost .. => true
  | .suspendedRunResume .. => true
  | .entryRunStart .. => true
  | .shareRetire .. => true
  | .overrunBudget .. => true
  | .runDeadline .. => true
  | .entryLockWaitTimeout .. => true
  | .droppedRunDeadline .. => true
  | .clipStepEvaluation .. => true
  | .shareNop .. => true
  | .shareEnd .. => true
  | .waite .. => true
  | .mark .. => true
  | .shareBz .. => true
  | .shareBnz .. => true
  | .shareBlt .. => true
  | .shareBra .. => true
  | .scalarAdd .. => true
  | .scalarSub .. => true
  | .scalarMul .. => true
  | .scalarAnd .. => true
  | .scalarOr .. => true
  | .scalarXor .. => true
  | .scalarShl .. => true
  | .scalarLsr .. => true
  | .scalarAsr .. => true
  | .scalarLdi .. => true
  | .scalarLdih .. => true
  | .lds .. => true
  | .sts .. => true
  | .engineExec .. => true
  | .barge .. => true
  | .lockw .. => true
  | .raise .. => true
  | .lockwTimeout .. => true
  | .crossClusterRaise .. => true
  | .globalLockRaise => true
  | .vecAdd .. => true
  | .vecSub .. => true
  | .vecMul .. => true
  | .vecFma _ a => floatForm a.fmt
  | .vecNeg .. => true
  | .vecAbs .. => true
  | .vecMin .. => true
  | .vecMax .. => true
  | .vecDiv .. => true
  | .vecRecip _ a => floatForm a.fmt
  | .vecSqrt _ a => floatForm a.fmt
  | .vecRsqrt _ a => floatForm a.fmt
  | .vecExp2 _ a => decide (a.fmt = .fp32)
  | .vecLog2 _ a => decide (a.fmt = .fp32)
  | .vecAdds _ a => !floatForm a.fmt
  | .vecSubs _ a => !floatForm a.fmt
  | .vecMuls _ a => !floatForm a.fmt
  | .vecAnd _ a => !floatForm a.fmt
  | .vecOr _ a => !floatForm a.fmt
  | .vecXor _ a => !floatForm a.fmt
  | .vecNot _ a => !floatForm a.fmt
  | .vecShl _ a => !floatForm a.fmt
  | .vecLsr _ a => !floatForm a.fmt
  | .vecAsr _ a => !floatForm a.fmt
  | .vecCmpeq .. => true
  | .vecCmpne .. => true
  | .vecCmplt .. => true
  | .vecCmple .. => true
  | .vecSel .. => true
  | .vecCvt .. => true
  | .vecNarrow _ a dst => narrowForm a.fmt dst
  | .vecRsum _ a => decide (a.fmt = .fp32) || decide (a.fmt = .int32)
  | .vecRmax _ a => decide (a.fmt = .fp32) || decide (a.fmt = .int32)
  | .vecRmin _ a => decide (a.fmt = .fp32) || decide (a.fmt = .int32)
  | .vld _ vd n off stride => vectorSpan vd n off stride
  | .vst _ vd n off stride => vectorSpan vd n off stride
  | .matrixLayer .. => true
  | .activeSetParityError .. => true
  | .shadowSetParityError .. => true
  | .arrayParityStop .. => true
  | .ingest .. => true
  | .gather .. => true
  | .depthwise .. => true
  | .maxpool .. => true
  | .avgpool .. => true
  | .append .. => true
  | .attend .. => true
  | .attendBwd .. => true
  | .dataSetCapture .. => true
  | .adaptTimeLimit .. => true
  | .adaptCommit .. => true
  | .bargeStart .. => true
  | .bargeComplete .. => true
  | .bargeWaitTimeout .. => true
  | .arbiterWindow _ _ _ _ _ _ aside _ => decide (aside ≤ 256)
  | .budgetPeriod => true
  | .bar2Read addr n => bar2Span addr n
  | .bar2Write addr data => bar2Span addr data.length
  | .dramCorrectableError .. => true
  | .dramUe .. => true
  | .rowRangeTestStart .. => true
  | .rowRangeCopyDone .. => true
  | .rowRangeTestDone .. => true
  | .rowRangeCopyBackDone .. => true
  | .patrolScrubLine .. => true
  | .channelRetrain .. => true
  | .channelRetrainDone .. => true
  | .regionZeroFillDone .. => true
  | .csiFrameStart .. => true
  | .csiFrameEnd .. => true
  | .csiLineMarker .. => true
  | .csiEmbeddedData .. => true
  | .csiLongPacket .. => true
  | .generatedRow .. => true
  | .heldBandsWrite .. => true
  | .rxLockLoss .. => true
  | .triggerAssert .. => true
  | .triggerDeassert .. => true
  | .outputRowGroupEmission .. => true
  | .txRowRead .. => true
  | .txStop .. => true
  | .i3cTransferStart .. => true
  | .i3cTransferDone _ result _ _ => decide (result.toNat ≤ 3)
  | .i3cIbi _ _ data => decide (data.length ≤ 8)
  | .i3cHotjoin .. => true
  | .imgRefTimeLoRead => true
  | .apllStrobe .. => true
  | .zcTimeout .. => true
  | .wclkEdge .. => true
  | .apllRefLost .. => true
  | .tdmFsEdge .. => true
  | .tdmSlotReceived .. => true
  | .tdmOutputSlotDue .. => true
  | .tdmClockLost .. => true
  | .pdmFrame samples => decide (samples.length = 16)
  | .replaySlotWrite .. => true
  | .cascadeCreditTimeout .. => true
  | .cascadeSessionLimit .. => true
  | .vauxRampDone => true
  | .pdmClockStart => true
  | .vauxOvercurrent => true
  | .vauxFaultClear => true
  | .interruptEntry .. => true
  | .dspTaskOverrun .. => true
  | .dspNop .. => true
  | .rti .. => true
  | .swi .. => true
  | .waiti .. => true
  | .dspBra .. => true
  | .bsr .. => true
  | .jmp .. => true
  | .rts .. => true
  | .rep _ n => dspCount n
  | .loop _ l n => decide (1 ≤ l ∧ l ≤ 32) && dspCount n
  | .mpy .. => true
  | .mac .. => true
  | .msu .. => true
  | .mpyd .. => true
  | .macd .. => true
  | .msud .. => true
  | .dspAdd .. => true
  | .dspAdds .. => true
  | .dspSub .. => true
  | .dspSubs .. => true
  | .dspCmp .. => true
  | .dspNeg .. => true
  | .dspAbs .. => true
  | .dspMin .. => true
  | .dspMax .. => true
  | .dspMul .. => true
  | .dspAnd .. => true
  | .dspOr .. => true
  | .dspXor .. => true
  | .dspNot .. => true
  | .dspShl .. => true
  | .dspLsr .. => true
  | .dspAsr .. => true
  | .divinit .. => true
  | .divs .. => true
  | .divend .. => true
  | .clr .. => true
  | .mova .. => true
  | .lda _ _ _ sh => decide (sh ≤ 40)
  | .dspNarrow _ _ _ sh => decide (sh ≤ 40)
  | .adda .. => true
  | .asra _ _ sh => decide (sh ≤ 40)
  | .dspLd .. => true
  | .dspSt .. => true
  | .dspLdi .. => true
  | .moveblk _ _ _ _ n => dspCount n
  | .movc .. => true
  | .pmod .. => true
  | .lraise .. => true
  | .mailboxPost .. => true
  | .mailboxWithdraw .. => true
  | .mailboxTake => true
  | .sysInfoSupervisorReply .. => true
  | .cfgTransactionAbandon => true
  | .sysInfo .. => true
  | .cfgBegin .. => true
  | .cfgSet .. => true
  | .cfgCommit .. => true
  | .cfgAbort .. => true
  | .cfgGet .. => true
  | .cargoLoad .. => true
  | .cargoUnload .. => true
  | .cargoInfo .. => true
  | .cargoCeiling .. => true
  | .runStart .. => true
  | .runStop .. => true
  | .runStage .. => true
  | .runRestore .. => true
  | .runInfo .. => true
  | .contextCreate .. => true
  | .contextDestroy .. => true
  | .regionAlloc .. => true
  | .regionFree .. => true
  | .regionSetRetain .. => true
  | .regionClearRetain .. => true
  | .regionClearStale .. => true
  | .regionInfo .. => true
  | .ringCreate .. => true
  | .ringDestroy .. => true
  | .quotaSet .. => true
  | .quotaInfo .. => true
  | .imgI3cXfer .. => true
  | .audPortStart .. => true
  | .audPortStop .. => true
  | .audPortRestart .. => true
  | .audChanSet .. => true
  | .linkUp .. => true
  | .linkIndex .. => true
  | .linkRouteRoutes .. => true
  | .linkRouteTxStream .. => true
  | .linkRouteRxStream .. => true
  | .linkRouteClearStreams .. => true
  | .linkInfoPorts .. => true
  | .linkInfoProbe .. => true
  | .timeSync .. => true
  | .timeInfo .. => true
  | .pwrMode .. => true
  | .pwrInfo .. => true
  | .healthSelftest .. => true
  | .healthResetPartition .. => true
  | .healthLogSummary .. => true
  | .healthLogLines .. => true
  | .fwLoadBegin .. => true
  | .fwLoadData .. => true
  | .fwLoadFinish .. => true
  | .fwLoadAbort .. => true
  | .fwConfirm .. => true
  | .fwRevert .. => true
  | .fwInfo .. => true
  | .settingsSave .. => true
  | .dspLoad .. => true
  | .dspStart .. => true
  | .dspStop .. => true
  | .dspInfo .. => true
  | .adaptStart .. => true
  | .adaptAbort .. => true
  | .adaptInfo .. => true
  | .qmDbHostWrite .. => true
  | .qmDbArmWrite .. => true
  | .hostBargeEntry .. => true
  | .bufferEntry .. => true
  | .hostReadTimeout .. => true
  | .pcieHotReset .. => true
  | .pcieLinkWake => true
  | .glbElwSelWrite .. => true
  | .glbWakeWrite .. => true
  | .glbIntEoiWrite .. => true
  | .glbSystimeLoRead => true
  | .msixVectorUnmask .. => true
  | .registerWrite off data => decide (off + data.length ≤ 0x4000000)
  | .stateGroupPublish => true
  | .heartbeatPeriod => true
  | .healthGroupPublish => true
  | .firmwareHeartbeat => true
  | .firmwareRestartDone .. => true
  | .linkPortDown .. => true
  | .portRetrain .. => true
  | .crcStorm .. => true
  | .headerCrcDiscard .. => true
  | .transitFrame _ fr => frameForm fr
  | .outputWaitDiscard .. => true
  | .dataFrame _ fr => frameForm fr
  | .raiseFrame _ fr => frameForm fr
  | .streamFrame _ fr => frameForm fr
  | .ctrlFrame _ fr => frameForm fr
  | .ctrlAckFrame _ fr => frameForm fr
  | .helloFrame _ fr => frameForm fr
  | .timeReqFrame _ fr _ => frameForm fr
  | .timeRespFrame _ fr _ => frameForm fr
  | .helloSend .. => true
  | .helloAgeOut .. => true
  | .trackerTimeout .. => true
  | .streamUnitDue .. => true
  | .streamStall .. => true
  | .ctrlResend .. => true
  | .timeReqSend .. => true
  | .timeResponseTimeout => true
  | .reachPowerDown .. => true
  | .reachPowerUp .. => true
  | .thermalSample .. => true
  | .sramUe .. => true
  | .sramCeLimit .. => true
  | .engineTimeout .. => true
  | .keeperStateError .. => true
  | .stagingUe => true
  | .selftestDone .. => true
  | .partitionLogbook .. => true
  | .partitionHwResetDone .. => true
  | .partitionReturn .. => true
  | .logCoalesced => true
  | .vinRise => true
  | .vinFall => true
  | .vinOvervoltage => true
  | .perstLAssert => true
  | .perstLRelease => true
  | .bootRomRun => true
  | .firmwareStart => true
  | .fwLoadTimeout => true
  | .traceSyncPeriod .. => true
  | .traceLostWrite .. => true
  | .trcCtrlClear => true
  | .trcCntSnap => true
  | .trcCntClear => true
  | .trcClipSelWrite .. => true
  | .trcLwSelWrite .. => true
  | .jtagTestLogicReset => true
  | .extest .. => true
  | .samplePreload .. => true
  | .clamp => true
  | .highz => true
  | .jtagBypass => true
  | .dbgAddr .. => true
  | .dbgDataCapture => true
  | .dbgDataUpdate => true
  | .towpathUp => true
  | .holdUpChargeSpent => true
  | .vinOvervoltageClear => true
  | .linkTrainingDone .. => true
  | .zorudCreditReturn _ _ n => decide (n ≤ 256)
  | .headerUncorrectableError .. => true
  | .pmeTurnOffMessage => true
  | .busMasterEnableWrite .. => true
  | .escalationWindowExpiry => true

end Sys2Proof
end

