-- ==== Sys2Proof/Safety.lean ====
section
/-! DEFINITION. What counts as a safe state and a safe command, and the relations between two states that the statements use. -/

namespace Sys2Proof.Machine

/-- The memories that lie outside a cluster and a DSP, package DRAM, host memory and the NOR, are in canonical form. -/
def State.outerCanonical (s : State) : Prop := s.dram.wf = true ∧ s.host.wf = true ∧ s.nor.wf = true

/-- Cluster memory and the local memories of every cluster, those kept for a BYPASS among them, are in canonical form. -/
def State.clustersCanonical (s : State) : Prop :=
  ∀ c : Fin 4, s.clusters[c].mem.wf = true ∧ (∀ i : Fin 4, s.clusters[c].lmem[i].wf = true) ∧
    ∀ r ∈ s.clusters[c].saved, ∀ i : Fin 4, r.lmem[i].wf = true

/-- The three memories of every DSP are in canonical form. -/
def State.dspsCanonical (s : State) : Prop :=
  ∀ d : Fin 4, s.dsps[d].p.wf = true ∧ s.dsps[d].x.wf = true ∧ s.dsps[d].y.wf = true

/-- A command completes in a state: it has a next state. -/
def Completes (c : Instr) (s : State) : Prop := ∃ t, exec c s = .next t

/-- A safe step neither faults nor is refused. -/
def State.stepsSafely (s : State) : Prop := ∃ t, step s = .next t

/-- The share that a core holds: the number of its run and its index. -/
def State.holds (s : State) (co : CoreId) : Option (Nat × Fin 4) := s.clusters[co.c].cores[co.k].cur

/-- The core executes the program of share `h` of run `r`. -/
def State.executes (s : State) (co : CoreId) (r : Run) (h : Share) : Prop :=
  s.shareOn co = some (r, h) ∧ h.st = .running ∧ h.ended = false ∧ s.clusterUp co.c = true

/-- Of all runs and shares, `t` differs from `s` only in the share on a core, which becomes `h'`; its run keeps all else of `r`. -/
def State.onlyShare (s t : State) (co : CoreId) (r : Run) (h' : Share) : Prop :=
  t.sched = { s.sched with runs := t.sched.runs } ∧
  (∃ r', t.shareOn co = some (r', h') ∧ r' = { r with shares := r'.shares }) ∧
  (∀ co', s.holds co' ≠ s.holds co → (t.shareOn co').map (·.2) = (s.shareOn co').map (·.2)) ∧
  ∀ rid, rid ≠ r.rid → t.run? rid = s.run? rid

/-- A command completes, and the share on a core, which becomes `h'`, is all it changes. -/
def ShareBecomes (c : Instr) (s : State) (co : CoreId) (r : Run) (h' : Share) : Prop :=
  ∃ t, exec c s = .next t ∧ t = { s with sched := t.sched } ∧ s.onlyShare t co r h'

/-- `t` holds, in the event log, the rings and host memory, what `s` holds after one event of a context (R410, R446). -/
def State.reports (s t : State) (code ctx where_ : Nat) (log : Bool) (data : List Byte) : Prop :=
  t.log = (s.event code ctx where_ log data).log ∧ t.rings = (s.event code ctx where_ log data).rings ∧
    t.host = (s.event code ctx where_ log data).host

/-- Nothing waits to be settled after a command: no RUN_STOP waits for the end of the runs (R405, R426), and no waiting run is one
whose wait found the lock's table full (R242). -/
def State.noStop (s : State) : Prop :=
  s.flights (fun c _ => c = 0x0402) = [] ∧ ∀ r ∈ s.sched.runs, r.phase = .waiting → r.full = false

/-- Mailbox m holds a command taken and not yet begun, commands are served (R401), and no command taken before it acts on an object of
its own (R403). -/
def State.holdsTaken (s : State) (m : Fin 8) (code ctx : Nat) (p : List Byte) : Prop :=
  s.mboxes[m].taken = some ⟨code, ctx, p⟩ ∧ s.mboxes[m].flight = none ∧ s.serving = true ∧ s.waitsTurn m ⟨code, ctx, p⟩ = false

/-- Of all mailboxes, `t` differs from `s` only in m, which holds the reply. -/
def State.replied (s t : State) (m : Fin 8) (r : Reply) : Prop :=
  t.mboxes[m] = (s.reply m r).mboxes[m] ∧ ∀ k, k ≠ m → t.mboxes[k] = s.mboxes[k]

/-- The command of mailbox m completes at once with a reply, and apart from that reply (its mailbox, the interrupt causes and messages) nothing
changes. -/
def Answers (c : Instr) (s : State) (m : Fin 8) (r : Reply) : Prop :=
  ∃ t, exec c s = .next t ∧ s.replied t m r ∧ t = { s with mboxes := t.mboxes, glb := t.glb, pcie := t.pcie }

/-- A DSP executes the instruction it is given: RUNNING, powered, not held or waiting, and the fetch at its pc raises no fault: its word of
P memory is good and not reserved (R362, R367, R374, R375). -/
def State.dspReady (s : State) (d : Fin 4) : Prop :=
  s.dspRuns d = true ∧ s.dsps[d].waiting = false ∧ s.dsps[d].fetchFault = none

/-- A command completes in some cycles of a DSP, which becomes `y` but for its cycle counter and what it keeps of tasks; beside free
values and counters nothing else changes. -/
def DspBecomes (c : Instr) (s : State) (d : Fin 4) (cycles : Nat) (y : Dsp) : Prop :=
  ∃ t, exec c s = .next t ∧
    t.dsps[d] = { y with cyc := s.dsps[d].cyc + BitVec.ofNat 32 cycles, tasks := t.dsps[d].tasks } ∧
    (∀ k, k ≠ d → t.dsps[k] = s.dsps[k]) ∧ t = { s with dsps := t.dsps, fresh := t.fresh, trc := t.trc }

/-- An instruction of a DSP raises ILLEGAL, with its pc as the return address (R369, R374, R396). -/
def DspIllegal (c : Instr) (s : State) (d : Fin 4) : Prop :=
  exec c s = .next (s.dspFault d .illegal s.dsps[d].pc false false 0)

/-- A DSP after the loads of a MAC class instruction from words wx of X memory and wy of Y memory (R371, R373, R376): the operand
registers hold the word, or a D form's pair, and each pointer its value afterwards. -/
def Dsp.loaded (x : Dsp) (a : MacArgs) (double : Bool) (wx wy : Nat) (qx qy : Option Nat) : Dsp :=
  let word (m : Mem) (w : Nat) : W32 := BitVec.ofNat 32 (m.le (4 * w) 4)
  let put (toY : Bool) (m : Mem) (w : Nat) (r : Fin 8) (y : Dsp) : Dsp := y.putOperand toY double r (word m w, word m (w + 1))
  let ptr (l : Option MacLoad) (q : Option Nat) (y : Dsp) : Dsp := (l.bind (fun l => q.map (fun q => y.setPtr l.ptr q))).getD y
  let y := if a.xload.isSome then put false x.x wx a.x x else x
  let y := if a.yload.isSome then put true x.y wy a.y y else y
  ptr a.yload qy (ptr a.xload qx y)

/-- An integer instruction of a DSP writes a register and the flags and goes to the next word, in one cycle (R370, R375). -/
def AluWrites (c : Instr) (s : State) (d : Fin 4) (rd : Fin 16) (r : W32) (carry : Option Bool) (vl : Bool) : Prop :=
  DspBecomes c s d 1 (((s.dsps[d].setReg rd r).flags32 r carry vl).advance 1)

/-- An instruction of a DSP writes an accumulator and the flags and goes to the next word, in one cycle (R370, R375). -/
def AccWrites (c : Instr) (s : State) (d : Fin 4) (acc : Fin 4) (r : BitVec 72) (vl : Bool) : Prop :=
  DspBecomes c s d 1 (((s.dsps[d].setAcc acc r).flags72 r vl).advance 1)

end Sys2Proof.Machine
end

