-- ==== Sys2Proof/Certificates/Slice0/Obligations.lean ====
section
/-! DEFINITION. The statements about the model, for the provers: each a proposition under Obligations. -/

open Sys2Proof Sys2Proof.Machine

/-- With command c at the front of the queue, step is exec of c on the state whose queue is the rest; on an empty queue the step idles
(log entry 3, the model's choice): it always has a next state, and nothing but SYSTIME and the trace sink changes. -/
def Obligations.StepRunsTheFrontCommand : Prop :=
  (∀ (c : Instr) (rest : List Instr) (s : State), step { s with pending := c :: rest } = exec c { s with pending := rest }) ∧
  ∀ s : State, s.pending = [] → ∃ t, step s = .next t ∧
    t = { s with dev := { s.dev with systime := t.dev.systime, frac := t.dev.frac }, trc := t.trc }

/-- While a core executes share h of run r, each of ADD, SUB, MUL, AND, OR, XOR, SHL, LSR, ASR, LDI and LDIH completes: the
destination register holds the result of sources a and b (arithmetic modulo 2^32, shift counts as R69 with w = 32), the pc is one word on, every other
register and every other part of the state is unchanged. -/
def Obligations.ScalarInstructionsCompute : Prop :=
  ∀ (s : State) (co : CoreId) (r : Run) (h : Share) (rd ra : Fin 16) (b : ScalarSrc) (imm : W16), s.executes co r h →
    let x := h.regs[ra]
    let y := scalarSrc b h
    let put (v : W32) : Share := { h with regs := h.regs.set rd.val v, pc := h.pc + 1 }
    ShareBecomes (.scalarAdd co rd ra b) s co r (put (x + y)) ∧
    ShareBecomes (.scalarSub co rd ra b) s co r (put (x - y)) ∧
    ShareBecomes (.scalarMul co rd ra b) s co r (put (x * y)) ∧
    ShareBecomes (.scalarAnd co rd ra b) s co r (put (x &&& y)) ∧
    ShareBecomes (.scalarOr co rd ra b) s co r (put (x ||| y)) ∧
    ShareBecomes (.scalarXor co rd ra b) s co r (put (x ^^^ y)) ∧
    ShareBecomes (.scalarShl co rd ra b) s co r (put (if y.toNat < 32 then x <<< y.toNat else 0)) ∧
    ShareBecomes (.scalarLsr co rd ra b) s co r (put (if y.toNat < 32 then x >>> y.toNat else 0)) ∧
    ShareBecomes (.scalarAsr co rd ra b) s co r
      (put (if y.toNat < 32 then x.sshiftRight y.toNat else if x.msb then BitVec.allOnes 32 else 0)) ∧
    ShareBecomes (.scalarLdi co rd imm) s co r (put (imm.signExtend 32)) ∧
    ShareBecomes (.scalarLdih co rd imm) s co r (put (imm ++ h.regs[rd].extractLsb' 0 16))

/-- While a core executes share h of run r: NOP goes one word on; BZ, BNZ, BLT (register negative) and BRA go to the word at the signed offset from their own
when they are taken and one word on otherwise; WAITE goes on, and END ends the program, when no engine operation is outstanding, and
both leave the state alone while one is; MARK goes two words on and, with its unit's MARK class enabled and the reach on, its unit has produced
one more packet. Nothing else changes but, under MARK, trace. -/
def Obligations.ControlInstructionsMoveThePc : Prop :=
  ∀ (s : State) (co : CoreId) (r : Run) (h : Share) (q : Fin 16) (off : W16) (w : W32), s.executes co r h →
    let goto (taken : Bool) : Share := { h with pc := if taken then ((h.pc : Int) + off.toInt).toNat else h.pc + 1 }
    let u : Fin 10 := ⟨6 + co.c.val, by omega⟩
    ShareBecomes (.shareNop co) s co r { h with pc := h.pc + 1 } ∧
    ShareBecomes (.shareBz co q off) s co r (goto (decide (h.regs[q] = 0))) ∧
    ShareBecomes (.shareBnz co q off) s co r (goto (decide (h.regs[q] ≠ 0))) ∧
    ShareBecomes (.shareBlt co q off) s co r (goto (decide (h.regs[q].toInt < 0))) ∧
    ShareBecomes (.shareBra co off) s co r (goto true) ∧
    (h.ops = [] → ShareBecomes (.waite co) s co r { h with pc := h.pc + 1 } ∧
      ShareBecomes (.shareEnd co) s co r { h with ended := true }) ∧
    (h.ops ≠ [] → exec (.waite co) s = .next s ∧ exec (.shareEnd co) s = .next s) ∧
    ∃ t, exec (.mark co w) s = .next t ∧ t = { s with sched := t.sched, trc := t.trc } ∧ s.onlyShare t co r { h with pc := h.pc + 2 } ∧
      (s.trc.unit[u].filter.getLsbD 31 = true → s.trc.unit[u].filter.getLsbD 5 = true → s.on u.val = true →
        t.trc.unit[u].produced = s.trc.unit[u].produced + 1)

/-- While a core executes share h of run r and the address base plus offset (modulo 2^32) is a multiple of 4 below 0x40_0000: LDS puts the little-endian word of
the share index's local memory into the register and changes nothing else; STS writes the register there, so that the word reads back, every byte outside those four
reads as before, and no other memory, register or flag changes. The local memory is in canonical form (an invariant of the model). -/
def Obligations.ScalarMemoryReachesLocalMemory : Prop :=
  ∀ (s : State) (co : CoreId) (r : Run) (h : Share) (q base : Fin 16) (off : BitVec 19), s.executes co r h →
    s.clusters[co.c].lmem[h.idx].wf = true →
    let a := (h.regs[base] + off.setWidth 32).toNat
    a % 4 = 0 → a < 0x400000 →
    ShareBecomes (.lds co q base off) s co r
      { h with regs := h.regs.set q.val (BitVec.ofNat 32 (s.clusters[co.c].lmem[h.idx].le a 4)), pc := h.pc + 1 } ∧
    ∃ t, exec (.sts co q base off) s = .next t ∧ s.onlyShare t co r { h with pc := h.pc + 1 } ∧
      t = { s with sched := t.sched, clusters := t.clusters } ∧
      (∀ c, c ≠ co.c → t.clusters[c] = s.clusters[c]) ∧
      t.clusters[co.c] = { s.clusters[co.c] with lmem := t.clusters[co.c].lmem } ∧
      (∀ i, i ≠ h.idx → t.clusters[co.c].lmem[i] = s.clusters[co.c].lmem[i]) ∧
      t.clusters[co.c].lmem[h.idx].le a 4 = h.regs[q].toNat ∧
      ∀ b, b < a ∨ a + 4 ≤ b → t.clusters[co.c].lmem[h.idx].read b = s.clusters[co.c].lmem[h.idx].read b

/-- While a core executes share h of run r: EXEC appends the operations of the descriptor at its operand to the share's outstanding ones and goes two words on; a BARGE
whose descriptor passes its checks, waits on no lock and finds its mover with room and no partition it names in reset appends one barge with the next number to the barges, and its share owes it; a RAISE whose reference is
not valid does nothing but go on, one of scope 0 adds its count, saturating at 2^32 - 1, to a lock of the own keeper on which nothing waits, one of scope 1 of another
cluster and one of scope 2 go on their way to that keeper; the share goes two words on. -/
def Obligations.ShareIssuesWork : Prop :=
  ∀ (s : State) (co : CoreId) (r : Run) (h : Share) (w : W32), s.executes co r h →
    (∃ t ws, exec (.engineExec co w) s = .next t ∧ t = { s with sched := t.sched } ∧
      s.onlyShare t co r { h with ops := h.ops ++ s.issued co.c h w.toNat, opSeq := h.opSeq + (s.issued co.c h w.toNat).length,
                                   execs := h.execs + 1, pc := h.pc + 2, words := ws }) ∧
    (∀ d, s.bargeCheck true (s.shareBytes co.c h.idx w.toNat 64) = (none, d) →
      (∀ p ∈ d.parts, s.clusters[p].reset = none) → s.moverFull (d.mover co) = false → refValid d.wait = false →
      ∃ t b, exec (.barge co (.word w)) s = .next t ∧
        t = { s with sched := t.sched, barges := s.barges ++ [b], nextBid := s.nextBid + 1 } ∧
        b.bid = s.nextBid ∧ b.desc = d ∧ b.ctx = r.ctx ∧ b.cls = max d.cls r.entry.cls ∧ b.started = false ∧ b.waiting = false ∧
        s.onlyShare t co r { h with barges := s.nextBid :: h.barges, pc := h.pc + 2, st := .running }) ∧
    (refValid w = false → ShareBecomes (.raise co w) s co r { h with pc := h.pc + 2 }) ∧
    (refValid w = true → refScope w = 0 → (∀ x ∈ s.clusters[co.c].keeper.waiters, x.lock ≠ refLock w) →
      ∃ t, exec (.raise co w) s = .next t ∧ s.onlyShare t co r { h with pc := h.pc + 2 } ∧
        t.clusters[co.c].keeper.level (refLock w) = min (s.clusters[co.c].keeper.level (refLock w) + refCount w) 0xFFFFFFFF ∧
        t.clusters[co.c].keeper.waiters = s.clusters[co.c].keeper.waiters ∧
        ∀ c, c ≠ co.c → t.clusters[c] = s.clusters[c]) ∧
    (refValid w = true → refScope w = 1 → refCluster w ≠ co.c →
      ∃ t, exec (.raise co w) s = .next t ∧ s.onlyShare t co r { h with pc := h.pc + 2 } ∧
        t = { s with sched := t.sched, clusters := t.clusters } ∧
        t.clusters[refCluster w].raisesIn = s.clusters[refCluster w].raisesIn ++ [(refLock w, refCount w)]) ∧
    (refValid w = true → refScope w = 2 →
      ∃ t, exec (.raise co w) s = .next t ∧ s.onlyShare t co r { h with pc := h.pc + 2 } ∧
        t = { s with sched := t.sched, globalIn := s.globalIn ++ [(refLock w, refCount w)] })

/-- While a core executes share h of run r, LOCKW of a valid reference of scope 0, with fewer than 512 waiters at the keeper: with nothing waiting on the lock and its level at least n, the level goes down by n and the
share goes two words on; otherwise the share waits in LOCKW behind the others. LOCKW_TIMEOUT of a late share whose run is already in overrun ends that share's
program and its wait. A raise that is on its way to a cluster's keeper, or to the global keeper while firmware runs, leaves its queue and is added, saturating, to a lock on which nothing waits. -/
def Obligations.LocksAreTakenAndRaised : Prop :=
  (∀ (s : State) (co : CoreId) (r : Run) (h : Share) (us : BitVec 20) (w : W32), s.executes co r h →
    refValid w = true → refScope w = 0 → s.clusters[co.c].keeper.waiters.length < 512 →
    let k := s.clusters[co.c].keeper
    ((∀ x ∈ k.waiters, x.lock ≠ refLock w) → refCount w ≤ k.level (refLock w) →
      ∃ t, exec (.lockw co us w) s = .next t ∧ s.onlyShare t co r { h with pc := h.pc + 2 } ∧
        t = { s with sched := t.sched, clusters := t.clusters, trc := t.trc } ∧
        t.clusters[co.c].keeper.level (refLock w) = k.level (refLock w) - refCount w ∧
        t.clusters[co.c].keeper.waiters = k.waiters) ∧
    ((∃ x ∈ k.waiters, x.lock = refLock w) ∨ k.level (refLock w) < refCount w →
      ∃ t, exec (.lockw co us w) s = .next t ∧ s.onlyShare t co r { h with st := .inLockw } ∧
        t = { s with sched := t.sched, clusters := t.clusters } ∧
        t.clusters[co.c].keeper.levels = k.levels ∧
        t.clusters[co.c].keeper.waiters = k.waiters ++ [⟨refLock w, refCount w, s.now + us.toNat * 1000, .share co r.rid h.idx⟩])) ∧
  (∀ (s : State) (c : Fin 4) (l n : Nat) (rest : List (Nat × Nat)), s.clusters[c].raisesIn = (l, n) :: rest → s.clusterUp c = true →
    (∀ x ∈ s.clusters[c].keeper.waiters, x.lock ≠ l) →
    ∃ t, exec (.crossClusterRaise c) s = .next t ∧ t.clusters[c].raisesIn = rest ∧
      t.clusters[c].keeper.level l = min (s.clusters[c].keeper.level l + n) 0xFFFFFFFF ∧
      t.clusters[c].keeper.waiters = s.clusters[c].keeper.waiters ∧ t.sched = s.sched ∧ ∀ d, d ≠ c → t.clusters[d] = s.clusters[d]) ∧
  (∀ (s : State) (l n : Nat) (rest : List (Nat × Nat)), s.globalIn = (l, n) :: rest → s.fwUp = true →
    (∀ x ∈ s.globalLocks.waiters, x.lock ≠ l) →
    ∃ t, exec .globalLockRaise s = .next t ∧ t.globalIn = rest ∧
      t.globalLocks.level l = min (s.globalLocks.level l + n) 0xFFFFFFFF ∧
      t.globalLocks.waiters = s.globalLocks.waiters ∧ t.sched = s.sched ∧ t.clusters = s.clusters) ∧
  ∀ (s : State) (co : CoreId) (rid : Nat) (i : Fin 4) (x : Waiter) (r : Run) (h : Share), s.lockwLate co = some (rid, i, x) →
    s.run? rid = some r → r.cause ≠ none → r.shares.find? (fun g => g.idx = i) = some h →
    ∃ t r' h', exec (.lockwTimeout co) s = .next t ∧ t.run? rid = some r' ∧ r'.shares.find? (fun g => g.idx = i) = some h' ∧
      h'.st = .running ∧ h'.ended = true ∧ h'.regs = h.regs ∧ r'.cause = r.cause ∧
      ∀ k', ∀ y ∈ (t.keeper k').waiters, y.who ≠ .share co rid i

/-- A command within the limits of its operands (Instr.wf) has a next state from every state. A command outside them faults only when it is a vector instruction of a
format, or a VLD or VST of a span, that R222 and R225 do not give; every other command has a next state. No command is refused. -/
def Obligations.VectorFormsRunOrFault : Prop :=
  (∀ (c : Instr) (s : State), c.wf = true → ∃ t, exec c s = .next t) ∧
  (∀ (c : Instr) (s : State) (f : Refusal), exec c s ≠ .refused f) ∧
  ∀ (s : State) (co : CoreId) (a : VArgs) (dst : VFmt),
    (floatForm a.fmt = false → exec (.vecFma co a) s = .fault .illegalVectorForm ∧ exec (.vecSqrt co a) s = .fault .illegalVectorForm ∧
      exec (.vecRsqrt co a) s = .fault .illegalVectorForm ∧ exec (.vecRecip co a) s = .fault .illegalVectorForm) ∧
    (a.fmt ≠ .fp32 → exec (.vecExp2 co a) s = .fault .illegalVectorForm ∧ exec (.vecLog2 co a) s = .fault .illegalVectorForm) ∧
    (floatForm a.fmt = true → exec (.vecAdds co a) s = .fault .illegalVectorForm ∧ exec (.vecSubs co a) s = .fault .illegalVectorForm ∧
      exec (.vecMuls co a) s = .fault .illegalVectorForm ∧ exec (.vecAnd co a) s = .fault .illegalVectorForm ∧
      exec (.vecOr co a) s = .fault .illegalVectorForm ∧ exec (.vecXor co a) s = .fault .illegalVectorForm ∧
      exec (.vecNot co a) s = .fault .illegalVectorForm ∧ exec (.vecShl co a) s = .fault .illegalVectorForm ∧
      exec (.vecLsr co a) s = .fault .illegalVectorForm ∧ exec (.vecAsr co a) s = .fault .illegalVectorForm) ∧
    (a.fmt ≠ .fp32 → a.fmt ≠ .int32 → exec (.vecRsum co a) s = .fault .illegalVectorForm ∧
      exec (.vecRmax co a) s = .fault .illegalVectorForm ∧ exec (.vecRmin co a) s = .fault .illegalVectorForm) ∧
    (narrowForm a.fmt dst = false → exec (.vecNarrow co a dst) s = .fault .illegalVectorForm)

/-- While a core executes share h of run r, every lane-wise vector instruction of a form R222 gives completes: its register file becomes laneWise of the operation (float forms fadd, fsub, ... on the float formats, integer forms on the integer
formats), the run's numeric flags gather the flags, the pc is one word on; the lane mask, the scalar registers, memory and every other share are unchanged.
For a register memory in canonical form laneWise writes an enabled lane of the destination with the low bits of the operation of that lane of the sources, read before any lane was written; a lane not enabled, and every lane of every other register, holds what it held. -/
def Obligations.VectorArithmeticIsLaneWise : Prop :=
  (∀ (s : State) (co : CoreId) (r : Run) (h : Share) (a : VArgs), s.executes co r h →
    let runs (c : Instr) (op : Nat → Nat → Nat → Nat × NFlags) : Prop :=
      let m := laneWise h.vreg h.vmask a op
      ∃ t, exec c s = .next t ∧ t = { s with sched := t.sched } ∧
        s.onlyShare t co { r with flags := r.flags ||| m.2.word } { h with vreg := m.1, pc := h.pc + 1 }
    let two (fop : FFmt → Nat → Nat → Nat × NFlags) (iop : Nat → Int → Int → Nat × NFlags) (x y _z : Nat) : Nat × NFlags :=
      match vfloat a.fmt with
      | some ff => fop ff x y
      | none => iop (vbits a.fmt) (sgn (vbits a.fmt) x) (sgn (vbits a.fmt) y)
    let logic (f : Nat → Nat → Nat → Nat) (x y _z : Nat) : Nat × NFlags := (f (vbits a.fmt) x y % 2 ^ vbits a.fmt, .none)
    runs (.vecAdd co a) (two fadd (fun w x y => wrapInt w (x + y))) ∧
    runs (.vecSub co a) (two fsub (fun w x y => wrapInt w (x - y))) ∧
    runs (.vecMul co a) (two fmul (fun w x y => wrapInt w (x * y))) ∧
    runs (.vecNeg co a) (two (fun f x _ => fneg f x) (fun w x _ => satRes w (-x))) ∧
    runs (.vecAbs co a) (two (fun f x _ => fabs f x) (fun w x _ => satRes w x.natAbs)) ∧
    runs (.vecMin co a) (two fmin (fun w x y => (wrapN w (min x y), .none))) ∧
    runs (.vecMax co a) (two fmax (fun w x y => (wrapN w (max x y), .none))) ∧
    (∀ f, vfloat a.fmt = some f →
      runs (.vecFma co a) (fun x y z => ffma f x y z) ∧ runs (.vecRecip co a) (fun x _ _ => frecip f x) ∧
      runs (.vecSqrt co a) (fun x _ _ => fsqrt f x) ∧ runs (.vecRsqrt co a) (fun x _ _ => frsqrt f x) ∧
      ∀ vr, runs (.vecDiv co a vr) (fun x y _ => fdiv f x y)) ∧
    (a.fmt = .fp32 → runs (.vecExp2 co a) (fun x _ _ => vexp2 x) ∧ runs (.vecLog2 co a) (fun x _ _ => vlog2 x)) ∧
    (floatForm a.fmt = false →
      runs (.vecAdds co a) (two fadd (fun w x y => satRes w (x + y))) ∧ runs (.vecSubs co a) (two fadd (fun w x y => satRes w (x - y))) ∧
      runs (.vecMuls co a) (two fadd (fun w x y => satRes w (x * y))) ∧ runs (.vecAnd co a) (logic (fun _ x y => x &&& y)) ∧
      runs (.vecOr co a) (logic (fun _ x y => x ||| y)) ∧ runs (.vecXor co a) (logic (fun _ x y => x ^^^ y)) ∧
      runs (.vecNot co a) (logic (fun w x _ => 2 ^ w - 1 - x)) ∧
      runs (.vecShl co a) (logic (fun w x y => if y < w then x * 2 ^ y else 0)) ∧
      runs (.vecLsr co a) (logic (fun w x y => if y < w then x % 2 ^ w / 2 ^ y else 0)) ∧
      runs (.vecAsr co a) (logic (fun w x y => wrapN w (sgn w x / (2 ^ min y w : Nat)))))) ∧
  ∀ (m : Mem) (mask : BitVec 256) (a : VArgs) (op : Nat → Nat → Nat → Nat × NFlags) (i : Nat), m.wf = true → i < vlanes a.fmt →
    let m' := (laneWise m mask a op).1
    (laneOn mask a.masked i = true → lane m' a.fmt a.vd i =
      (op (lane m a.fmt a.va i) (lane m a.fmt a.vb i) (lane m a.fmt a.vd i)).1 % 2 ^ vbits a.fmt) ∧
    (laneOn mask a.masked i = false → lane m' a.fmt a.vd i = lane m a.fmt a.vd i) ∧
    (∀ q, q ≠ a.vd → lane m' a.fmt q i = lane m a.fmt q i) ∧ m'.wf = true

/-- While a core executes share h of run r, each of these instructions, of a form R222 gives, completes, gathers its flags in the run and goes one word on; nothing else changes but what follows. CMPEQ, CMPNE, CMPLT and CMPLE: the lane mask becomes laneCmp of the comparison
of the lanes, the registers are unchanged. CVT and NARROW: the registers become convWise of cvtLane, and of narrowInt by the count in source b's lane. SEL: for a register memory in canonical form an enabled lane of the destination gets source a's lane where the lane mask is set and source b's elsewhere (log entry 48, the model's choice), a lane not
enabled and every lane of the other registers keep what they hold. Integer DIV: an enabled lane of vr gets the remainder, one of the destination, where it is another register, the quotient of idiv; the other lanes keep what they hold. RSUM, RMAX and RMIN: lane 0 of the destination, where it is enabled, gets the reduction of source a (log entry 49, the model's choice). -/
def Obligations.VectorCompareMoveAndReduce : Prop :=
  ∀ (s : State) (co : CoreId) (r : Run) (h : Share) (a : VArgs) (vr : Fin 32) (dst : VFmt), s.executes co r h →
    let runs (c : Instr) (m : Mem) (k : BitVec 256) (fl : NFlags) : Prop :=
      ∃ t, exec c s = .next t ∧ t = { s with sched := t.sched } ∧
        s.onlyShare t co { r with flags := r.flags ||| fl.word } { h with vreg := m, vmask := k, pc := h.pc + 1 }
    let cmp (op : CmpOp) := laneCmp h.vreg h.vmask a (cmpLane a.fmt op)
    let red (x : Nat × NFlags) : Mem := if laneOn h.vmask a.masked 0 then putLane h.vreg a.fmt a.vd 0 x.1 else h.vreg
    let rmax := reduceWith h.vreg a (arith a.fmt fmax (fun w x y => (wrapN w (max x y), .none)))
    let rmin := reduceWith h.vreg a (arith a.fmt fmin (fun w x y => (wrapN w (min x y), .none)))
    let div (i : Nat) := idiv (vbits a.fmt) (sgn (vbits a.fmt) (lane h.vreg a.fmt a.va i)) (sgn (vbits a.fmt) (lane h.vreg a.fmt a.vb i))
    let on (i : Nat) : Bool := laneOn h.vmask a.masked i
    runs (.vecCmpeq co a) h.vreg (cmp .eq).1 (cmp .eq).2 ∧
    runs (.vecCmpne co a) h.vreg (cmp .ne).1 (cmp .ne).2 ∧
    runs (.vecCmplt co a) h.vreg (cmp .lt).1 (cmp .lt).2 ∧
    runs (.vecCmple co a) h.vreg (cmp .le).1 (cmp .le).2 ∧
    (let cv := convWise h.vreg h.vmask a dst (fun x _ => cvtLane a.fmt dst x)
     runs (.vecCvt co a dst) cv.1 h.vmask cv.2) ∧
    (narrowForm a.fmt dst = true →
      let nv := convWise h.vreg h.vmask a dst (fun x n => narrowInt (vbits dst) (sgn (vbits a.fmt) x) n)
      runs (.vecNarrow co a dst) nv.1 h.vmask nv.2) ∧
    (∃ m, runs (.vecSel co a) m h.vmask .none ∧
      (h.vreg.wf = true → ∀ i, i < vlanes a.fmt →
        lane m a.fmt a.vd i = (if on i then (if h.vmask.getLsbD i then lane h.vreg a.fmt a.va i else lane h.vreg a.fmt a.vb i)
                               else lane h.vreg a.fmt a.vd i) ∧
        ∀ q, q ≠ a.vd → lane m a.fmt q i = lane h.vreg a.fmt q i)) ∧
    (floatForm a.fmt = false → ∃ m fl, runs (.vecDiv co a vr) m h.vmask fl ∧
      fl = ((List.range (vlanes a.fmt)).filter on).foldl (fun f i => f.or (div i).2.2) .none ∧
      (h.vreg.wf = true → ∀ i, i < vlanes a.fmt →
        lane m a.fmt vr i = (if on i then (div i).2.1 % 2 ^ vbits a.fmt else lane h.vreg a.fmt vr i) ∧
        (a.vd ≠ vr → lane m a.fmt a.vd i = (if on i then (div i).1 % 2 ^ vbits a.fmt else lane h.vreg a.fmt a.vd i)) ∧
        ∀ q, q ≠ a.vd → q ≠ vr → lane m a.fmt q i = lane h.vreg a.fmt q i)) ∧
    (a.fmt = .fp32 ∨ a.fmt = .int32 →
      runs (.vecRsum co a) (red (reduceSum h.vreg a)) h.vmask (reduceSum h.vreg a).2 ∧
      runs (.vecRmax co a) (red rmax) h.vmask rmax.2 ∧ runs (.vecRmin co a) (red rmin) h.vmask rmin.2)

/-- While a core executes share h of run r, for a legal span of n registers that no outstanding engine operation blocks, with canonical memories: VLD completes, each register vd + k holds the 256 bytes at the local offset plus k times the stride, and every byte of other
registers is unchanged; VST completes, every one of those bytes of local memory holds its register's byte, the last register's where spans overlap (log entry 178, the model's choice), every byte of local memory outside the spans is unchanged, and no other memory changes. The pc goes three words on. The number of registers is an operand of the row (log entry 148, the model's choice). -/
def Obligations.VectorLoadsAndStoresCopyRegisters : Prop :=
  ∀ (s : State) (co : CoreId) (r : Run) (h : Share) (vd : Fin 32) (n : Nat) (off stride : W32), s.executes co r h →
    vectorSpan vd n off stride = true → h.vreg.wf = true → s.clusters[co.c].lmem[h.idx].wf = true →
    let loc := s.clusters[co.c].lmem[h.idx]
    let at_ (k j : Nat) : Nat := off.toNat + k * stride.toNat + j
    (s.localBlockers r h (vecRanges (vecSpans n off.toNat stride.toNat) false) = [] →
      ∃ t m, exec (.vld co vd n off stride) s = .next t ∧ t = { s with sched := t.sched } ∧
        s.onlyShare t co r { h with vreg := m, pc := h.pc + 3 } ∧
        (∀ k j, k < n → j < 256 → m.read (256 * (vd.val + k) + j) = loc.read (at_ k j)) ∧
        ∀ x, x < 256 * vd.val ∨ 256 * (vd.val + n) ≤ x → m.read x = h.vreg.read x) ∧
    (s.localBlockers r h (vecRanges (vecSpans n off.toNat stride.toNat) true) = [] →
      ∃ t, exec (.vst co vd n off stride) s = .next t ∧ t = { s with sched := t.sched, clusters := t.clusters } ∧
        s.onlyShare t co r { h with pc := h.pc + 3 } ∧ (∀ c, c ≠ co.c → t.clusters[c] = s.clusters[c]) ∧
        (∀ i, i ≠ h.idx → t.clusters[co.c].lmem[i] = s.clusters[co.c].lmem[i]) ∧
        t.clusters[co.c] = { s.clusters[co.c] with lmem := t.clusters[co.c].lmem } ∧
        (∀ k j, k < n → j < 256 → (∀ k' j', k < k' → k' < n → j' < 256 → at_ k' j' ≠ at_ k j) →
          t.clusters[co.c].lmem[h.idx].read (at_ k j) = h.vreg.read (256 * (vd.val + k) + j)) ∧
        ∀ x, (∀ k j, k < n → j < 256 → x ≠ at_ k j) → t.clusters[co.c].lmem[h.idx].read x = loc.read x)

/-- While no timetable runs and nothing waits to be settled: a due CONTROL tick that is not spurious gives its source the next count and its stamp and moves its due time to the next match; a BLANK tick that is owed, the
j-th one j nominal intervals after the last-row tick, does the same and is owed no more; a frame reference of the generator, or of the selected FRAME_REF edge, that is not spurious is stamped with SYSTIME and counts a tick at the FRAME source (of which there is one);
TICK_LOST marks the gap and reports event 0x0102. The runs and every cluster are unchanged. -/
def Obligations.TicksAreCountedAndStamped : Prop :=
  ∀ s : State, s.sched.running = false → s.noStop →
    (∀ k : Fin 16, s.sched.src[k].kind = 4 → 0 < s.sched.src[k].periodUs → s.sched.src[k].due ≤ s.now → s.tooSoon k = false →
      ∃ t, exec (.controlTick k) s = .next t ∧ t.sched.src[k].next = s.sched.src[k].next + 1 ∧
        t.sched.src[k].last = some s.now ∧
        t.sched.src[k].due = nextMatch s.now (1000 * s.sched.src[k].phaseUs) (1000 * s.sched.src[k].periodUs) ∧
        (∀ j, j ≠ k → t.sched.src[j] = s.sched.src[j]) ∧ t.sched.runs = s.sched.runs ∧ t.clusters = s.clusters) ∧
    (∀ k : Fin 16, s.sched.src[k].kind = 1 → 0 < s.sched.src[k].blanks →
      s.sched.src[k].blankAt * 1000 + ((s.sched.src[k].blankNo + 1 : Nat) * s.srcIntervalQ k).floor.toNat ≤ s.now * 1000 →
      s.tooSoon k = false →
      ∃ t, exec (.blankTick k) s = .next t ∧ t.sched.src[k].next = s.sched.src[k].next + 1 ∧
        t.sched.src[k].last = some s.now ∧ t.sched.src[k].blanks = s.sched.src[k].blanks - 1 ∧
        t.sched.src[k].blankNo = s.sched.src[k].blankNo + 1 ∧ t.sched.src[k].blankAt = s.sched.src[k].blankAt ∧
        (∀ j, j ≠ k → t.sched.src[j] = s.sched.src[j]) ∧ t.sched.runs = s.sched.runs ∧ t.clusters = s.clusters) ∧
    (∀ (k : Fin 16) (l : Nat), s.sched.src[k].kind ≠ 0 → s.sched.src[k].kind ≠ 4 → s.sched.src[k].lost = false →
      s.sched.src[k].last = some l → l * 1000 + 4 * s.srcInterval k < s.now * 1000 →
      ∃ t, exec (.tickLost k) s = .next t ∧ t.sched.src[k] = { s.sched.src[k] with lost := true } ∧
        (∀ j, j ≠ k → t.sched.src[j] = s.sched.src[j]) ∧ t.sched.runs = s.sched.runs ∧
        s.reports t 0x0102 0 0xFF true (leBytes 1 k.val ++ leBytes 4 (s.sched.src[k].next - 1).toNat) ∧ t.clusters = s.clusters) ∧
    ∀ k : Fin 16, s.sched.src[k].kind = 3 → (∀ j, j ≠ k → s.sched.src[j].kind ≠ 3) → s.tooSoon k = false → s.on 4 = true →
      (s.img.frameSrc = 2 → s.img.genNext ≤ s.now →
        ∃ t, exec .frameGeneratorMatch s = .next t ∧ t.img.genNext = nextMatch s.now s.img.genPhase s.img.genPeriod ∧
          t.img.ref = s.dev.systime ∧ t.img.refSeen = true ∧ t.sched.src[k].next = s.sched.src[k].next + 1 ∧
          t.sched.src[k].last = some s.now ∧ t.sched.runs = s.sched.runs ∧ t.clusters = s.clusters) ∧
      ∀ rising : Bool, s.img.frameSrc = (if rising then 0 else 1) →
        ∃ t, exec (.frameRefEdge rising) s = .next t ∧ t.img.ref = s.dev.systime ∧ t.img.refSeen = true ∧
          t.sched.src[k].next = s.sched.src[k].next + 1 ∧ t.sched.src[k].last = some s.now ∧
          t.sched.runs = s.sched.runs ∧ t.clusters = s.clusters

/-- ENTRY_RUN_START of a waiting run with no wait reference and no prefetch barge left, on a cluster that is up and has three healthy cores, starts it at SYSTIME with four shares, index 0 to 3, whose registers are 0 but s1, the index, and s2, the low 32 bits of its tick count.
SUSPENDED_RUN_RESUME, while no TICK run of the cluster waits to start (log entry 163, the model's choice), puts a suspended share of the run back on the idle core that takes it next. SHARE_RETIRE of a share whose program has ended with no barge outstanding retires it, while another share of its run has not retired (runs have numbers of their own, and shares indices of their own). -/
def Obligations.RunsStartAndResume : Prop :=
  (∀ (s : State) (rid : Nat) (r : Run), s.run? rid = some r → r.phase = .waiting → r.waitsLeft = [] → r.pf = [] → r.pfBad = false →
    s.clusterUp r.entry.cluster = true → 3 ≤ s.clusters[r.entry.cluster].healthy →
    ∃ t r', exec (.entryRunStart rid) s = .next t ∧ t.run? rid = some r' ∧ r'.phase = .running ∧ r'.start = some s.now ∧
      r'.shares.map (·.idx) = List.finRange 4 ∧
      (∀ h ∈ r'.shares, h.pc = 0 ∧ h.ended = false ∧ h.ops = [] ∧ h.regs[1] = BitVec.ofNat 32 h.idx.val ∧
        h.regs[2] = BitVec.ofNat 32 r.count ∧ ∀ q : Fin 16, q ≠ 1 → q ≠ 2 → h.regs[q] = 0) ∧
      t.dram = s.dram ∧ t.host = s.host) ∧
  (∀ (s : State) (rid : Nat) (r : Run) (k : Fin 4) (x : Run) (i : Fin 4), s.run? rid = some r → s.clusterUp r.entry.cluster = true →
    s.clusters[r.entry.cluster].cores[k].usable = true → s.clusters[r.entry.cluster].cores[k].cur = none →
    s.nextShare r.entry.cluster k = some (x, i, true) → x.rid = rid →
    (∀ q ∈ s.sched.runs, q.entry.cluster = r.entry.cluster → q.entry.cls = 0 → q.phase ≠ .waiting) →
    ∃ t, exec (.suspendedRunResume rid) s = .next t ∧ t.holds ⟨r.entry.cluster, k⟩ = some (rid, i) ∧
      (rid, i) ∉ t.clusters[r.entry.cluster].cores[k].susp ∧ t.dram = s.dram) ∧
  ∀ (s : State) (co : CoreId) (r : Run) (h : Share), s.shareOn co = some (r, h) → h.ended = true → h.ops = [] → h.barges = [] →
    s.clusterUp co.c = true → (∃ g ∈ r.shares, g.idx ≠ h.idx ∧ g.st ≠ .retired) → (∀ g ∈ r.shares, g.idx = h.idx → g = h) →
    (∀ q ∈ s.sched.runs, q.rid = r.rid → q = r) → s.noStop →
    ∃ t r' h', exec (.shareRetire co) s = .next t ∧ t.run? r.rid = some r' ∧ r'.shares.find? (fun g => g.idx = h.idx) = some h' ∧
      h'.st = .retired

/-- Nothing waits to be settled. OVERRUN_BUDGET of a running run with no overrun counted whose elapsed cycles exceed its budget counts it in overrun with cause BUDGET, once more for its entry, under every policy but FAULT (under SKIP_NEXT with no pending run, whose entry drops its next
run; under DEGRADE its entry goes to its alternate point); its shares go on. RUN_DEADLINE at the first deadline of a run that is not stopped counts the deadline: of one already in overrun under another policy than BYPASS nothing else; of a running one under DEGRADE with no overrun counted, it is in overrun with cause DEADLINE and its entry
goes to its alternate point. ENTRY_LOCK_WAIT_TIMEOUT of a waiting run whose timeout has passed and no run pending drops it; one with no overrun counted, under SKIP_NEXT or DEGRADE, is in overrun with cause LOCK_TIMEOUT. DROPPED_RUN_DEADLINE of a dropped run ends it. -/
def Obligations.LateRunsAreOverruns : Prop :=
  ∀ (s : State) (rid : Nat) (r : Run), s.run? rid = some r → s.noStop →
    let idle : Prop := ∀ q ∈ s.sched.runs, q.phase ≠ .pending
    (∀ e : EntrySt, r.phase = .running → r.cause = none → r.entry.policyAt r.alt ≠ 3 → idle →
      r.budget * 4 < s.elapsed4 r → s.entry? r.entry.id = some e →
      ∃ t r' e', exec (.overrunBudget rid) s = .next t ∧ t.run? rid = some r' ∧ r'.cause = some 0 ∧ r'.shares = r.shares ∧
        r'.phase = .running ∧ t.entry? r.entry.id = some e' ∧ e'.overruns = e.overruns + 1 ∧
        (r.entry.policyAt r.alt = 1 → r.old = false → e'.atAlt = true) ∧
        (r.entry.policyAt r.alt = 0 → r.old = false → e'.dropNext = true) ∧ t.clusters = s.clusters) ∧
    (r.current = true → r.passed = 0 → s.due1 r = true → r.stopped = false → s.quiescing r.entry.cluster = false →
      (r.cause ≠ none → r.entry.policyAt r.alt ≠ 2 →
        ∃ t r', exec (.runDeadline rid) s = .next t ∧ t.run? rid = some r' ∧ r'.passed = 1 ∧ r'.cause = r.cause) ∧
      ∀ e : EntrySt, r.phase = .running → r.cause = none → r.entry.policyAt r.alt = 1 → r.old = false →
        s.entry? r.entry.id = some e →
        ∃ t r' e', exec (.runDeadline rid) s = .next t ∧ t.run? rid = some r' ∧ r'.passed = 1 ∧ r'.cause = some 1 ∧
          t.entry? r.entry.id = some e' ∧ e'.overruns = e.overruns + 1 ∧ e'.atAlt = true) ∧
    (r.phase = .waiting → r.passed = 0 → s.beyond r.stamp (r.entry.timeout * 1000000) = true → r.waitsLeft ≠ [] → idle →
      (r.cause ≠ none → ∃ t r', exec (.entryLockWaitTimeout rid) s = .next t ∧ t.run? rid = some r' ∧ r'.phase = .dropped ∧
        r'.waitsLeft = [] ∧ r'.pf = [] ∧ r'.cause = r.cause) ∧
      (r.cause = none → r.entry.policyAt (r.alt || s.runAlt r) ≠ 2 → r.entry.policyAt (r.alt || s.runAlt r) ≠ 3 →
        ∃ t r', exec (.entryLockWaitTimeout rid) s = .next t ∧ t.run? rid = some r' ∧ r'.phase = .dropped ∧
          r'.waitsLeft = [] ∧ r'.pf = [] ∧ r'.cause = some 2)) ∧
    (r.phase = .dropped → s.due1 r = true → idle →
      ∃ t, exec (.droppedRunDeadline rid) s = .next t ∧ t.run? rid = none ∧
        t.clusters[r.entry.cluster].mem = s.clusters[r.entry.cluster].mem ∧ t.dram = s.dram)

/-- ClipSlot.endOfStep of a slot with no reload pending: the step maximum enters the history of `depth` steps; a share (clipped times 2^16 over total, 0 for an empty step) above the threshold puts the slot in fallback with a ceiling of the greatest of the history and the old ceiling and a count of 0; otherwise the 64th quiet step in a row of a slot in fallback restores C_cal, and any other one counts. CLIP_STEP_EVALUATION of a slot on its
own evaluates the oldest of its steps that have ended: it stores exactly that, and the step leaves the slot. -/
def Obligations.ClipStepsAreEvaluated : Prop :=
  (∀ (t : ClipSlot) (clipped total : Nat) (mx : W32), t.reload = none →
    let u := (t.endOfStep clipped total mx).1
    u.hist = (mx :: t.hist).take t.depth ∧ u.cCal = t.cCal ∧ u.steps = t.steps + 1 ∧
    (t.threshold < clipShare clipped total →
      u.inFallback = true ∧ u.streak = 0 ∧
      u.ceiling = BitVec.ofNat 32 (max32 (((mx :: t.hist).take t.depth).foldl (fun m x => max32 m x.toNat) 0) t.ceiling.toNat)) ∧
    (clipShare clipped total ≤ t.threshold → t.inFallback = true → t.streak = 63 →
      u.inFallback = false ∧ u.streak = 0 ∧ u.ceiling = t.cCal) ∧
    (clipShare clipped total ≤ t.threshold → t.inFallback = true → t.streak ≠ 63 →
      u.inFallback = true ∧ u.streak = t.streak + 1 ∧ u.ceiling = t.ceiling) ∧
    (clipShare clipped total ≤ t.threshold → t.inFallback = false →
      u.inFallback = false ∧ u.streak = t.streak ∧ u.ceiling = t.ceiling)) ∧
  ∀ (s : State) (c : Fin 4) (n : Fin 512) (x : ClipSlot) (p : ClipStep), s.fwUp = true → s.clusterUp c = true →
    s.clusters[c].slots.find? (fun y => y.num = n.val) = some x → x.linked = false →
    x.live.find? (fun y => y.ended) = some p →
    ∃ t, exec (.clipStepEvaluation c n) s = .next t ∧
      (let u := (x.endOfStep p.clipped p.total p.stepMax).1
       ∀ y ∈ t.clusters[c].slots, y.cargo = x.cargo → y.slot = x.slot →
        y = { u with live := u.live.filter (fun z => decide (z ≠ p)), fbNow := u.inFallback }) ∧
      (∀ y ∈ t.clusters[c].slots, (y.cargo ≠ x.cargo ∨ y.slot ≠ x.slot) → y ∈ s.clusters[c].slots) ∧
      ∀ d, d ≠ c → t.clusters[d] = s.clusters[d]

/-- When the oldest operation of an engine of the share on a core is ready (readyOp), its command completes, and the operation leaves the share's outstanding ones; of all runs and shares only this share changes, and of its run only the numeric flags, which gather the operation's, and the rows repaired.
MATRIX_LAYER, unless its clip slot holds the step back: the share's local memory becomes that of layerRun under the ceiling of its step, no other memory changes, and clip_fb is among the flags exactly when that is a fallback ceiling (log entry 160, the model's choice); held back, it changes nothing. INGEST, GATHER, DEPTHWISE, MAXPOOL and AVGPOOL: the core's cluster memory, the share's local memory and its stripe state become those of stripeRes of the planned operation; no other
cluster's memory, no other local memory, no DRAM and no host memory changes. APPEND, ATTEND and ATTEND_BWD of a run of class TICK, none of whose ranges is being copied: DRAM, its poisoned lines, the core's cluster memory and the share's local memory become those of appendRun, attendRun and attendBwdRun, no other memory of a cluster changes; one of whose ranges is being copied waits. -/
def Obligations.EngineOperationsComplete : Prop :=
  ∀ (s : State) (co : CoreId) (r : Run) (h : Share) (o : EngOp),
    let left (s t : State) (fl : W16) (fixed : Nat) : Prop := ∃ ws,
      s.onlyShare t co { r with flags := r.flags ||| fl, repaired := r.repaired + fixed }
        { h with ops := h.ops.filter (fun x => x.seq ≠ o.seq), parity := if o.kind = .matrix then none else h.parity, words := ws }
    let others (t : State) : Prop :=
      (∀ d, d ≠ co.c → t.clusters[d].mem = s.clusters[d].mem ∧ t.clusters[d].lmem = s.clusters[d].lmem) ∧
      ∀ i, i ≠ h.idx → t.clusters[co.c].lmem[i] = s.clusters[co.c].lmem[i]
    (s.readyOp co .matrix [0x01] = some (r, h, o) →
      let d := LayerDesc.ofBytes (s.shareBytes co.c h.idx o.addr 128)
      let slot := s.slot? co.c r.entry.cargo d.slot
      let held := r.entry.cls ≠ 3 ∧ ∃ x, slot = some x ∧ x.holds r.rid o.addr = true
      let cf := (slot.map (fun x => x.ceilingOf r.rid o.addr)).getD (0x7F800000, false)
      let res := layerRun s.clusters[co.c].lmem[h.idx] s.clusters[co.c].mem cf.1.toNat d
      (held → exec (.matrixLayer co) s = .next s) ∧
      (¬ held → ∃ t, exec (.matrixLayer co) s = .next t ∧ t = { s with sched := t.sched, clusters := t.clusters, trc := t.trc } ∧
        left s t (res.flags.word ||| (if cf.2 then 0x40 else 0)) 0 ∧ others t ∧
        t.clusters[co.c].mem = s.clusters[co.c].mem ∧ t.clusters[co.c].lmem[h.idx] = res.loc)) ∧
    (∀ c op, ((c, op) = (.ingest co, 0x10) ∨ (c, op) = (.gather co, 0x11) ∨ (c, op) = (.depthwise co, 0x12) ∨
        (c, op) = (.maxpool co, 0x13) ∨ (c, op) = ((.avgpool co : Instr), (0x14 : Nat))) →
      s.readyOp co .stripe [op] = some (r, h, o) →
      let p := s.stripePlan r h o o.index
      let res := s.stripeRes co.c r h p
      let fixed := res.fixed.length - p.x.fixed.length
      ∃ t, exec c s = .next t ∧ t = { s with sched := t.sched, clusters := t.clusters, trc := t.trc } ∧
        left { s with sched := { s.sched with ovr := t.sched.ovr } } t res.fl.word fixed ∧ (fixed = 0 → t.sched.ovr = s.sched.ovr) ∧
        others t ∧ t.clusters[co.c].mem = res.clus ∧ t.clusters[co.c].lmem[h.idx] = res.loc ∧
        t.clusters[co.c].stripe[h.idx] = res.st.keep { p.x.after p.ops p.gs r.info o.index with fixed := res.fixed } ∧
        ∀ i, i ≠ h.idx → t.clusters[co.c].stripe[i] = s.clusters[co.c].stripe[i]) ∧
    ∀ c op, ((c, op) = (.append co, 0x30) ∨ (c, op) = (.attend co, 0x31) ∨ (c, op) = ((.attendBwd co : Instr), (0x32 : Nat))) →
      s.readyOp co .attn [op] = some (r, h, o) →
      let a := { AttnDesc.ofBytes (s.shareBytes co.c h.idx o.addr 128) with seqOff := o.seqOff }
      let d := s.shareBytes co.c h.idx a.set 64
      let st := SetDesc.ofBytes d
      let m := s.engMem co.c h.idx
      let set := (s.setIndex r d).1
      let res := if op = 0x30 then appendRun m a st set
        else if op = 0x31 then attendRun m a st set s.clusters[co.c].kvB else attendBwdRun m a st set s.clusters[co.c].kvB
      ((a.dram st).any (fun x => s.copying x.1 x.2) = true → exec c s = .next s) ∧
      ((a.dram st).any (fun x => s.copying x.1 x.2) = false → r.entry.cls = 0 → o.owed = none →
        ∃ t, exec c s = .next t ∧ left s t res.flags.word 0 ∧ others t ∧ (∀ d, d ≠ co.c → t.clusters[d] = s.clusters[d]) ∧
          t.dram = res.mem.dram ∧ t.poison = res.mem.poison ∧ t.clusters[co.c].mem = res.mem.clus ∧
          t.clusters[co.c].lmem[h.idx] = res.mem.loc ∧ t.barges = s.barges ∧ t.cargos = s.cargos ∧ t.cfg = s.cfg ∧ t.nor = s.nor)

/-- With a matrix operation ready on a core: an error in the active set in pass p of its layer, the first in that pass, marks the pass and reports ARRAY_PARITY (active set, not stopped); one in the shadow set reports it and leaves the share as it is; both queue a test of the array unless one is pending. A second error in the active set in the same pass, and an error of
the code buffer or of the accumulator file, stop the share under R117, with the event saying so: while its run's deadline has not passed and it has no barge outstanding the run is marked stopped, and DRAM is unchanged. -/
def Obligations.ParityErrorsAreHandled : Prop :=
  ∀ (s : State) (co : CoreId) (r : Run) (h : Share) (o : EngOp) (p : Nat), s.readyOp co .matrix [0x01] = some (r, h, o) →
    let tested (t : State) : Prop := ∃ x ∈ t.health.tests, x.unit = .array co
    let stops (c : Instr) (set : Nat) : Prop :=
      exec c s = .next ((State.stopShare (s.parityEvent co set 1) co r h (some p)).settleStop) ∧
      (r.passed = 0 → h.barges = [] → s.clusterUp co.c = true → s.noStop →
        ∃ t r', exec c s = .next t ∧ t.run? r.rid = some r' ∧ r'.stopped = true ∧ t.dram = s.dram ∧ tested t)
    (h.parity ≠ some p → ∃ t, exec (.activeSetParityError ⟨co, p⟩) s = .next t ∧ s.onlyShare t co r { h with parity := some p } ∧ tested t ∧
      s.reports t 0x030C 0 co.c.val true [0, 0] ∧ t.clusters = s.clusters ∧ t.dram = s.dram) ∧
    (∃ t, exec (.shadowSetParityError co) s = .next t ∧ t.sched = s.sched ∧ tested t ∧
      s.reports t 0x030C 0 co.c.val true [1, 0] ∧ t.clusters = s.clusters ∧ t.dram = s.dram) ∧
    (h.parity = some p → stops (.activeSetParityError ⟨co, p⟩) 0 ∧ stops (.arrayParityStop ⟨co, p⟩ .activeAgain) 0) ∧
    stops (.arrayParityStop ⟨co, p⟩ .codeBuffer) 2 ∧ stops (.arrayParityStop ⟨co, p⟩ .accumulator) 3

/-- R69 for a lane of w bits, 0 < w: the count is the second operand as an unsigned integer; a count below w shifts normally, the left and logical right shifts as products and quotients of the unsigned value modulo 2^w, ASR as the quotient of the signed value rounded toward minus infinity; NARROW by a count below 64
divides the signed value by 2^n toward zero before it saturates, so that NARROW of -3 by 1 gives -1 where ASR gives -2. -/
def Obligations.ShiftsAndNarrowing : Prop :=
  (∀ w a n : Nat, 0 < w → n < w → a < 2 ^ w →
    shlN w a n = a * 2 ^ n % 2 ^ w ∧ lsrN w a n = a / 2 ^ n ∧ sgn w (asrN w a n) = Int.fdiv (sgn w a) (2 ^ n)) ∧
  (∀ (w : Nat) (x : Int) (n : Nat), 0 < w → n < 64 → intMin w ≤ x.tdiv (2 ^ n) → x.tdiv (2 ^ n) ≤ intMax w →
    sgn w (narrowInt w x n).1 = x.tdiv (2 ^ n)) ∧
  sgn 8 (narrowInt 8 (-3) 1).1 = -1 ∧ sgn 8 (asrN 8 0xFD 1) = -2

/-- BARGE_START of a ready barge whose source has no uncorrectable line marks it started and writes no memory. BARGE_COMPLETE of a started local barge that owes no traffic, whose source has no uncorrectable line and no row of which is being copied, takes it out of its queue. BARGE_WAIT_TIMEOUT of a share's barge that waits beyond its time, and has not started (no barge is held back from a full queue),
takes it out of its queue, reports BARGE_TIMEOUT with its tag, and writes no memory. -/
def Obligations.BargesStartAndEnd : Prop :=
  ∀ (s : State) (bid : Nat) (b : Barge), s.barge? bid = some b →
    (s.bargeReady b = true → s.sourceUe b.desc = false →
      ∃ t b', exec (.bargeStart bid) s = .next t ∧ t.barge? bid = some b' ∧ b'.started = true ∧ b'.desc = b.desc ∧
        b'.mover = b.mover ∧ t.dram = s.dram ∧ t.clusters = s.clusters) ∧
    (b.started = true → b.owed = [] → s.clusterUp b.cluster = true → b.desc.remote = false → s.sourceUe b.desc = false →
      s.bargeHeld b.desc = false →
      ∃ t, exec (.bargeComplete bid) s = .next t ∧ t.barge? bid = none) ∧
    ∀ (w : Waiter) (rid : Nat) (i : Fin 4) (co : CoreId), b.started = false → b.by_ = .share rid i co → (∀ x ∈ s.barges, x.held = false) →
      (s.keeper (waitKeeper b.cluster b.desc.wait)).waiters.find? (fun x => x.who = .barge bid && decide (x.expiry < s.now)) = some w →
      ∃ t, exec (.bargeWaitTimeout bid) s = .next t ∧ t.barge? bid = none ∧ t.dram = s.dram ∧
        s.reports t 0x0302 b.owner b.cluster.val false (leBytes 4 b.desc.tag.toNat) ∧
        ∀ c : Fin 4, t.clusters[c].mem = s.clusters[c].mem ∧ t.clusters[c].lmem = s.clusters[c].lmem

/-- A started COPY barge of one row of n bytes, from DRAM to the memory of a cluster, both ends in one space, that raises nothing and asks for no event, whose lines are not poisoned and no row of which is being copied: at BARGE_COMPLETE the n bytes at the destination are those of the source, every other byte of that cluster's memory, every other memory of a cluster, DRAM and
the NOR are unchanged, and the barge has left its queue. The cluster memory is in canonical form. -/
def Obligations.BargeCopiesARow : Prop :=
  ∀ (s : State) (bid : Nat) (b : Barge) (p : Fin 4) (a : Nat) (c : Fin 4) (off : Nat),
    s.barge? bid = some b → b.started = true → b.owed = [] → s.clusterUp b.cluster = true → b.desc.remote = false →
    b.desc.op = 0x40 → b.desc.yCount = 1 → b.desc.zCount = 1 → 0 < b.desc.xBytes →
    spaceOf b.desc.src = .dram p a → a + b.desc.xBytes ≤ 0x800000000 → spaceOf b.desc.dst = .clus c off →
    off + b.desc.xBytes ≤ 0x1000000 → s.poisoned a b.desc.xBytes = [] → refValid b.desc.raise = false → bit b.desc.ctl 2 = false →
    s.bargeHeld b.desc = false → s.clusters[c].mem.wf = true →
    ∃ t, exec (.bargeComplete bid) s = .next t ∧ t.barge? bid = none ∧ t.dram = s.dram ∧ t.nor = s.nor ∧
      (∀ i, i < b.desc.xBytes → t.clusters[c].mem.read (off + i) = s.dram.read (a + i)) ∧
      (∀ x, x < off ∨ off + b.desc.xBytes ≤ x → t.clusters[c].mem.read x = s.clusters[c].mem.read x) ∧
      (∀ d, d ≠ c → t.clusters[d].mem = s.clusters[d].mem) ∧ ∀ d : Fin 4, t.clusters[d].lmem = s.clusters[d].lmem

/-- For a window of a slots, four classes in priority order, minimums whose sum is at most a: every class gets at least the lesser of its minimum and what it wants and at most what it wants; together they get at most a; and a class gets less than it wants only when the window is used up. ARBITER_WINDOW of a cluster that is up counts the window, and a short
window, for its channel, and changes nothing but counters and that partition's arbiter.
At the first BUDGET_PERIOD of a microsecond with no traffic held back, what the contexts moved counts from nothing again and nothing else changes. A BAR2 read of a legal span of DRAM whose cluster is up, whose lines are not poisoned and that no copy of a row range meets completes with the bytes of DRAM. A BAR2 write there, over
no poisoned line, is read back as written, and every other byte of DRAM, and every other part of the state, is unchanged. An access that a copy meets is held, the last of those held, and nothing else changes. DRAM is in canonical form. -/
def Obligations.DramIsShared : Prop :=
  (∀ (a : Nat) (m0 m1 m2 m3 w0 w1 w2 w3 : Nat), m0 + m1 + m2 + m3 ≤ a →
    ∃ g0 g1 g2 g3, grants a [m0, m1, m2, m3] [w0, w1, w2, w3] = [g0, g1, g2, g3] ∧
      min m0 w0 ≤ g0 ∧ min m1 w1 ≤ g1 ∧ min m2 w2 ≤ g2 ∧ min m3 w3 ≤ g3 ∧ g0 ≤ w0 ∧ g1 ≤ w1 ∧ g2 ≤ w2 ∧ g3 ≤ w3 ∧
      g0 + g1 + g2 + g3 ≤ a ∧ (g0 < w0 ∨ g1 < w1 ∨ g2 < w2 ∨ g3 < w3 → g0 + g1 + g2 + g3 = a)) ∧
  (∀ (s : State) (p : Fin 4) (ch : Fin 2) (w0 w1 w2 w3 aside : Nat) (short : Bool), s.clusterUp p = true →
    ∃ t, exec (.arbiterWindow p ch w0 w1 w2 w3 aside short) s = .next t ∧ t = { s with parts := t.parts, trc := t.trc } ∧
      t.parts[p].arb[ch].frameWin = s.parts[p].arb[ch].frameWin + 1 ∧
      t.parts[p].arb[ch].frameShort = s.parts[p].arb[ch].frameShort + (if short then 1 else 0) ∧
      t.parts[p] = { s.parts[p] with arb := t.parts[p].arb } ∧ ∀ q, q ≠ p → t.parts[q] = s.parts[q]) ∧
  (∀ s : State, s.now / 1000 ≠ s.period → (∀ b ∈ s.barges, b.owed = []) →
    (∀ r ∈ s.sched.runs, ∀ h ∈ r.shares, ∀ o ∈ h.ops, o.owed = none) →
    exec .budgetPeriod s = .next { s with used := [], period := s.now / 1000 }) ∧
  ∀ (s : State) (addr : Nat) (p : Fin 4) (a : Nat), spaceOf addr = .dram p a → s.clusterUp p = true →
    (∀ n, bar2Ok addr n = true → s.copying a n = false → s.poisoned a n = [] →
      ∃ t, exec (.bar2Read addr n) s = .next t ∧ t.pcie.bar2Data = s.dram.readBytes a n ∧ t.pcie.bar2Ep = false ∧
        t = { s with pcie := t.pcie }) ∧
    (∀ n, bar2Ok addr n = true → s.copying a n = true →
      exec (.bar2Read addr n) s = .next (s.modPart p (fun x => { x with held := x.held ++ [⟨a, false, n, []⟩] }))) ∧
    (∀ data : List Byte, bar2Ok addr data.length = true → s.copying a data.length = true →
      exec (.bar2Write addr data) s = .next (s.modPart p (fun x => { x with held := x.held ++ [⟨a, true, data.length, data⟩] }))) ∧
    ∀ data : List Byte, bar2Ok addr data.length = true → s.copying a data.length = false → (∀ l ∈ linesOf a data.length, l ∉ s.poison) → s.dram.wf = true →
      ∃ t, exec (.bar2Write addr data) s = .next t ∧ t = { s with dram := t.dram } ∧
        t.dram.readBytes a data.length = data ∧
        (∀ x, x < a ∨ a + data.length ≤ x → t.dram.read x = s.dram.read x) ∧ t.dram.wf = true

/-- In a partition p whose cluster is up: a corrected error below the limit is remembered with its row range, the one that reaches the limit clears the count and queues the range for a test; an uncorrectable error of a line not yet poisoned poisons it and queues its range. With firmware up, no retraining in progress and a spare at hand, the first queued range starts its test once the tick of its detection is over
(or no tick comes to the cluster: log entry 128); the copy's end begins the test and lets held accesses go, a pass begins the copy back, a fail keeps the spare and ends the test, the copy back's end frees the spare. A scrub step in its period moves 64 bytes on, modulo 8 GiB; a retraining that is due, with no other activity in the way, starts and notes the temperature, channel 0 before channel 1 where both are due, and its end stamps it.
A zero fill's end makes the region, none of which is being copied, read as zeros and replies to REGION_ALLOC. -/
def Obligations.DramErrorsAndRowRanges : Prop :=
  ∀ (s : State) (p : Fin 4), s.clusterUp p = true →
    (∀ addr a, spaceOf addr = .dram p a →
      let l := s.now :: ((assoc s.parts[p].ce (rowRange addr)).getD []).filter (fun t => s.now < t + 1000000000)
      (l.length < s.key .memCeLimit →
        ∃ t, exec (.dramCorrectableError addr) s = .next t ∧ t = { s with parts := t.parts } ∧ assoc t.parts[p].ce (rowRange addr) = some l) ∧
      (s.key .memCeLimit ≤ l.length → rowRange addr ∉ s.parts[p].queue → s.parts[p].test = none →
        ∃ t, exec (.dramCorrectableError addr) s = .next t ∧ t = { s with parts := t.parts } ∧
          assoc t.parts[p].ce (rowRange addr) = none ∧ t.parts[p].queue = s.parts[p].queue ++ [rowRange addr]) ∧
      ∀ reader, lineOf addr ∉ s.poison → ∃ t, exec (.dramUe addr reader) s = .next t ∧ t.poison = lineOf addr :: s.poison ∧
        t.dram = s.dram ∧ t.clusters = s.clusters ∧ (s.parts[p].test = none → rowRange (lineOf addr) ∈ t.parts[p].queue)) ∧
    (∀ base rest n, s.parts[p].queue = base :: rest → s.fwUp = true → s.parts[p].test = none →
      base ∈ s.parts[p].ready ∨ s.fed p = false → (assoc s.parts[p].kept base).or s.parts[p].freeSpare = some n →
      (∀ ch : Fin 2, s.parts[p].retrain[ch].state ≠ 1) →
      ∃ t, exec (.rowRangeTestStart p) s = .next t ∧ t.parts[p].test = some ⟨base, n, .copying⟩ ∧ t.parts[p].queue = rest ∧
        (n, base) ∈ t.parts[p].spares ∧ t.dram = s.dram) ∧
    (∀ x, s.parts[p].test = some x →
      (x.phase = .copying → ∃ t, exec (.rowRangeCopyDone p) s = .next t ∧ t.parts[p].test = some { x with phase := .testing } ∧
        t.parts[p].held = [] ∧ (s.parts[p].held = [] → t = { s with parts := t.parts })) ∧
      (x.phase = .testing → s.fwUp = true →
        (∃ t, exec (.rowRangeTestDone p true) s = .next t ∧ t = { s with parts := t.parts } ∧
          t.parts[p] = { s.parts[p] with test := some { x with phase := .copyBack } }) ∧
        ∃ t, exec (.rowRangeTestDone p false) s = .next t ∧ t.parts[p].test = none ∧ t.parts[p].spares = s.parts[p].spares) ∧
      (x.phase = .copyBack → s.fwUp = true → ∃ t, exec (.rowRangeCopyBackDone p) s = .next t ∧ t.parts[p].test = none ∧
        t.parts[p].spares = s.parts[p].spares.filter (fun e => decide (e ≠ (x.spare, x.base))))) ∧
    (s.parts[p].test = none → (∀ ch : Fin 2, s.parts[p].retrain[ch].state ≠ 1) →
      (s.parts[p].scrubState ≠ 2 → s.parts[p].scrub ≠ 0 ∨ s.parts[p].scrubDue ≤ s.now →
        let next := (s.parts[p].scrub + 64) % 0x200000000
        ∃ t, exec (.patrolScrubLine p) s = .next t ∧ t = { s with parts := t.parts } ∧
          t.parts[p] = { s.parts[p] with scrub := next, scrubState := if next = 0 then 0 else 1, scrubDue := t.parts[p].scrubDue } ∧
          t.parts[p].scrubDue =
            (if s.parts[p].scrub = 0 then s.now + s.key .memScrubHours * 3600000000000 else s.parts[p].scrubDue)) ∧
      (s.parts[p].testDue = false → s.parts[p].retrainNext = [] → ∀ temp : Int,
        (∀ ch : Fin 2, s.parts[p].retrain[ch].state = 0 → s.parts[p].retrain[ch].due s.now temp = true →
          (ch = 1 → s.parts[p].retrain[(0 : Fin 2)].due s.now temp = false) →
          ∃ t, exec (.channelRetrain ⟨p, temp⟩ ch) s = .next t ∧ t.dram = s.dram ∧
            t.parts[p].retrain[ch] = { s.parts[p].retrain[ch] with state := 1, temp := some temp }) ∧
        ((∀ ch : Fin 2, s.parts[p].retrain[ch].state = 0 ∧ s.parts[p].retrain[ch].due s.now temp = true) →
          ∃ t, exec (.channelRetrain ⟨p, temp⟩ 1) s = .next t ∧ t.parts[p].retrain[(0 : Fin 2)].state = 1 ∧
            t.parts[p].retrain[(1 : Fin 2)].state = 0 ∧ t.parts[p].retrainNext = [1]))) ∧
    (∀ ch : Fin 2, s.parts[p].retrain[ch].state = 1 → s.parts[p].retrainNext = [] → s.parts[p].testDue = false →
      (∀ e : Fin 2, e ≠ ch → s.parts[p].retrain[e].state = 0) →
      ∃ t, exec (.channelRetrainDone p ch) s = .next t ∧ t.dram = s.dram ∧
        t.parts[p].retrain[ch] = { s.parts[p].retrain[ch] with state := 0, last := s.now }) ∧
    ∀ (m : Fin 8) (x : InFlight) (k : Taken) (r : Region), s.mboxes[m].taken = some k → s.mboxes[m].flight = some x → k.command = 0x0412 →
      s.serving = true → Fin.ofNat 4 (x.args.getD 0 0) = p → s.parts[p].regions.find? (fun r => r.slot = x.args.getD 1 0) = some r →
      s.copying r.base r.len = false → s.dram.wf = true →
      ∃ t, exec (.regionZeroFillDone m) s = .next t ∧ s.replied t m (ok x.reply) ∧
        (∀ a, r.base ≤ a → a < r.base + r.len → t.dram.read a = 0) ∧
        (∀ a, a < r.base ∨ r.base + r.len ≤ a → t.dram.read a = s.dram.read a)

/-- With CONTROL powered: a post to a mailbox that is IDLE or DONE makes it POSTED, with the next place in the order of posts, and a withdrawal of one that is not BUSY makes it IDLE; nothing outside the mailboxes changes. Firmware takes the first post: with no kept reply, and its checks passed, the mailbox is BUSY, holds a copy of the command, context and payload and stands behind every other mailbox in the order of commands taken, and nothing else changes. A reply
leaves status, length, payload and rflags 0 in the page, state DONE, no command taken, and is kept with its request. -/
def Obligations.MailboxesCarryCommands : Prop :=
  (∀ (s : State) (m : Fin 8), s.on 3 = true → s.mboxes[m].page.wf = true →
    (s.mboxes[m].st = 0 ∨ s.mboxes[m].st = 3 → ∃ t, exec (.mailboxPost m) s = .next t ∧ t.mboxes[m].st = 1 ∧
      t.mboxes[m].posted = s.posts ∧ t.posts = s.posts + 1 ∧ t = { s with mboxes := t.mboxes, posts := t.posts } ∧
      ∀ k, k ≠ m → t.mboxes[k] = s.mboxes[k]) ∧
    (s.mboxes[m].st ≠ 2 → ∃ t, exec (.mailboxWithdraw m) s = .next t ∧ t.mboxes[m].st = 0 ∧ t = { s with mboxes := t.mboxes } ∧
      ∀ k, k ≠ m → t.mboxes[k] = s.mboxes[k])) ∧
  (∀ (s : State) (m : Fin 8), s.serving = true → s.firstPost = some m → s.mboxes[m].kept = none → s.mboxes[m].page.wf = true →
    let page := s.mboxes[m].page
    let t0 : Taken := ⟨page.le 0 2, page.le 6 1, page.readBytes 16 (min (page.le 4 2) 4080)⟩
    s.gate t0.command t0.context (page.le 4 2) t0.payload = none →
    let order := 1 + (s.mboxes.toList.map (·.order)).foldl max 0
    State.rejectedBusy (s.modMbox m (fun b => { b with page := b.page.putLe 7 1 2, taken := some t0, flight := none, order := order })) m t0 =
      false →
    ∃ t, exec .mailboxTake s = .next t ∧ t.mboxes[m].st = 2 ∧ t.mboxes[m].taken = some t0 ∧ t.mboxes[m].flight = none ∧
      (∀ k, k ≠ m → t.mboxes[k].order < t.mboxes[m].order) ∧
      t = { s with mboxes := t.mboxes } ∧ ∀ k, k ≠ m → t.mboxes[k] = s.mboxes[k]) ∧
  ∀ (s : State) (m : Fin 8) (r : Reply), s.mboxes[m].page.wf = true → r.payload.length ≤ 4080 → r.status < 65536 →
    let b := (s.reply m r).mboxes[m]
    b.st = 3 ∧ b.page.le 8 2 = r.status ∧ b.page.le 4 2 = r.payload.length ∧ b.page.read 10 = 0 ∧
    b.page.readBytes 16 r.payload.length = r.payload ∧ b.taken = none ∧ b.flight = none ∧
    b.kept = some (s.mboxes[m].page.readBytes 0 7 ++ (s.mboxes[m].taken.map (·.payload)).getD [], r.status, r.payload)

/-- SYS_INFO taken from a mailbox, while a firmware image runs, is answered with 48 bytes that begin with device state, power mode, index and slot, and apart from its mailbox and the interrupt nothing changes. A posted SYS_INFO of no payload that firmware has not taken for 500 µs gets the same reply from the supervisor. A
transaction with no command for 10 s and a working set equal to the committed one is dropped, and nothing else changes. -/
def Obligations.SystemInformation : Prop :=
  (∀ (s : State) (m : Fin 8) (ctx : Nat), s.holdsTaken m 0x0101 ctx [] → s.fw.slot ≠ 0xFF →
    ∃ r, Answers (.sysInfo m) s m r ∧ r.status = 0 ∧ r.payload.length = 48 ∧
      r.payload.take 4 = leBytes 1 s.dev.state.code ++ leBytes 1 s.pwr.mode ++ [s.dev.index] ++ [s.fw.slot]) ∧
  (∀ (s : State) (m : Fin 8), s.on 3 = true → s.dev.state ≠ .off → s.mboxes[m].st = 1 → s.mboxes[m].page.le 0 2 = 0x0101 →
    s.mboxes[m].page.le 4 2 = 0 → s.mboxes[m].postTime + 500000 ≤ s.now → s.fw.slot ≠ 0xFF →
    ∃ t r, exec (.sysInfoSupervisorReply m) s = .next t ∧ r.status = 0 ∧
      (s.modMbox m (fun b => { b with taken := some ⟨0x0101, b.page.le 6 1, []⟩, flight := none })).replied t m r ∧
      t = { s with mboxes := t.mboxes, glb := t.glb, pcie := t.pcie }) ∧
  ∀ (s : State) (w : KeySet) (t0 : Nat), s.cfg.txn = some (w, t0) → s.fwUp = true → t0 + 10000000000 ≤ s.now →
    KeySet.same w s.cfg.committed = true →
    exec .cfgTransactionAbandon s = .next { s with cfg := { s.cfg with txn := none } }

/-- For a command taken from mailbox m: CFG_BEGIN with no transaction open makes the committed keys the working set; CFG_SET whose records parse and are legal puts them in the working set, all of them; CFG_GET answers a key of the committed or the working set in the CFG_SET form; CFG_ABORT drops the transaction; CFG_COMMIT of a
working set whose checks pass, with the device not RUNNING or DEGRADED, makes it the committed one, ends the transaction and, out of CONFIG_HOLD, leaves the device READY; each is answered E_OK (or, for the latency of a video chain, W_LATENCY_BOUND). A working set that fails a check leaves the committed keys as they are, and the reply says which. -/
def Obligations.ConfigurationTransactions : Prop :=
  ∀ (s : State) (m : Fin 8) (ctx : Nat) (p : List Byte),
    let only (t : State) : Prop := t = { s with cfg := t.cfg, mboxes := t.mboxes, glb := t.glb, pcie := t.pcie }
    (s.holdsTaken m 0x0201 ctx p → s.cfg.txn = none →
      ∃ t, exec (.cfgBegin m) s = .next t ∧ s.replied t m (ok []) ∧ only t ∧
        t.cfg = { s.cfg with txn := some (s.cfg.committed, s.now) }) ∧
    (∀ w t0 l w', s.holdsTaken m 0x0202 ctx p → s.cfg.txn = some (w, t0) → 4 ≤ p.length → 1 ≤ field p 0 2 → field p 0 2 ≤ 64 →
      field p 2 2 = 0 → cfgRecords p (field p 0 2) 4 = .ok l → setRecords w l = .ok w' →
      ∃ t, exec (.cfgSet m) s = .next t ∧ s.replied t m (ok []) ∧ only t ∧ t.cfg = { s.cfg with txn := some (w', s.now) }) ∧
    (∀ k, s.holdsTaken m 0x0205 ctx p → field p 1 3 = 0 → Key.find ((p.drop 4).take 32) = some k →
      (field p 0 1 = 0 → Answers (.cfgGet m) s m (ok (cfgRecord k (s.key k)))) ∧
      ∀ w t0, field p 0 1 = 1 → s.cfg.txn = some (w, t0) → Answers (.cfgGet m) s m (ok (cfgRecord k (KeySet.get w k)))) ∧
    (∀ w t0, s.holdsTaken m 0x0204 ctx p → s.cfg.txn = some (w, t0) →
      ∃ t, exec (.cfgAbort m) s = .next t ∧ s.replied t m (ok []) ∧ only t ∧ t.cfg = { s.cfg with txn := none }) ∧
    ∀ w t0, s.holdsTaken m 0x0203 ctx p → s.cfg.txn = some (w, t0) →
      let src := if KeySet.get w .runTimetable = 0 then none
        else s.ttBytes (KeySet.get w .runTimetable / 0x100000000) (KeySet.get w .runTimetable % 0x100000000)
      (∀ r, s.commitCheck w (src.map (·.1)) false = some r →
        ∃ t, exec (.cfgCommit m) s = .next t ∧ s.replied t m r ∧ t.cfg = { s.cfg with txn := some (w, s.now) } ∧
          t.sched.running = false ∧ t.sched.committed = s.sched.committed) ∧
      (s.commitCheck w (src.map (·.1)) false = none → s.active = false →
        ∃ t st, exec (.cfgCommit m) s = .next t ∧ (st = 0 ∨ st = 0x4002) ∧ s.replied t m ⟨st, []⟩ ∧
          t.cfg = { s.cfg with committed := w, txn := none } ∧ t.sched.committed = src.map (fun x => ttOf x.1 x.2) ∧
          (s.dev.state = .configHold → t.dev.state = .ready) ∧ t.clusters = s.clusters ∧ t.dram = s.dram)

/-- For a command taken from mailbox m: RUN_START in READY with a committed timetable makes it the running one from now on, in RUNNING or DEGRADED; RUN_STOP with no run in progress, from RUNNING or DEGRADED, is answered at once and leaves READY; RUN_STAGE of a timetable that passes its checks stages it with its time, W_STAGE_REPLACED when one was staged; RUN_RESTORE of
a list of DEGRADE entries and tasks takes them off their alternate points, of no list every one; RUN_INFO of entry_id 0xFFFF answers the clusters' words, of an entry of the committed timetable what is kept for it, and changes nothing. -/
def Obligations.RunCommandsAnswer : Prop :=
  ∀ (s : State) (m : Fin 8) (ctx : Nat) (p : List Byte),
    (∀ tt, s.holdsTaken m 0x0401 ctx p → s.sched.committed = some tt → s.dev.state = .ready →
      ∃ t, exec (.runStart m) s = .next t ∧ s.replied t m (ok []) ∧ t.sched.running = true ∧ t.sched.tt = some tt ∧
        t.sched.staged = none ∧ t.sched.startStamp = s.now ∧ (t.dev.state = .running ∨ t.dev.state = .degraded) ∧
        (s.sched.tt = none ∨ s.sched.tt = some tt → t.clusters = s.clusters) ∧
        (∀ c : Fin 4, t.clusters[c] = { s.clusters[c] with stripe := t.clusters[c].stripe }) ∧ t.dram = s.dram ∧ t.cfg = s.cfg) ∧
    (s.holdsTaken m 0x0402 ctx p → s.active = true → s.sched.runs = [] → (∀ d : Fin 4, s.dsps[d].tasks = []) →
      (∀ k, k ≠ m → s.mboxes[k].flight = none) →
      ∃ t, exec (.runStop m) s = .next t ∧ t.mboxes[m] =
          (State.reply (s.fly m 0x0402 [] []) m (ok [])).mboxes[m] ∧
        t.sched.running = false ∧ t.dev.state = .ready ∧ t.clusters = s.clusters ∧ t.dram = s.dram) ∧
    (∀ q g l owner, s.holdsTaken m 0x0403 ctx p → field p 4 4 % 64 = 0 → s.region? (field p 0 4) = some (q, g) →
      s.on (clusterReach q) = true → field p 4 4 ≤ g.len → s.ttBytes (field p 0 4) (field p 4 4) = some (l, owner) →
      s.ttCheck s.cfg.committed l = none → s.delayChanges (ttOf l owner) = none →
      ∃ t, exec (.runStage m) s = .next t ∧ s.replied t m ⟨if s.sched.staged.isSome then 0x4001 else 0, []⟩ ∧
        t.sched = { s.sched with staged := some (ttOf l owner, s.now) } ∧
        t = { s with sched := t.sched, mboxes := t.mboxes, glb := t.glb, pcie := t.pcie }) ∧
    (let ids := ((p.drop 4).take (field p 0 2)).map (·.toNat)
     s.holdsTaken m 0x0404 ctx p → field p 0 2 ≤ 256 → field p 2 2 = 0 →
      (∀ i ∈ ids, s.degradeEntry i = true ∨ s.degradeTask i = true) →
      ∃ t, exec (.runRestore m) s = .next t ∧ s.replied t m (ok []) ∧
        t.sched.entries = s.sched.entries.map (fun e => if ids = [] ∨ e.id ∈ ids then { e with atAlt := false } else e) ∧
        t.sched.runs = s.sched.runs ∧ t.clusters = s.clusters ∧ t.dram = s.dram) ∧
    (s.holdsTaken m 0x0405 ctx p → field p 0 2 = 0xFFFF → field p 2 2 = 0 →
      Answers (.runInfo m) s m (ok (zeros 20 ++ s.runInfoTail))) ∧
    ∀ tt e, s.holdsTaken m 0x0405 ctx p → field p 0 2 ≠ 0xFFFF → field p 2 2 = 0 → s.sched.committed = some tt →
      tt.entries.find? (fun x => x.id = field p 0 2) = some e →
      Answers (.runInfo m) s m (ok (s.entryInfo e ++ s.runInfoTail))

/-- For a command of legal fields taken from mailbox m: CONTEXT_CREATE makes the lowest free context with the class, quota and budget given and answers its number; CONTEXT_DESTROY of one that owns nothing removes it; QUOTA_SET gives a context its quota and, at the next tick, its budget, with W_OVER_QUOTA and a context over its quota when it uses more; QUOTA_INFO answers use, quota, budget and flags
and changes nothing. -/
def Obligations.ContextsAndQuotas : Prop :=
  ∀ (s : State) (m : Fin 8) (ctx : Nat) (p : List Byte),
    let only (t : State) : Prop := t = { s with ctxs := t.ctxs, used := t.used, mboxes := t.mboxes, glb := t.glb, pcie := t.pcie }
    (∀ c, s.holdsTaken m 0x0410 ctx p → field p 0 1 < 4 → field p 1 3 = 0 → field p 4 4 ≤ 16384 → field p 8 4 ≤ 5460 →
      ((List.range 63).map (· + 1)).find? (fun c => !s.ctxExists c) = some c →
      ∃ t, exec (.contextCreate m) s = .next t ∧ s.replied t m (ok (leBytes 4 c)) ∧ only t ∧ t.used = s.used ∧
        assoc t.ctxs c = some ⟨field p 0 1, field p 4 4, field p 8 4, field p 8 4, none, false⟩ ∧
        ∀ d, d ≠ c → assoc t.ctxs d = assoc s.ctxs d) ∧
    (let c := field p 0 1
     s.holdsTaken m 0x0411 ctx p → 0 < c → c ≤ 63 → field p 1 3 = 0 → s.ctxExists c = true → s.ctxOwns c = false →
      ∃ t, exec (.contextDestroy m) s = .next t ∧ s.replied t m (ok []) ∧ only t ∧ assoc t.ctxs c = none ∧
        ∀ d, d ≠ c → assoc t.ctxs d = assoc s.ctxs d) ∧
    (∀ x, let c := field p 0 1
      s.holdsTaken m 0x0430 ctx p → 0 < c → c ≤ 63 → field p 1 3 = 0 → assoc s.ctxs c = some x → field p 4 4 ≤ 16384 →
      field p 8 4 ≤ 5460 →
      let new : Ctx := { x with
        quota := field p 4 4, budgetSet := field p 8 4,
        setStamp := if field p 8 4 = x.budgetSet then x.setStamp else some s.now }
      (field p 4 4 < s.use c → ∃ t, exec (.quotaSet m) s = .next t ∧ s.replied t m ⟨0x4003, []⟩ ∧ only t ∧
        assoc t.ctxs c = some { new with overQuota := true }) ∧
      (s.use c ≤ field p 4 4 → ∃ t, exec (.quotaSet m) s = .next t ∧ s.replied t m (ok []) ∧
        assoc t.ctxs c = some { new with overQuota := false } ∧ t.parts = s.parts ∧ t.dram = s.dram)) ∧
    (∀ x, let c := field p 0 1
      s.holdsTaken m 0x0431 ctx p → c ≤ 63 → field p 1 3 = 0 → assoc s.ctxs c = some x →
      Answers (.quotaInfo m) s m (ok (leBytes 4 (s.use c) ++ leBytes 4 x.quota ++ leBytes 4 x.budgetSet ++
        leBytes 4 (b2n x.overQuota + 2 * b2n x.setStamp.isSome))))

/-- For a command of legal fields taken from mailbox m by the owner: REGION_ALLOC that fits enters the region, its update in flight, and replies only when its zero fill is done; REGION_FREE of a region that is not in use and has no update in flight removes it; REGION_SET sets RETAIN, clears it, or clears STALE; REGION_INFO describes the region and changes nothing; RING_CREATE makes
the lowest free ring, empty, and answers its number; RING_DESTROY of a ring no other object names removes it, the other rings stay, and barges issued for it stay. -/
def Obligations.RegionsAndRings : Prop :=
  ∀ (s : State) (m : Fin 8) (ctx : Nat) (p : List Byte),
    (∀ (n : Fin 4) a i x, s.holdsTaken m 0x0412 ctx p → field p 0 1 = n.val → field p 1 1 < 2 → field p 2 2 = 0 →
      1 ≤ field p 4 4 → field p 4 4 ≤ 4096 → s.on (clusterReach n) = true → assoc s.ctxs ctx = some x → x.overQuota = false →
      s.use ctx + field p 4 4 ≤ x.quota → s.fit n (field p 4 4) = some a →
      (List.range 256).find? (fun i => !s.parts[n].regions.any (fun r => r.slot = i)) = some i →
      ∃ t r, exec (.regionAlloc m) s = .next t ∧ t.parts[n].regions = s.parts[n].regions ++ [r] ∧ r.slot = i ∧ r.base = a ∧
        r.blocks = field p 4 4 ∧ r.owner = ctx ∧ r.retain = bit (field p 1 1) 0 ∧ r.update = true ∧ r.stale = false ∧
        t.mboxes[m] = { s.mboxes[m] with
          flight := some ⟨0x0412, [n.val, i], leBytes 4 (r.handle n) ++ zeros 4 ++ leBytes 8 a⟩ } ∧
        t = { s with parts := t.parts, mboxes := t.mboxes }) ∧
    (∀ q r, let h := field p 0 4
      s.region? h = some (q, r) →
      let only (t : State) : Prop := t = { s with parts := t.parts, mboxes := t.mboxes, glb := t.glb, pcie := t.pcie }
      let marked (t : State) (r' : Region) : Prop := t.parts[q].regions = s.parts[q].regions.map (fun y => if y.slot = r.slot then
        { y with retain := if r'.retain = r.retain then y.retain else r'.retain,
                 stale := if r'.stale = r.stale then y.stale else r'.stale } else y)
      (s.holdsTaken m 0x0413 ctx p → r.owner = ctx → s.on (clusterReach q) = true → s.regionBusy h = false → s.regionUsed h = false →
        ∃ t, exec (.regionFree m) s = .next t ∧ s.replied t m (ok []) ∧
          t.parts[q].regions = s.parts[q].regions.filter (fun y => y.slot ≠ r.slot) ∧ t.dram = s.dram) ∧
      (s.holdsTaken m 0x0414 ctx p → r.owner = ctx → field p 5 3 = 0 → s.regionBusy h = false →
        (field p 4 1 = 1 → ∃ t, exec (.regionSetRetain m) s = .next t ∧ s.replied t m (ok []) ∧ only t ∧
          marked t { r with retain := true }) ∧
        (field p 4 1 = 2 → s.regionUsed h = false → ∃ t, exec (.regionClearRetain m) s = .next t ∧ s.replied t m (ok []) ∧ only t ∧
          marked t { r with retain := false }) ∧
        (field p 4 1 = 3 → ∃ t, exec (.regionClearStale m) s = .next t ∧ s.replied t m (ok []) ∧ only t ∧
          marked t { r with stale := false })) ∧
      (s.holdsTaken m 0x0415 ctx p → Answers (.regionInfo m) s m (ok (leBytes 8 r.base ++ leBytes 4 r.blocks ++ leBytes 1 r.owner ++
        leBytes 1 (b2n r.retain + 2 * b2n r.stale + 4 * b2n (s.updateInFlight m h)) ++ zeros 10)))) ∧
    (∀ r, let kind := field p 0 1
      s.holdsTaken m 0x0420 ctx p → (kind = 2 ∨ kind = 3) → 4 ≤ field p 1 1 → field p 1 1 ≤ 16 → (field p 2 1 ≤ 63 ∨ field p 2 1 = 0xFF) →
      field p 3 1 = 0 → field p 4 2 = 0 → field p 6 2 = 0 → field p 8 8 % 4096 = 0 →
      (kind = 3 → ∀ e ∈ s.rings, ¬ (e.2.kind = 3 ∧ e.2.ctx = ctx)) → (List.range 512).find? (fun r => (s.ring? r).isNone) = some r →
      ∃ t g, exec (.ringCreate m) s = .next t ∧ s.replied t m (ok (leBytes 4 r)) ∧ assoc t.rings r = some g ∧ g.kind = kind ∧
        g.n = field p 1 1 ∧ g.vector = field p 2 1 ∧ g.base = field p 8 8 ∧ g.ctx = ctx ∧ g.host = 0 ∧ g.dev = 0 ∧
        t = { s with rings := t.rings, mboxes := t.mboxes, glb := t.glb, pcie := t.pcie } ∧
        ∀ q, q ≠ r → assoc t.rings q = assoc s.rings q) ∧
    ∀ g, let r := field p 0 4
      s.holdsTaken m 0x0421 ctx p → s.ring? r = some g → g.ctx = ctx → s.streamRing r = false →
      (∀ e ∈ s.rings, ¬ (e.2.kind = 1 ∧ e.2.pair = r)) →
      ∃ t, exec (.ringDestroy m) s = .next t ∧ s.replied t m (ok []) ∧ t.ring? r = none ∧
        (∀ q g', q ≠ r → assoc s.rings q = some g' → g'.kind ≠ 0 → assoc t.rings q = some g') ∧
        (∀ b ∈ t.barges, ∃ b0 ∈ s.barges, b = { b0 with by_ := b.by_ }) ∧ t.barges.length = s.barges.length ∧
        t = { s with
          rings := t.rings, barges := t.barges, img := { s.img with tx := t.img.tx }, mboxes := t.mboxes, glb := t.glb, pcie := t.pcie }

/-- For a command of legal fields taken from mailbox m: CARGO_LOAD of an image that passes every check, from a RETAIN region of its context, adds a cargo under the lowest free handle, with its clip slots on every cluster named, and answers it, DRAM unchanged; CARGO_UNLOAD of a cargo of its own that nothing names removes it with its clip slots and adapters, every memory unchanged; CARGO_INFO describes
it and changes nothing; CARGO_CEILING of slots that are not linked, with no step in progress or waiting for its evaluation, puts the ceiling in force on every cluster named, as after a restore, and on no other. -/
def Obligations.CargosAreLoadedAndDescribed : Prop :=
  ∀ (s : State) (m : Fin 8) (ctx : Nat) (p : List Byte),
    (∀ q r h, let off := field p 4 4
      let len := field p 8 4
      let cl := (List.finRange 4).filter (fun c => bit (field p 12 1) c.val)
      let rd : Rd := fun o n => s.dram.readBytes (r.base + off + o) n
      let hd := CargoHdr.read rd
      s.holdsTaken m 0x0301 ctx p → off % 64 = 0 → 1 ≤ field p 12 1 → field p 12 1 ≤ 15 → field p 13 3 = 0 →
      s.region? (field p 0 4) = some (q, r) → r.owner = ctx → r.retain = true → s.on (clusterReach q) = true →
      s.regionBusy (field p 0 4) = false → off + len ≤ r.len → s.poisoned (r.base + off) len = [] →
      CargoHdr.format rd len = none →
      cargoDesc rd hd cl s.inRegions (fun c => (s.cargos.filter (fun g => c ∈ g.clusters)).flatMap (·.prot)) = none →
      s.residentBad hd cl = false → (∀ i, i < hd.points → s.adaptBad (pointOf rd hd i) cl = false) →
      setForeign rd (cargoSets hd (cargoReach rd hd)) (s.inRetain ctx) = none →
      (∀ g ∈ s.cargos, ∀ c ∈ g.clusters, c ∈ cl → overlap hd.lockFirst hd.lockN g.lockFirst g.lockInit.length = false) →
      s.cargos.length < 64 → (∀ c ∈ cl, s.clusters[c].slots.length + hd.slots ≤ 512) →
      (List.range 255).find? (fun i => (s.cargo? i).isNone) = some h →
      ∃ t g, exec (.cargoLoad m) s = .next t ∧ s.replied t m (ok (leBytes 1 h ++ zeros 3)) ∧ t.cargos = s.cargos ++ [g] ∧
        g.handle = h ∧ g.owner = ctx ∧ g.region = field p 0 4 ∧ g.base = r.base + off ∧ g.clusters = cl ∧ g.slots = hd.slots ∧
        t.dram = s.dram ∧ t.host = s.host ∧ t.cfg = s.cfg ∧
        (∀ c ∈ cl, t.clusters[c].slots = s.clusters[c].slots ++ cargoSlots rd hd h (s.freeSlots c hd.slots)) ∧
        ∀ c, c ∉ cl → t.clusters[c].mem = s.clusters[c].mem ∧ t.clusters[c].slots = s.clusters[c].slots) ∧
    (let c := field p 0 1
     ∀ g, s.cargo? c = some g →
      (s.holdsTaken m 0x0302 ctx p → field p 1 3 = 0 → g.owner = ctx → (s.cargoRegions g).any s.regionBusy = false → s.cargoUsed c = false →
        ∃ t, exec (.cargoUnload m) s = .next t ∧ s.replied t m (ok []) ∧ t.cargo? c = none ∧
          t.cargos = s.cargos.filter (fun g => g.handle ≠ c) ∧ t.adapters = s.adapters.filter (fun a => a.cargo ≠ c) ∧
          t = { s with
            cargos := t.cargos, adapters := t.adapters, clusters := t.clusters, mboxes := t.mboxes, glb := t.glb, pcie := t.pcie } ∧
          ∀ k : Fin 4, t.clusters[k] = { s.clusters[k] with
            slots := s.clusters[k].slots.filter (fun x => x.cargo ≠ c),
            reloads := s.clusters[k].reloads.filter (fun x => x.1 ≠ c) }) ∧
      (s.holdsTaken m 0x0303 ctx p → field p 1 3 = 0 →
        Answers (.cargoInfo m) s m (ok (leBytes 1 ((g.clusters.map (fun k => 2 ^ k.val)).sum) ++ leBytes 1 g.points.length ++
          leBytes 2 g.videoL ++ leBytes 2 g.videoS ++ leBytes 1 g.audioA ++ [0] ++ leBytes 2 g.slots ++
          leBytes 2 g.lockInit.length ++ leBytes 4 g.lockFirst ++
          g.points.flatMap (fun x => leBytes 4 x.headerOff ++ leBytes 4 x.budget4 ++ leBytes 4 x.budget3 ++
            leBytes 4 (b2n x.alt))))) ∧
      let v := field p 4 4
      let slot := field p 2 2
      s.holdsTaken m 0x0304 ctx p → g.owner = ctx → 1 ≤ field p 1 1 → field p 1 1 ≤ 15 → slot < g.slots →
      (posNormal v = true ∨ v = 0x7F800000) →
      (∀ k : Fin 4, bit (field p 1 1) k.val = true → k ∈ g.clusters ∧ s.clusterUp k = true ∧
        ∃ x, s.slot? k c slot = some x ∧ x.linked = false ∧ x.live = []) →
      ∃ t, exec (.cargoCeiling m) s = .next t ∧ s.replied t m (ok []) ∧ t.dram = s.dram ∧
        ∀ k : Fin 4, t.clusters[k].mem = s.clusters[k].mem ∧
          (bit (field p 1 1) k.val = true → ∃ y, t.slot? k c slot = some y ∧ y.ceiling = BitVec.ofNat 32 v ∧
            y.cCal = BitVec.ofNat 32 v ∧ y.inFallback = false ∧ y.streak = 0) ∧
          (bit (field p 1 1) k.val = false → t.clusters[k].slots = s.clusters[k].slots))

/-- For a command of legal fields taken from mailbox m: AUD_PORT_START of configured, idle ports of one domain leaves them due to start after the time given, with their committed keys, starts the domain's APLL where no port used it, and stays BUSY; AUD_PORT_STOP of running ports marks them and stays BUSY; AUD_PORT_RESTART of running slaves is answered at once
and starts their restarts; AUD_CHAN_SET of slots the port has enters one change for each, with its gain and mute, and the gains in force stay. No other port changes. -/
def Obligations.AudioPortsAreCommanded : Prop :=
  ∀ (s : State) (m : Fin 8) (ctx : Nat) (p : List Byte),
    let mask := field p 0 1
    let others (t : State) : Prop := (∀ n : Fin 5, bit mask n.val = false → t.aud.port[n] = s.aud.port[n]) ∧ t.dram = s.dram ∧
      t.clusters = s.clusters ∧ t.sched = s.sched ∧ t.cfg = s.cfg
    (s.holdsTaken m 0x0601 ctx p → 1 ≤ mask → mask ≤ 0x1F → field p 1 7 = 0 →
      (∀ n : Fin 5, bit mask n.val = true → s.aud.port[n].live = false ∧ ((s.portCfg n).inMask ≠ 0 ∨ (s.portCfg n).outMask ≠ 0) ∧
        ∀ k : Fin 5, bit mask k.val = true → (s.portCfg k).apll = (s.portCfg n).apll) →
      ∃ t, exec (.audPortStart m) s = .next t ∧ others t ∧ t.mboxes[m] = { s.mboxes[m] with flight := some ⟨1, [mask], []⟩ } ∧
        ∀ n : Fin 5, bit mask n.val = true → t.aud.port[n].startAfter = some (field p 8 8) ∧ t.aud.port[n].running = false ∧
          t.aud.port[n].cfg = s.portCfg n ∧ t.aud.port[n].gainIn = List.replicate 32 0x1000 ∧
          ∀ a : Fin 2, (s.portCfg n).apll = a.val → (∀ k : Fin 5, s.aud.port[k].live = true → s.aud.port[k].cfg.apll ≠ a.val) →
            t.aud.apll[a].started = true ∧ t.aud.apll[a].w = 0 ∧ t.aud.apll[a].integ = 0 ∧ t.aud.apll[a].locked = false) ∧
    (s.holdsTaken m 0x0602 ctx p → 1 ≤ mask → mask ≤ 0x1F → field p 1 7 = 0 →
      (∀ n : Fin 5, bit mask n.val = true → s.aud.port[n].running = true) →
      ∃ t, exec (.audPortStop m) s = .next t ∧ others t ∧ t.mboxes[m] = { s.mboxes[m] with flight := some ⟨1, [mask], []⟩ } ∧
        ∀ n : Fin 5, bit mask n.val = true → t.aud.port[n] = { s.aud.port[n] with stopping := true }) ∧
    (s.holdsTaken m 0x0603 ctx p → mask ≤ 0x1F → field p 1 7 = 0 →
      (∀ n : Fin 5, bit mask n.val = true → s.aud.port[n].running = true ∧ s.aud.port[n].cfg.slave = true) →
      ∃ t, exec (.audPortRestart m) s = .next t ∧ s.replied t m (ok []) ∧ others t ∧
        ∀ n : Fin 5, bit mask n.val = true → t.aud.port[n] = { s.aud.port[n] with
          restart := if s.aud.port[n].restart = 0 then 1 else s.aud.port[n].restart }) ∧
    ∀ n : Fin 5, let out := decide (field p 1 1 = 1)
      let own := if out then s.aud.port[n].cfg.outMask else s.aud.port[n].cfg.inMask
      s.holdsTaken m 0x0604 ctx p → field p 0 1 = n.val → field p 1 1 ≤ 1 → (n ≠ 4 ∨ out = false) → field p 2 2 = 0 →
      (∀ i, i < (maskSlots (field p 4 4)).length → field p (10 + 4 * i) 1 ≤ 1 ∧ field p (11 + 4 * i) 1 = 0) →
      (∀ k ∈ maskSlots (field p 4 4), bit own k = true) →
      ∃ t st, exec (.audChanSet m) s = .next t ∧ (st = 0 ∨ st = 0x4004) ∧ s.replied t m ⟨st, []⟩ ∧
        t.aud.port[n] = { s.aud.port[n] with pend := t.aud.port[n].pend } ∧
        (∀ k, k ≠ n → t.aud.port[k] = s.aud.port[k]) ∧ t.aud.apll = s.aud.apll ∧ t.dram = s.dram ∧ t.clusters = s.clusters ∧
        ∀ i k, (maskSlots (field p 4 4))[i]? = some k → ∃ z ∈ t.aud.port[n].pend, z.out = out ∧
          z.pos = ((maskSlots own).filter (fun j => j < k)).length ∧ z.gain = field p (8 + 4 * i) 2 ∧
          z.mute = decide (field p (10 + 4 * i) 1 = 1)

/-- For a running TDM port with AUDIO powered: an external FS edge stamps the frame; at the first after a lost clock the clock is back, a restart waits, and AUD_CLOCK_OK is reported; an input slot of a master is held with its time, that of a slave joins its input buffer while that is not full; an output slot not of the port carries 0 or, with HIZ, is high impedance; one of a master carries the word its FIFO took for that slot, one of a slave in order
the oldest word, and inserts a zero and counts a slip when there is none; four frames without a bit clock empty its buffers and are reported. ZC_TIMEOUT makes the overdue changes unconditional. Each changes that port alone among the ports. -/
def Obligations.TdmPortsCarryWords : Prop :=
  (∀ (s : State) (n : Fin 4) (i : Fin 5), i.val = n.val → s.on 2 = true → s.aud.port[i].running = true →
    let p := s.aud.port[i]
    let only (t : State) : Prop := (∀ k, k ≠ i → t.aud.port[k] = s.aud.port[k]) ∧ t.dram = s.dram ∧ t.clusters = s.clusters ∧
      t.sched = s.sched ∧ t.mboxes = s.mboxes
    (p.cfg.slave = true → p.noClock = false → ∃ t, exec (.tdmFsEdge n) s = .next t ∧ only t ∧
      t.aud.port[i] = { p with lastFs := s.now, restart := if p.restart = 2 then 3 else p.restart }) ∧
    (p.cfg.slave = true → p.noClock = true → ∃ t, exec (.tdmFsEdge n) s = .next t ∧ only t ∧
      t.aud.port[i] = { p with noClock := false, restart := 1, silent := true, lastFs := s.now } ∧
      s.reports t 0x0503 0 (0x10 + n.val) false (leBytes 1 n.val)) ∧
    (∀ (slot : Fin 32) (w : W32), bit p.cfg.inMask slot.val = true →
      (p.cfg.slave = false → p.inBuf.length = p.cfg.eIn → ∃ t, exec (.tdmSlotReceived n slot w) s = .next t ∧ only t ∧
        t.aud.port[i] = { p with
          inBuf := setAt p.inBuf ((maskSlots p.cfg.inMask).filter (fun x => x < slot.val)).length (w, s.now) }) ∧
      (p.cfg.slave = true → p.noClock = false → p.restart = 0 → p.inBuf.length < 8 * p.cfg.eIn →
        ∃ t, exec (.tdmSlotReceived n slot w) s = .next t ∧ only t ∧
          t.aud.port[i] = { p with inBuf := p.inBuf ++ [(w, p.lastFs)] })) ∧
    (∀ slot : Fin 32,
      (bit p.cfg.outMask slot.val = false → ∃ t, exec (.tdmOutputSlotDue n slot) s = .next t ∧ only t ∧
        t.aud.port[i] = { p with lastOut := setAt p.lastOut slot.val (if p.cfg.hiz then none else some 0) }) ∧
      (bit p.cfg.outMask slot.val = true → p.cfg.slave = false → s.active = true → p.outBuf.length = 4 * p.cfg.eOut →
        ∃ t, exec (.tdmOutputSlotDue n slot) s = .next t ∧ only t ∧ t.aud.port[i] = { p with
          lastOut := setAt p.lastOut slot.val
            (some (p.outBuf.getD ((maskSlots p.cfg.outMask).filter (fun x => x < slot.val)).length 0)) }) ∧
      (bit p.cfg.outMask slot.val = true → p.cfg.slave = true → p.quiet = false → s.active = true →
        (∀ w rest, p.outBuf = w :: rest → ∃ t, exec (.tdmOutputSlotDue n slot) s = .next t ∧ only t ∧
          t.aud.port[i] = { p with outBuf := rest, lastOut := setAt p.lastOut slot.val (some w) }) ∧
        (p.outBuf = [] → ∃ t, exec (.tdmOutputSlotDue n slot) s = .next t ∧ only t ∧ t.aud.port[i].outSlips = p.outSlips + 1 ∧
          t.aud.port[i].lastOut = setAt p.lastOut slot.val (some 0) ∧ t.aud.port[i].err.getLsbD 1 = true ∧ t.aud.port[i].cfg = p.cfg))) ∧
    (p.cfg.slave = true → p.noClock = false →
      p.lastFs * (s.aud.apll[Fin.ofNat 2 p.cfg.apll]).fs + 4000000000 ≤ s.now * (s.aud.apll[Fin.ofNat 2 p.cfg.apll]).fs →
      ∃ t, exec (.tdmClockLost n) s = .next t ∧ only t ∧ t.aud.port[i].noClock = true ∧ t.aud.port[i].inBuf = [] ∧
        t.aud.port[i].outBuf = [] ∧ t.aud.port[i].err.getLsbD 2 = true ∧
        s.reports t 0x0502 0 (0x10 + n.val) false (leBytes 1 n.val))) ∧
  ∀ (s : State) (n : Fin 5), ∃ t, exec (.zcTimeout n) s = .next t ∧ t = { s with aud := { s.aud with port := t.aud.port } } ∧
    (∀ k, k ≠ n → t.aud.port[k] = s.aud.port[k]) ∧
    t.aud.port[n] = { s.aud.port[n] with
      pend := s.aud.port[n].pend.map (fun (z : ZcPend) => if z.deadline ≤ s.now then { z with forced := true } else z) }

/-- With AUDIO powered and the APLL started: a strobe in FREE mode of a domain with no running port, that waits for no PDM frame boundary, counts, gives WCLK its rising edge where the APLL drives it, and starts the ports of the domain whose time has come; a WCLK edge is stamped, and begins the count anew after a loss; a reference lost unlocks the loop, which holds w and integ. With LISTEN powered and the PDM clocks on, a frame of a running group whose
block is not full adds one frame to it; a ramp's end, the clock start 1 ms later, an over-current (VAUX off, fault set, reported) and the clearing of its fault each do that and change nothing outside audio but what reports it. -/
def Obligations.AudioClocksTickAndLock : Prop :=
  (∀ (s : State) (m : Fin 2), s.on 2 = true → s.aud.apll[m].started = true →
    let a := s.aud.apll[m]
    (a.mode = 0 → s.audQuiescing = false → (∀ n : Fin 5, s.aud.port[n].running = false) → s.strobeWaits m = false → s.noStop →
      ∃ t, exec (.apllStrobe m) s = .next t ∧
        t.aud.apll[m] = { a with strobes := a.strobes + 1, align := false, wclkRise := if a.drives then some s.now else none } ∧
        (∀ k, k ≠ m → t.aud.apll[k] = s.aud.apll[k]) ∧ t.dram = s.dram ∧ t.clusters = s.clusters ∧
        ∀ n : Fin 5, (n.val < 4 → s.aud.port[n].cfg.apll = m.val → ∀ u, s.aud.port[n].startAfter = some u → u < s.now →
            t.aud.port[n].running = true ∧ t.aud.port[n].cfg = s.aud.port[n].cfg) ∧
          ((n.val = 4 ∨ s.aud.port[n].cfg.apll ≠ m.val) → t.aud.port[n] = s.aud.port[n])) ∧
    (a.mode = 2 → a.unpaired = [] → ∃ t, exec (.wclkEdge m) s = .next t ∧ t = { s with aud := t.aud } ∧
      t.aud.port = s.aud.port ∧ (∀ k, k ≠ m → t.aud.apll[k] = s.aud.apll[k]) ∧
      t.aud.apll[m] = { a with
        lastEdge := s.now, refLost := false, edges := if a.refLost then [s.now] else a.edges ++ [s.now] }) ∧
    (a.refLost = false → s.refGone m = true → ∃ t, exec (.apllRefLost m) s = .next t ∧ t = { s with aud := t.aud } ∧
      t.aud.port = s.aud.port ∧ t.aud.apll[m].refLost = true ∧ t.aud.apll[m].locked = false ∧ t.aud.apll[m].w = a.w ∧
      t.aud.apll[m].integ = a.integ ∧ ∀ k, k ≠ m → t.aud.apll[k] = s.aud.apll[k])) ∧
  (∀ (s : State) (xs : List (BitVec 24)), s.pdmRuns = true → s.aud.port[(4 : Fin 5)].running = true →
    s.aud.port[(4 : Fin 5)].inBlk.frame + 1 < s.aud.port[(4 : Fin 5)].cfg.block →
    ∃ t, exec (.pdmFrame xs) s = .next t ∧ t.aud.port[(4 : Fin 5)].inBlk.frame = s.aud.port[(4 : Fin 5)].inBlk.frame + 1 ∧
      (∀ n : Fin 5, n ≠ 4 → t.aud.port[n] = s.aud.port[n]) ∧ t = { s with aud := t.aud, glb := t.glb, pcie := t.pcie }) ∧
  ∀ s : State, s.on 1 = true →
    let v := s.aud.vaux
    let only (t : State) : Prop := t = { s with aud := { s.aud with vaux := t.aud.vaux, pdmClk := t.aud.pdmClk }, glb := t.glb, pcie := t.pcie }
    (v.ramping = true → ∃ t, exec .vauxRampDone s = .next t ∧ only t ∧ t.aud.pdmClk = s.aud.pdmClk ∧
      t.aud.vaux = { v with ramping := false, on := true, rampDone := some s.now }) ∧
    (∀ u, s.aud.pdmClk = false → v.rampDone = some u → u + 1000000 ≤ s.now →
      ∃ t, exec .pdmClockStart s = .next t ∧ only t ∧ t.aud.pdmClk = true ∧ t.aud.vaux = v) ∧
    (v.enabled = true → v.fault = false → ∃ t, exec .vauxOvercurrent s = .next t ∧ t.aud.vaux.on = false ∧
      t.aud.vaux.fault = true ∧ t.aud.port = s.aud.port ∧ t.dram = s.dram ∧ t.clusters = s.clusters ∧
      s.reports t 0x0506 0 0xFF true []) ∧
    (v.fault = true → ∃ t, exec .vauxFaultClear s = .next t ∧ only t ∧ t.aud.pdmClk = s.aud.pdmClk ∧
      t.aud.vaux = { v with fault := false, ramping := v.enabled })

/-- For a session of stage n whose cluster is up, that holds its credit and whose next record is in the ring: REPLAY_SLOT_WRITE moves the session to the record after it and one slot on, its credit used, and puts the record's samples 64 bytes into its slot, within cluster memory in canonical form. Beyond 100 ms without a credit, or beyond the session's limit, the session ends
with CASCADE_ABANDONED and its reason; the other stage stays as it is. -/
def Obligations.CascadeSessionsAdvanceAndEnd : Prop :=
  ∀ (s : State) (n : Fin 2) (x : Session), s.casc.stage[n].session = some x →
    (∀ r, let c := s.stageCluster n
      let off := s.key (.stage n .replay) + 64 + x.slot % s.key (.stage n .depth) * s.replayStride
      s.casc.ring.find? (fun r => r.seq = x.next) = some r → s.stageUp n = true → s.pwr.level < 2 → x.waiting = false →
      x.credit = true → s.clusters[c].mem.wf = true →
      ∃ t, exec (.replaySlotWrite n) s = .next t ∧ t = { s with casc := t.casc, clusters := t.clusters } ∧
        t.casc.stage[n].session = some { x with next := r.seq + 1, slot := x.slot + 1, credit := false, since := none } ∧
        t.clusters[c].mem.readBytes (off + 64) r.data.length = r.data ∧
        (∀ a, a < off → t.clusters[c].mem.read a = s.clusters[c].mem.read a) ∧
        (∀ d, d ≠ c → t.clusters[d].mem = s.clusters[d].mem) ∧ ∀ k, k ≠ n → t.casc.stage[k] = s.casc.stage[k]) ∧
    (∀ u, x.since = some u → u + 100000000 < s.now →
      ∃ t, exec (.cascadeCreditTimeout n) s = .next t ∧ t.casc.stage[n].session = none ∧ t.dram = s.dram ∧
        s.reports t 0x0804 0 0xFF false (leBytes 1 (n.val + 2) ++ w32 x.num ++ leBytes 1 2)) ∧
    (x.mark + s.key (.stage n .limit) * 1000000000 < s.now →
      ∃ t, exec (.cascadeSessionLimit n) s = .next t ∧ t.casc.stage[n].session = none ∧ t.dram = s.dram ∧
        s.reports t 0x0804 0 0xFF false (leBytes 1 (n.val + 2) ++ w32 x.num ++ leBytes 1 1))

/-- On a receiver n whose PHY is on: a line marker and embedded data with a sound header set lock and nothing else, with a header corrected on the configured channel also their error bit; any packet of another virtual channel sets lock alone. In RUNNING or DEGRADED, on the configured channel: a Frame Start with no frame in progress opens the next frame, with its stamp; a Frame End after the last row closes it; an early one sets the generation of the missing rows
and FRAME_SHORT; a long packet of the configured type that ends no row-group counts a row as good, one with a CRC error as replaced, of another type as no row; a header error sets its bit. -/
def Obligations.SensorPacketsAreTaken : Prop :=
  ∀ (s : State) (n : Fin 2) (vc : BitVec 4), s.rxOn n = true → s.noStop →
    let x := s.img.rx[n]
    let lit (t : State) : Prop := t = s.burst n
    let kept (t : State) : Prop := t.dram = s.dram ∧ t.mboxes = s.mboxes ∧ t.img.tx = s.img.tx ∧ t.img.trig = s.img.trig ∧
      (∀ k, k ≠ n → t.img.rx[k] = s.img.rx[k]) ∧ t.img.rx[n].cfg = x.cfg ∧ t.img.rx[n].lock = true ∧ t.img.rx[n].lastBurst = s.now
    (∃ t, exec (.csiLineMarker n ⟨vc, false⟩) s = .next t ∧ lit t) ∧ (∃ t, exec (.csiEmbeddedData n ⟨vc, false⟩) s = .next t ∧ lit t) ∧
    (s.active = true → vc.toNat = x.cfg.vc → ∀ c, c = .csiLineMarker n ⟨vc, true⟩ ∨ c = .csiEmbeddedData n ⟨vc, true⟩ →
      ∃ t, exec c s = .next t ∧ kept t ∧ t.img.rx[n].err = x.err ||| 1 ∧ t.img.rx[n].row = x.row ∧ t.clusters = s.clusters ∧
        t.sched = s.sched) ∧
    (vc.toNat ≠ x.cfg.vc ∨ s.active = false → ∀ dt crc px,
      (∃ t, exec (.csiFrameStart n vc false) s = .next t ∧ lit t) ∧ (∃ t, exec (.csiFrameEnd n vc false) s = .next t ∧ lit t) ∧
      ∃ t, exec (.csiLongPacket n vc dt false crc px) s = .next t ∧ lit t) ∧
    (s.active = true → vc.toNat = x.cfg.vc →
      (x.inFrame = false → ∃ t, exec (.csiFrameStart n vc false) s = .next t ∧ kept t ∧ t.clusters = s.clusters ∧
        t.sched = s.sched ∧ t.img.rx[n].inFrame = true ∧ t.img.rx[n].row = 0 ∧ t.img.rx[n].sof = s.dev.systime ∧
        t.img.rx[n].frame = (if x.seen then x.frame + 1 else 0) ∧ t.img.rx[n].tables = x.tablesNext.getD x.tables ∧
        t.img.rx[n].black = x.blackNext.getD x.black) ∧
      (x.inFrame = true → x.ended = false →
        (x.cfg.height ≤ x.row → ∃ t, exec (.csiFrameEnd n vc false) s = .next t ∧ kept t ∧ t.clusters = s.clusters ∧
          t.img.rx[n].inFrame = false ∧ t.img.rx[n].row = x.row) ∧
        (∀ f l, x.row < x.cfg.height → s.img.frames[n] = f :: l →
          ∃ t, exec (.csiFrameEnd n vc false) s = .next t ∧ kept t ∧ t.clusters = s.clusters ∧ t.img.rx[n].ended = true ∧
            t.img.rx[n].err.getLsbD 4 = true ∧ t.img.rx[n].gen.isSome = true ∧ t.img.frames[n] = { f with short := true } :: l) ∧
        ∀ (f : FrameRec) l (px : List W16), let y := x.row / x.cfg.perRow + 1
          let row (t : State) (f' : FrameRec) : Prop := kept t ∧ t.img.rx[n].row = x.row + 1 ∧ t.img.frames[n] = f' :: l ∧
            t.sched = { s.sched with src := t.sched.src }
          s.img.frames[n] = f :: l → x.row < x.cfg.height → y % s.rowsPer n ≠ 0 → y ≠ x.cfg.planeH →
          (px.length = x.cfg.width → ∃ t, exec (.csiLongPacket n vc (BitVec.ofNat 8 x.cfg.dt) false true px) s = .next t ∧
            (x.cfg.dt < 256 → row t { f with good := f.good + 1 })) ∧
          (x.cfg.dt < 256 → ∃ t, exec (.csiLongPacket n vc (BitVec.ofNat 8 x.cfg.dt) false false px) s = .next t ∧
            row t { f with replaced := f.replaced + 1 } ∧ t.img.rx[n].err.getLsbD 2 = true ∧ t.img.rx[n].crcCnt = x.crcCnt + 1)) ∧
      (∀ (dt : Byte) px, dt.toNat ≠ x.cfg.dt → ∃ t, exec (.csiLongPacket n vc dt false true px) s = .next t ∧ kept t ∧
        t.img.rx[n].err.getLsbD 3 = true ∧ t.img.rx[n].row = x.row ∧ t.clusters = s.clusters)) ∧
    (s.active = true → ∃ t, exec (.headerUncorrectableError n false) s = .next t ∧ kept t ∧ t.img.rx[n].err.getLsbD 1 = true ∧
      t.img.rx[n].row = x.row ∧ t.clusters = s.clusters ∧ t.sched = s.sched)

/-- With IMAGING powered: in RUNNING or DEGRADED a due generated row that ends no row-group is a replaced row, and the next is due one line period later; a row held for a cluster that is up goes to its slot once that is free; no burst for a frame's time loses lock; a trigger goes active at its pulse's start and back at its end; reading the low word of the reference
time latches the high word. Each leaves the rest of the front end as it is. -/
def Obligations.RowsTriggersAndLock : Prop :=
  (∀ (s : State) (n : Fin 2), s.rxOn n = true → s.noStop →
    let x := s.img.rx[n]
    (∀ u f l, let y := x.row / x.cfg.perRow + 1
      x.gen = some u → s.active = true → u ≤ s.now * 1000 → s.img.frames[n] = f :: l → x.row + 1 < x.cfg.height →
      y % s.rowsPer n ≠ 0 → y ≠ x.cfg.planeH →
      ∃ t, exec (.generatedRow n) s = .next t ∧ t.img.rx[n].row = x.row + 1 ∧ t.img.rx[n].gen = some (u + x.cfg.linePs) ∧
        t.img.frames[n] = { f with replaced := f.replaced + 1 } :: l ∧ t.dram = s.dram ∧ ∀ k, k ≠ n → t.img.rx[k] = s.img.rx[k]) ∧
    (∀ (h : HeldRow) off data, x.held = [h] → x.heldTicks = [] → h.writes = [(off, data)] → s.clusterUp h.c = true →
      s.slotHeld n h.c (h.row / s.rowsPer n % x.cfg.slots) = false → s.clusters[h.c].mem.wf = true →
      ∃ t, exec (.heldBandsWrite n h.c) s = .next t ∧ t.img.rx[n] = { x with held := [] } ∧
        t.clusters[h.c].mem.readBytes off data.length = data ∧
        (∀ a, a < off ∨ off + data.length ≤ a → t.clusters[h.c].mem.read a = s.clusters[h.c].mem.read a) ∧
        (∀ d, d ≠ h.c → t.clusters[d].mem = s.clusters[d].mem) ∧ t = { s with img := t.img, clusters := t.clusters }) ∧
    (x.lock = true → x.lastBurst * 1000 + x.cfg.lines * x.cfg.linePs ≤ s.now * 1000 →
      ∃ t, exec (.rxLockLoss n) s = .next t ∧ t = s.modRx n (fun x => { x with lock := false }) ∧ t.img.rx[n].lock = false)) ∧
  ∀ s : State, s.on 4 = true →
    (∀ (m : Fin 2) (a b : Nat) rest, s.img.trig[m].pulses = (a, b) :: rest →
      (s.img.trig[m].active = false → a ≤ s.now → ∃ t, exec (.triggerAssert m) s = .next t ∧
        t = { s with img := { s.img with trig := t.img.trig } } ∧ t.img.trig[m] = ⟨true, (a, b) :: rest⟩ ∧
        ∀ k, k ≠ m → t.img.trig[k] = s.img.trig[k]) ∧
      (s.img.trig[m].active = true → b ≤ s.now → ∃ t, exec (.triggerDeassert m) s = .next t ∧
        t = { s with img := { s.img with trig := t.img.trig } } ∧ t.img.trig[m] = ⟨false, rest⟩ ∧
        ∀ k, k ≠ m → t.img.trig[k] = s.img.trig[k])) ∧
    exec .imgRefTimeLoRead s = .next { s with img := { s.img with refLatch := (s.img.ref >>> 32).setWidth 32 } }

/-- With IMAGING powered and a row-group due on a transmitter that emits none: outside RUNNING and DEGRADED it is dropped; else, in its frame, it is in emission from row 0, every band from its own slot where that is ready; a first group opens its frame with a Frame Start, sent here where it did not leave already behind the Frame End before it. A due row that is not the group's last, of a frame with no host buffer, goes out with the
data type and bytes the slots hold. TX_STOP outside RUNNING and DEGRADED ends the frame and forgets the groups to come. No memory changes. -/
def Obligations.OutputFramesAreSent : Prop :=
  ∀ (s : State) (n : Fin 2), s.on 4 = true →
    let x := s.img.tx[n]
    let kept (t : State) : Prop := t = { s with img := { s.img with tx := t.img.tx }, glb := t.glb, pcie := t.pcie } ∧
      (∀ k, k ≠ n → t.img.tx[k] = s.img.tx[k]) ∧ t.img.tx[n].cfg = x.cfg
    (∀ g rest, x.groups = g :: rest → x.cur = none → g.start ≤ s.now * 1000 →
      (s.active = false → ∃ t, exec (.outputRowGroupEmission n) s = .next t ∧ kept t ∧ t.img.tx[n] = { x with groups := rest }) ∧
      (s.active = true → 0 < g.rows → x.inFrame = some g.frame → x.ahead = false →
        ∃ t, exec (.outputRowGroupEmission n) s = .next t ∧ kept t ∧ t.img.tx[n].groups = rest ∧ t.img.tx[n].cur = some g ∧
          t.img.tx[n].row = 0 ∧ t.img.tx[n].inFrame = some g.frame ∧ t.img.tx[n].sent = x.sent ∧
          ∀ b, b < 16 → s.clusterUp (Fin.ofNat 4 (b / 4)) = true →
            (b, g.group % 3, g.frame % 2 ^ 32, g.group % 65536) ∈ x.ready → t.img.tx[n].bandSlot[b]? = some (some (g.group % 3))) ∧
      (s.active = true → 0 < g.rows → g.group = 0 → x.inFrame = none → bit x.cfg.pcie 15 = false → x.cfg.phy ≠ 0 →
        ∃ t, exec (.outputRowGroupEmission n) s = .next t ∧ kept t ∧ t.img.tx[n].cur = some g ∧
          t.img.tx[n].inFrame = some g.frame ∧ t.img.tx[n].sent = (0x00, leBytes 2 (g.frame % 65535 + 1)) :: x.sent) ∧
      (s.active = true → 0 < g.rows → g.group = 0 → x.inFrame = some g.frame → x.ahead = true → bit x.cfg.pcie 15 = false →
        ∃ t, exec (.outputRowGroupEmission n) s = .next t ∧ kept t ∧ t.img.tx[n].cur = some g ∧ t.img.tx[n].ahead = false ∧
          t.img.tx[n].inFrame = some g.frame ∧ t.img.tx[n].sent = x.sent)) ∧
    (∀ g, x.cur = some g → s.active = true → g.start + x.row * g.iv / x.cfg.group ≤ s.now * 1000 → x.buf = none →
      x.row + 1 < g.rows → x.cfg.phy ≠ 0 →
      ∃ t, exec (.txRowRead n) s = .next t ∧ kept t ∧
        t.img.tx[n] = { x with sent := (x.cfg.dt, s.txRow n x.row) :: x.sent, row := x.row + 1 }) ∧
    (s.active = false → ∃ t, exec (.txStop n) s = .next t ∧ kept t ∧ t.img.tx[n].groups = [] ∧ t.img.tx[n].inFrame = none ∧
      (∀ f, x.inFrame = some f → x.cfg.phy ≠ 0 → t.img.tx[n].sent = (0x01, leBytes 2 (f % 65535 + 1)) :: x.sent ∧
        t.img.tx[n].frame = BitVec.ofNat 32 f))

/-- With IMAGING powered: an IMG_I3C_XFER of legal fields, for no reference, with room in its controller's queue, is queued, due at once, and stays BUSY; the transfer at the head of a queue starts once due, and its end with a result of 0 to 3 takes it from the queue and replies to its mailbox; an in-band interrupt of at most 8 bytes and a hot join are reported as events of
context 0. The other controller's queue is unchanged. -/
def Obligations.I3cTransfersRun : Prop :=
  ∀ (s : State) (n : Fin 2), s.on 4 = true →
    let others (t : State) : Prop := (∀ k, k ≠ n → t.img.i3c[k] = s.img.i3c[k]) ∧ t.img.rx = s.img.rx ∧ t.img.tx = s.img.tx ∧
      t.dram = s.dram ∧ t.clusters = s.clusters ∧ t.sched = s.sched
    (∀ (m : Fin 8) (ctx : Nat) (p : List Byte), s.holdsTaken m 0x0501 ctx p → field p 0 1 = n.val → field p 1 1 ≤ 9 →
      field p 2 1 ≤ 127 → field p 4 4 = 0xFFFFFFFF → field p 8 4 ≤ 1000000 → field p 12 2 ≤ 256 → field p 14 2 = 0 →
      s.img.i3c[n].length < 16 →
      ∃ t x, exec (.imgI3cXfer m) s = .next t ∧ others t ∧ t.img.i3c[n] = s.img.i3c[n] ++ [x] ∧ x.mbox = m ∧
        x.kind = field p 1 1 ∧ x.addr = field p 2 1 ∧ x.len = field p 12 2 ∧ x.due = some s.now ∧ x.started = none ∧
        t.mboxes[m] = { s.mboxes[m] with flight := some ⟨0, [n.val], []⟩ }) ∧
    (∀ x rest, s.img.i3c[n] = x :: rest →
      (∀ u, x.started = none → x.due = some u → u ≤ s.now → ∃ t, exec (.i3cTransferStart n) s = .next t ∧ others t ∧
        t.img.i3c[n] = { x with started := some s.now } :: rest ∧ t.mboxes = s.mboxes) ∧
      (∀ t0 (result : Byte) (done : W16) data k f, x.started = some t0 → result.toNat ≤ 3 → s.mboxes[x.mbox].taken = some k →
        k.command = 0x0501 → s.mboxes[x.mbox].flight = some f →
        ∃ t, exec (.i3cTransferDone n result done data) s = .next t ∧ others t ∧ t.img.i3c[n] = rest ∧
          s.replied t x.mbox (ok (leBytes 1 result.toNat ++ [0] ++ leBytes 2 done.toNat ++ zeros 4 ++ leBytes 8 t0 ++
            (if i3cReads x.kind then data.take (if x.kind = 9 then 4064 else x.len) else []))))) ∧
    (∀ (addr : Byte) (data : List Byte), data.length ≤ 8 → ∃ t, exec (.i3cIbi n addr data) s = .next t ∧ t.img = s.img ∧
      t.dram = s.dram ∧ t.clusters = s.clusters ∧
      s.reports t 0x0404 0 (0x10 + n.val) false (leBytes 1 n.val ++ [addr] ++ leBytes 1 data.length ++ padTo 8 data)) ∧
    ∃ t, exec (.i3cHotjoin n) s = .next t ∧ t.img = s.img ∧ t.dram = s.dram ∧ t.clusters = s.clusters ∧
      s.reports t 0x0405 0 (0x10 + n.val) false (leBytes 1 n.val)

/-- With LINK powered, for a command of legal fields taken from mailbox m: LINK_UP enables exactly the ports named, at its rate, and stays BUSY; LINK_INDEX before any route or stream sets index and size; LINK_ROUTE replaces the entries named, the last to name one deciding, sets a transmit stream, starts a receive stream anew, or clears all streams; LINK_INFO answers
the ports' words, and a probe of the own index at once; TIME_SYNC starts the servo anew with its role and gains, and with set_time sets SYSTIME; TIME_INFO answers the servo's state and changes nothing. -/
def Obligations.LinkAndTimeAreCommanded : Prop :=
  ∀ (s : State) (m : Fin 8) (ctx : Nat) (p : List Byte), s.on 5 = true →
    let only (t : State) : Prop := t = { s with link := t.link, mboxes := t.mboxes, glb := t.glb, pcie := t.pcie }
    (s.holdsTaken m 0x0701 ctx p → field p 0 1 ≤ 15 → 1 ≤ field p 1 1 → field p 1 1 ≤ 2 → field p 2 2 = 0 →
      ∃ t x, exec (.linkUp m) s = .next t ∧ t.mboxes[m] = { s.mboxes[m] with flight := some x } ∧ x.kind = 0x0701 ∧
        t.link.rate = field p 1 1 ∧ t.clusters = s.clusters ∧ t.dram = s.dram ∧
        ∀ q : Fin 4, t.link.port[q].enabled = bit (field p 0 1) q.val ∧
          (bit (field p 0 1) q.val = false → t.link.port[q].up = false) ∧
          (bit (field p 0 1) q.val = true → t.link.port[q].up = s.link.port[q].up)) ∧
    (let i := field p 0 1
     s.holdsTaken m 0x0702 ctx p → field p 2 2 = 0 → i < field p 1 1 → field p 1 1 ≤ 48 → (∀ d : Fin 48, s.link.route[d] = 0xFF) →
      (∀ r : Fin 16, s.link.txs[r].kind = 0 ∧ s.link.rxs[r].on = false) →
      (∀ q : Fin 4, s.link.port[q].nbrHello.isSome = true → s.link.port[q].nbrIndex.toNat ≠ i) →
      ∃ t, exec (.linkIndex m) s = .next t ∧ s.replied t m (ok []) ∧
        t.dev = { s.dev with index := BitVec.ofNat 8 i, size := some (field p 1 1) } ∧
        t = { s with dev := t.dev, status := t.status, mboxes := t.mboxes, glb := t.glb, pcie := t.pcie }) ∧
    (s.dev.index ≠ 0xFF →
      (let n := field p 1 1
       s.holdsTaken m 0x0703 ctx p → field p 0 1 = 1 → 1 ≤ n → n ≤ 48 → field p 2 1 ≤ 31 → field p 3 1 = 0 →
        (∀ i, i < n → field p (4 + 2 * i) 1 ≤ 47 ∧ (field p (5 + 2 * i) 1 ≤ 3 ∨ field p (5 + 2 * i) 1 = 0xFF)) →
        ∃ t, exec (.linkRouteRoutes m) s = .next t ∧ s.replied t m (ok []) ∧ only t ∧
          t.link.ttl = (if field p 2 1 = 0 then s.link.ttl else field p 2 1) ∧
          ∀ d : Fin 48, ((∀ i, i < n → field p (4 + 2 * i) 1 ≠ d.val) → t.link.route[d] = s.link.route[d]) ∧
            ∀ i, i < n → field p (4 + 2 * i) 1 = d.val → (∀ j, i < j → j < n → field p (4 + 2 * j) 1 ≠ d.val) →
              t.link.route[d] = BitVec.ofNat 8 (field p (5 + 2 * i) 1)) ∧
      (s.active = false → ∀ r : Fin 16, field p 1 1 = r.val → field p 2 2 = 0 → field p 7 1 = 0 → s.holdsTaken m 0x0703 ctx p →
        (let x : TxStream := ⟨field p 4 1, field p 5 1, field p 6 1, field p 8 4, field p 12 4, field p 16 8⟩
         field p 0 1 = 2 → x.dests < 2 ^ 48 →
          x.kind = 0 ∨ (x.kind = 1 ∧ ∃ n : Fin 5, x.source = n.val ∧ s.aud.port[n].cfg.inMask ≠ 0) ∨
            (x.kind = 2 ∧ slotsLegal x.k = true ∧ unitLegal x.unitBytes = true ∧ (∃ c o, audPlace x.ring = .cluster c o) ∧
              s.ringClash x.ring (x.k * x.unitBytes) none = false) →
          ∃ t, exec (.linkRouteTxStream m) s = .next t ∧ s.replied t m (ok []) ∧ only t ∧
            t.link = { s.link with txs := vset s.link.txs r (if x.kind = 0 then TxStream.off else x) }) ∧
        (let raise : W32 := BitVec.ofNat 32 (field p 32 4)
         field p 0 1 = 3 → slotsLegal (field p 6 1) = true → unitLegal (field p 12 4) = true → field p 16 1 ≤ 47 → field p 17 1 ≤ 15 →
          field p 18 6 = 0 → 10000 ≤ field p 24 4 → field p 24 4 ≤ 1000000000 → field p 28 4 ≤ 100000 → refLegal raise = true →
          (refValid raise = false ∨ refScope raise ≤ 1) →
          s.ringClash (field p 8 4) (field p 6 1 * (64 + field p 12 4)) (some r) = false →
          ∃ t, exec (.linkRouteRxStream m) s = .next t ∧ s.replied t m (ok []) ∧ t.clusters = s.clusters ∧ t.dram = s.dram ∧
            t.link.rxs[r] = { RxStream.off with
              on := true, k := field p 6 1, ring := field p 8 4, unitBytes := field p 12 4, src := field p 16 1,
              stream := field p 17 1, periodNs := field p 24 4, dueUs := field p 28 4, raise := raise,
              missing := s.link.rxs[r].missing, late := s.link.rxs[r].late } ∧
            ∀ k, k ≠ r → t.link.rxs[k] = s.link.rxs[k])) ∧
      (s.active = false → s.holdsTaken m 0x0703 ctx p → field p 0 1 = 4 → field p 1 3 = 0 →
        ∃ t, exec (.linkRouteClearStreams m) s = .next t ∧ s.replied t m (ok []) ∧ only t ∧
          ∀ r : Fin 16, t.link.txs[r] = TxStream.off ∧
            t.link.rxs[r] = { RxStream.off with missing := s.link.rxs[r].missing, late := s.link.rxs[r].late })) ∧
    (s.holdsTaken m 0x0704 ctx p → field p 2 2 = 0 →
      (field p 0 1 = 0 → Answers (.linkInfoPorts m) s m
        (ok ((List.finRange 4).flatMap (fun q => leBytes 4 (s.portStatus q) ++ w32 s.link.port[q].crc)))) ∧
      (field p 0 1 = 1 → field p 1 1 = s.dev.index.toNat → s.dev.index.toNat ≤ 47 →
        Answers (.linkInfoProbe m) s m (ok ([0, 1] ++ zeros 6)))) ∧
    (∀ u : Fin 4, s.holdsTaken m 0x0710 ctx p → field p 0 1 ≤ 2 → field p 1 1 = u.val → field p 2 1 ≤ 3 → field p 3 1 = 0 →
      16 ≤ field p 4 2 → field p 4 2 ≤ 1024 → field p 12 4 = 0 → (field p 0 1 = 2 → s.link.port[u].up = true) →
      (bit (field p 2 1) 1 = true → field p 0 1 = 1 ∧ s.active = false) →
      ∃ t, exec (.timeSync m) s = .next t ∧ s.replied t m (ok []) ∧ t.time.role = field p 0 1 ∧ t.time.upstream = u ∧
        t.time.interval = field p 4 2 ∧ t.time.kp = field p 6 2 ∧ t.time.ki = field p 8 2 ∧ t.time.locked = false ∧
        t.time.integ = 0 ∧ t.dram = s.dram ∧ t.clusters = s.clusters ∧
        (bit (field p 2 1) 1 = false → t.dev = s.dev) ∧
        (bit (field p 2 1) 1 = true → t.dev = { s.dev with systime := BitVec.ofNat 64 (field p 16 8) })) ∧
    (s.holdsTaken m 0x0711 ctx p → Answers (.timeInfo m) s m
      (ok (leBytes 1 s.time.role ++ leBytes 1 (b2n s.time.isLocked) ++ leBytes 1 s.time.shownHops.toNat ++
        leBytes 1 s.time.upstream.val ++ leBytes 4 (int32 s.time.theta) ++ leBytes 4 (int32 s.time.delay) ++
        leBytes 4 (int32 s.time.steer) ++ leBytes 4 (int32 s.time.integ) ++ w32 s.time.exchanges ++ leBytes 8 s.now ++ zeros 8)))

/-- For a frame f with a good payload CRC at a port p that works, its device in service: a DATA frame that may be written is, and its tracker counts it; one that may not changes no memory and is counted as dropped; a RAISE of a reference with no transfer raises its lock; a part of the unit a sole receive stream awaits is noted; a CTRL probe not seen before is remembered;
an acknowledgement ends an answer; a frame in transit leaves by the table with ttl one less, or is dropped at ttl 0; HELLO tells the neighbour; TIME_REQ is answered with t1 and t2; TIME_RESP of the request in progress gives theta. HEADER_CRC_DISCARD counts a CRC error. -/
def Obligations.FramesReachTheirPlace : Prop :=
  ∀ (s : State) (p : Fin 4) (f : ZFrame), s.portOn p = true → f.crcOk = true → s.dev.state ≠ .outOfService →
    let src : Byte := BitVec.ofNat 8 (frameFrom f)
    (s.mine p f 0x01 = true →
      let a := bits (field f.payload 0 8) 0 48
      let data := f.payload.drop 8
      (∀ c o, s.dataOk a data.length = true → spaceOf a = .clus c o → s.clusters[c].mem.wf = true → s.link.trackers.length < 256 →
        (∀ x ∈ s.link.trackers, ¬ (x.src = src ∧ x.id = f.id)) →
        ∃ t, exec (.dataFrame p f) s = .next t ∧ t = { s with link := t.link, clusters := t.clusters } ∧
          t.clusters[c].mem.readBytes o data.length = data ∧
          (∀ x, x < o ∨ o + data.length ≤ x → t.clusters[c].mem.read x = s.clusters[c].mem.read x) ∧
          (∀ d, d ≠ c → t.clusters[d] = s.clusters[d]) ∧ t.link.trackers = ⟨src, f.id, 1, false, s.now⟩ :: s.link.trackers) ∧
      (s.dataOk a data.length = false → ∃ t, exec (.dataFrame p f) s = .next t ∧ t = { s with link := t.link } ∧
        t.link.localDrop = s.link.localDrop + 1)) ∧
    (let ref : W32 := BitVec.ofNat 32 (field f.payload 0 4)
     let c := refCluster ref
     s.mine p f 0x02 = true → field f.payload 4 4 = 0 → f.id = 0 → refValid ref = true → 0 < refCount ref → s.clusterUp c = true →
      s.clusters[c].keeper.waiters = [] →
      ∃ t, exec (.raiseFrame p f) s = .next t ∧ t.dram = s.dram ∧
        t.clusters[c].keeper.level (refLock ref) = min (s.clusters[c].keeper.level (refLock ref) + refCount ref) 0xFFFFFFFF ∧
        ∀ d, d ≠ c → t.clusters[d] = s.clusters[d]) ∧
    (∀ r : Fin 16, let x := s.link.rxs[r]
      let n := bits f.part.toNat 0 12
      s.mine p f 0x03 = true → x.on = true → x.src = bits f.src.toNat 0 6 → x.stream = bits f.id.toNat 0 4 →
      (∀ q, q ≠ r → ¬ (s.link.rxs[q].on = true ∧ s.link.rxs[q].src = bits f.src.toNat 0 6 ∧ s.link.rxs[q].stream = bits f.id.toNat 0 4)) →
      s.active = true → s.audUp (audPlace x.ring) = true → x.started = true → x.stalled = false → f.seq = x.unit →
      n < x.total → n ∉ x.parts → f.part.getLsbD 15 = false →
      ∃ t, exec (.streamFrame p f) s = .next t ∧ t.link.rxs[r].parts = n :: x.parts ∧ t.link.rxs[r].unit = x.unit ∧
        t.link.rxs[r].lastFrame = s.now ∧ (∀ q, q ≠ r → t.link.rxs[q] = s.link.rxs[q]) ∧ t.dram = s.dram) ∧
    (s.mine p f 0x04 = true → s.fwUp = true → (∀ x ∈ s.link.seen, ¬ (x.1 = src ∧ f.id ∈ x.2)) → field f.payload 0 1 = 0 →
      ∃ t, exec (.ctrlFrame p f) s = .next t ∧ t.link.seen = seenAdd s.link.seen src f.id ∧ t.clusters = s.clusters ∧
        t.dram = s.dram ∧ t.mboxes = s.mboxes) ∧
    (∀ o, s.mine p f 0x05 = true → s.fwUp = true →
      s.link.out.find? (fun o => o.id = f.id && decide (o.dst.toNat = (frameFrom f))) = some o → o.why = .answer →
      ∃ t, exec (.ctrlAckFrame p f) s = .next t ∧ t = { s with link := t.link } ∧
        t.link.out = s.link.out.filter (fun x => x.id ≠ o.id)) ∧
    (routed f = true → (s.dev.index = 0xFF ∨ bits f.dst.toNat 0 6 ≠ s.dev.index.toNat) →
      (bits f.ttl.toNat 0 5 = 0 → ∃ t, exec (.transitFrame p f) s = .next t ∧ t.link.err.getLsbD 8 = true ∧
        t.clusters = s.clusters ∧ t.dram = s.dram) ∧
      ∀ e : Fin 4, bits f.ttl.toNat 0 5 ≠ 0 → (s.link.route.toList.getD (f.dst.toNat % 64) 0xFF).toNat = e.val → s.portOn e = true →
        (let z := s.link.port[e]
         if framePrio1 f then z.q1 = [] ∧ frameUnits f ≤ z.credit1 else z.q0 = [] ∧ frameUnits f ≤ z.credit0) →
        ∃ t, exec (.transitFrame p f) s = .next t ∧ t = { s with link := t.link } ∧ t.link.port[e].sent =
          { f with ttl := BitVec.ofNat 8 (bits f.ttl.toNat 0 5 - 1), stomped := false } :: s.link.port[e].sent) ∧
    (f.type = 0x08 → (BitVec.ofNat 8 (field f.payload 0 1) ≠ s.dev.index ∨ s.dev.index = 0xFF) →
      ∃ t, exec (.helloFrame p f) s = .next t ∧ t = { s with link := t.link } ∧
        t.link.port[p].nbrIndex = BitVec.ofNat 8 (field f.payload 0 1) ∧ t.link.port[p].nbrHello = some s.now ∧
        t.link.port[p].nbrLocked = bit (field f.payload 3 1) 0 ∧ t.link.port[p].dup = false ∧
        ∀ q, q ≠ p → t.link.port[q] = s.link.port[q]) ∧
    (∀ stamp, f.type = 0x09 → s.time.role ≠ 0 → s.link.port[p].q0 = [] → 1 ≤ s.link.port[p].credit0 →
      ∃ t g, exec (.timeReqFrame p f stamp) s = .next t ∧ t.link.port[p].sent = g :: s.link.port[p].sent ∧ g.type = 0x0A ∧
        g.payload.take 16 = leBytes 8 (field f.payload 0 8) ++ leBytes 8 stamp ∧ t.time = s.time ∧ t.dram = s.dram ∧
        t.clusters = s.clusters) ∧
    (∀ stamp t1 t2 t3, field f.payload 0 8 = t1 → field f.payload 8 8 = t2 → field f.payload 16 8 = t3 →
      f.type = 0x0A → s.time.role = 2 → s.time.upstream = p → s.time.req = some t1 →
      ∃ t, exec (.timeRespFrame p f stamp) s = .next t ∧ t.time.exchanges = s.time.exchanges + 1 ∧ t.time.req = none ∧
        t.time.theta = (((stamp : Int) - t3) - ((t2 : Int) - t1) - s.time.asym).tdiv 2 ∧ t.time.misses = 0 ∧ t.dram = s.dram ∧
        t.clusters = s.clusters) ∧
    (∃ t, exec (.headerCrcDiscard p) s = .next t ∧ t.link.port[p].crc = s.link.port[p].crc + 1 ∧
      (∀ q, q ≠ p → t.link.port[q] = s.link.port[q]) ∧ t = { s with link := t.link, glb := t.glb, pcie := t.pcie })

/-- With LINK powered: a port that loses lock goes down and is reported; one that trains comes up with its lanes; a CRC storm takes it down and tests it; LINK_TRAINING_DONE replies each port's result to LINK_UP; a frame that waited 20 µs is dropped; returned credit is added, to 256 at most; HELLO goes out each 100 µs, and one too old is forgotten; an idle tracker is
freed; an overdue unit is finalised, a silent stream stalls; an unacknowledged CTRL frame is sent again; a time request is sent when due; eight intervals without an answer unlock time. -/
def Obligations.PortsAndTimersOfTheLink : Prop :=
  (∀ (s : State) (p : Fin 4), s.on 5 = true →
    let z := s.link.port[p]
    let mem (t : State) : Prop := t.dram = s.dram ∧ t.clusters = s.clusters ∧ t.sched = s.sched
    (z.up = true → z.enabled = true → ∃ t, exec (.linkPortDown p) s = .next t ∧ mem t ∧ t.link.port[p].up = false ∧
      t.link.port[p].lanes = 0 ∧ t.link.port[p].q0 = [] ∧ t.link.port[p].q1 = [] ∧ t.link.err.getLsbD p.val = true ∧
      ∀ q, q ≠ p → t.link.port[q] = s.link.port[q]) ∧
    (∀ res, z.enabled = true → z.up = false → z.storm = false → z.retry ≤ s.now → s.flights (fun c _ => c = 0x0701) = [] →
      ∃ t, exec (.portRetrain p res) s = .next t ∧ mem t ∧ (∀ q, q ≠ p → t.link.port[q] = s.link.port[q]) ∧
        (res = .failed → t.link.port[p] = { z with retry := s.now + 10000000 }) ∧
        (res ≠ .failed → t.link.port[p].up = true ∧ t.link.port[p].lanes = lanesOf res)) ∧
    (z.up = true → z.storm = true → s.fwUp = true → (∀ x ∈ s.health.tests, x.unit ≠ .zport p) →
      ∃ t, exec (.crcStorm p) s = .next t ∧ mem t ∧ t.link.port[p].up = false ∧
        ∃ x ∈ t.health.tests, x.unit = .zport p ∧ x.st = .running ∧ x.start = some s.now) ∧
    (∀ (m : Fin 8) (r : Fin 4 → TrainResult), s.flights (fun c _ => c = 0x0701) = [m] →
      let got (q : Fin 4) : TrainResult := if s.link.port[q].storm then .failed else r q
      let bytes := (List.finRange 4).map (fun q => resultByte s.link.port[q].enabled (got q))
      ∃ t, exec (.linkTrainingDone (r 0) (r 1) (r 2) (r 3)) s = .next t ∧ mem t ∧
        s.replied t m ⟨if bytes.any (fun b => decide (b = 1 ∨ b = 2)) then 0x4101 else 0, bytes.flatMap (leBytes 1)⟩ ∧
        ∀ q : Fin 4, s.link.port[q].enabled = true → got q ≠ .failed → t.link.port[q].up = true ∧ t.link.port[q].lanes = lanesOf (got q)) ∧
    (∀ f since, since + 20000 ≤ s.now →
      (z.q0 = [(f, since)] → ∃ t, exec (.outputWaitDiscard p false) s = .next t ∧ mem t ∧ t.link.port[p].q0 = [] ∧
        t.link.port[p].drop = z.drop + 1 ∧ t.link.err.getLsbD 10 = true) ∧
      (z.q1 = [(f, since)] → ∃ t, exec (.outputWaitDiscard p true) s = .next t ∧ mem t ∧ t.link.port[p].q1 = [] ∧
        t.link.port[p].drop = z.drop + 1 ∧ t.link.err.getLsbD 10 = true)) ∧
    (∀ units, z.up = true → z.q0 = [] → z.q1 = [] →
      (∃ t, exec (.zorudCreditReturn p false units) s = .next t ∧ t = { s with link := t.link } ∧
        t.link.port[p] = { z with credit0 := min 256 (z.credit0 + units) }) ∧
      ∃ t, exec (.zorudCreditReturn p true units) s = .next t ∧ t = { s with link := t.link } ∧
        t.link.port[p] = { z with credit1 := min 256 (z.credit1 + units) }) ∧
    (z.up = true → z.helloDue ≤ s.now → z.q0 = [] → 1 ≤ z.credit0 →
      ∃ t g, exec (.helloSend p) s = .next t ∧ t = { s with link := t.link } ∧ t.link.port[p].sent = g :: z.sent ∧ g.type = 0x08 ∧
        g.payload.head? = some s.dev.index ∧ t.link.port[p].helloDue = z.helloDue + 100000) ∧
    (∀ u, z.nbrHello = some u → u + 1000000 < s.now → ∃ t, exec (.helloAgeOut p) s = .next t ∧ t = { s with link := t.link } ∧
      t.link.port[p] = { z with nbrHello := none })) ∧
  ∀ s : State,
    (∀ src id, ∃ t, exec (.trackerTimeout src id) s = .next t ∧ t = { s with link := { s.link with trackers := t.link.trackers } } ∧
      ∀ x, x ∈ t.link.trackers ↔ x ∈ s.link.trackers ∧ ¬ (x.src = src ∧ x.id = id ∧ x.last + 1000000 ≤ s.now)) ∧
    (s.on 5 = true → ∀ r : Fin 16, let x := s.link.rxs[r]
      (x.on = true → x.started = true → s.active = true → s.audUp (audPlace x.ring) = true →
        x.predicted x.unit + x.periodNs + x.dueUs * 1000 < s.now →
        ∃ t, exec (.streamUnitDue r) s = .next t ∧ t.link.rxs[r].unit = x.unit + 1 ∧ t.link.rxs[r].parts = [] ∧
          ((∃ n, n < x.total ∧ n ∉ x.parts) → t.link.rxs[r].missing = x.missing + 1) ∧
          (∀ q, q ≠ r → t.link.rxs[q] = s.link.rxs[q]) ∧ t.dram = s.dram) ∧
      (x.on = true → x.started = true → x.stalled = false → x.lastFrame + 4 * x.periodNs ≤ s.now →
        ∃ t, exec (.streamStall r) s = .next t ∧ t.link.rxs[r] = { x with stalled := true } ∧ t.link.err.getLsbD 13 = true ∧
          t.clusters = s.clusters ∧ s.reports t 0x0705 0 0xFF false (leBytes 1 r.val ++ leBytes 1 0 ++ w32 x.unit))) ∧
    (∀ id o, s.link.out.find? (fun o => o.id = id) = some o → s.fwUp = true → o.last + 200000 ≤ s.now →
      (o.sends < 5 → ∃ t, exec (.ctrlResend id) s = .next t ∧ t.clusters = s.clusters ∧ t.mboxes = s.mboxes ∧
        t.link.out = s.link.out.map (fun (x : CtrlOut) => if x.id = id then { x with sends := x.sends + 1, last := s.now } else x)) ∧
      (5 ≤ o.sends → o.why = .answer → ∃ t, exec (.ctrlResend id) s = .next t ∧ t = { s with link := t.link } ∧
        t.link.out = s.link.out.filter (fun x => x.id ≠ id))) ∧
    (∀ stamp, s.on 5 = true → s.time.role = 2 → s.time.reqAt + s.time.interval * 1000 ≤ s.now →
      let z := s.link.port[s.time.upstream]
      z.up = true → z.q0 = [] → 1 ≤ z.credit0 →
      ∃ t g, exec (.timeReqSend stamp) s = .next t ∧ t = { s with link := t.link, time := t.time } ∧
        t.link.port[s.time.upstream].sent = g :: z.sent ∧ g.type = 0x09 ∧ g.payload = leBytes 8 stamp ∧
        t.time.req = some (stamp % 2 ^ 64) ∧ t.time.reqAt = s.now) ∧
    (s.time.role = 2 → s.time.locked = true → 8 ≤ s.time.misses →
      ∃ t, exec .timeResponseTimeout s = .next t ∧ t.time = { s.time with locked := false, first := true } ∧ t.dram = s.dram ∧
        t.link.err.getLsbD 11 = true ∧ s.reports t 0x0708 0 0xFF true (leBytes 1 1 ++ leBytes 4 (int32 s.time.theta)))

/-- For a command of legal fields taken from mailbox m, no change in progress: PWR_MODE to the mode in force is answered at once and changes nothing; to a mode that switches reaches it stays BUSY, with the reaches to power down and up of R524; PWR_INFO answers the mode. The reach next in order powers down once quiesced, or comes up, the change going on; CONTROL
powers off at its time with no command taken. A sample sets the throttle level and reports a new one. -/
def Obligations.PowerModesChange : Prop :=
  (∀ (s : State) (m : Fin 8) (ctx : Nat) (p : List Byte) (c : Fin 4), let mode := field p 0 1
    let link := bit (field p 1 1) 0
    (s.holdsTaken m 0x0801 ctx p → mode ≤ 3 → field p 1 1 ≤ 1 → field p 2 1 = c.val → (mode ≠ 2 → c = 0) → field p 3 1 = 0 →
      s.pwr.change = none → s.pwr.armed = none →
      (mode = s.pwr.mode → link = s.pwr.linkReq → (mode = 2 → c = s.pwr.watch) → Answers (.pwrMode m) s m (ok s.modeReply)) ∧
      ((mode ≠ s.pwr.mode ∨ link ≠ s.pwr.linkReq) →
        (∃ r ∈ upOrder, (s.on r.val = true ∧ modePowers mode link c r = false ∧ r ≠ 3) ∨
          (s.on r.val = false ∧ modePowers mode link c r = true)) →
        ∃ t x, exec (.pwrMode m) s = .next t ∧ t.pwr.change = some x ∧ x.old = s.pwr.mode ∧ x.new = mode ∧ x.by_ = .host m ∧
          t.pwr.mode = s.pwr.mode ∧ t.mboxes[m].flight.isSome = true ∧ t.dev = s.dev ∧ t.clusters = s.clusters ∧ t.dram = s.dram ∧
          (∀ r, r ∈ x.down ↔ r ∈ upOrder ∧ s.on r.val = true ∧ modePowers mode link c r = false ∧ r ≠ 3) ∧
          ∀ r, r ∈ x.up ↔ r ∈ upOrder ∧ s.on r.val = false ∧ modePowers mode link c r = true)) ∧
    (s.holdsTaken m 0x0802 ctx p → ∃ t r, exec (.pwrInfo m) s = .next t ∧ s.replied t m r ∧ r.status = 0 ∧
      r.payload.take 10 = leBytes 1 s.pwr.mode ++ leBytes 1 (b2n s.pwr.linkReq) ++ leBytes 1 s.pwr.watch.val ++
        leBytes 1 s.pwr.level ++ leBytes 2 s.dev.powered.toNat ++ leBytes 1 (b2n s.pwr.change.isSome) ++ [0] ++
        leBytes 2 s.pwr.tj.toNat ∧
      t = { s with fresh := t.fresh, mboxes := t.mboxes, glb := t.glb, pcie := t.pcie })) ∧
  (∀ (s : State) (r : Fin 10) (x : ModeChange), s.pwr.change = some x →
    (∀ rest, r ≠ 3 → x.down = r :: rest → s.quiesced r = true → (rest ≠ [] ∨ x.up ≠ []) →
      ∃ t d, exec (.reachPowerDown r) s = .next t ∧ t.on r.val = false ∧ t.pwr.mode = s.pwr.mode ∧
        t.pwr.change = some { x with down := rest, dropped := d }) ∧
    (∀ rest, x.down = [] → x.up = r :: rest → rest ≠ [] →
      ∃ t, exec (.reachPowerUp r) s = .next t ∧ t.on r.val = true ∧ t.pwr.mode = s.pwr.mode ∧
        t.pwr.change = some { x with up := rest })) ∧
  (∀ (s : State) (u : Nat), s.pwr.ctrlOff = some u → u ≤ s.now → (∀ m : Fin 8, s.mboxes[m].taken = none) →
    ∃ t, exec (.reachPowerDown 3) s = .next t ∧ t.on 3 = false ∧ t.pwr.ctrlOff = none ∧ t.dram = s.dram ∧ t.clusters = s.clusters) ∧
  ∀ (s : State) (tj : W16), s.dev.towpath = true → tj.toInt < 1680 →
    let new := throttle s.pwr.level tj.toInt
    ∃ t, exec (.thermalSample tj) s = .next t ∧ t.pwr = { s.pwr with tj := tj, level := new, armed := none } ∧ t.dev = s.dev ∧
      t.dram = s.dram ∧ t.clusters = s.clusters ∧
      (new ≠ s.pwr.level →
        s.reports t 0x0805 0 0xFF true (leBytes 1 s.pwr.level ++ leBytes 1 new ++ leBytes 2 tj.toNat))

/-- For a command of legal fields taken from mailbox m: HEALTH_SELFTEST of a unit that can be tested, not being tested already, stays BUSY and is entered with its kind, instance and count; HEALTH_RESET_PARTITION of a partition not in reset, that does not escalate, puts it in its stop phase with cause 3 and stays BUSY; HEALTH_LOG answers its summary, or the lines
asked for, and changes nothing. -/
def Obligations.HealthIsCommanded : Prop :=
  ∀ (s : State) (m : Fin 8) (ctx : Nat) (p : List Byte),
    (∀ i : Fin 4, let kind := field p 0 1
      let range := if kind = 2 then some (rowRange (field p 8 8)) else none
      s.holdsTaken m 0x0901 ctx p → kind ≤ 3 → field p 1 1 = i.val → field p 2 6 = 0 →
      (kind = 2 → ∃ a, spaceOf (field p 8 8) = .dram i a) → (kind ≠ 2 → field p 8 8 = 0) →
      (kind ≠ 3 → s.clusterUp i = true) → (kind = 3 → s.dsps[i].cond ≠ 1) → (kind ≠ 2 → s.hostUnits kind i ≠ []) →
      (∀ h ∈ s.health.host, ¬ (h.kind = kind ∧ h.instance_ = i.val ∧ h.range = range)) →
      ∃ t h, exec (.healthSelftest m) s = .next t ∧ h ∈ t.health.host ∧ h.mbox = m ∧ h.kind = kind ∧ h.instance_ = i.val ∧
        h.range = range ∧ h.left = (if kind = 2 then 0 else (s.hostUnits kind i).length) ∧ h.tested = 0 ∧
        t.mboxes[m] = { s.mboxes[m] with flight := some ⟨0x0901, [], []⟩ } ∧ t.dram = s.dram) ∧
    (∀ c : Fin 4, s.holdsTaken m 0x0902 ctx p → field p 0 1 = c.val → field p 1 3 = 0 → s.clusterUp c = true →
      s.begun.2.2 = false →
      ∃ t r, exec (.healthResetPartition m) s = .next t ∧ t.clusters[c].reset = some r ∧ r.cause = 3 ∧ r.phase = 0 ∧
        r.waiters = [(m, false)] ∧ r.escalated = false ∧ r.start = s.now ∧ t.health.begun = s.now :: s.health.begun ∧
        t.mboxes[m] = { s.mboxes[m] with flight := some ⟨0x0902, [c.val], []⟩ }) ∧
    (s.holdsTaken m 0x0903 ctx p →
      (field p 0 1 = 0 → ∃ r, Answers (.healthLogSummary m) s m r ∧ r.status = 0 ∧
        r.payload.take 16 = leBytes 4 s.log.headWord ++ w32 s.log.records ++ w32 s.log.coalTotal ++ leBytes 1 s.escCount ++
          leBytes 1 s.health.escLimit ++ leBytes 2 s.health.escWindow) ∧
      (let n := field p 1 1
       field p 0 1 = 1 → 1 ≤ n → n ≤ 63 → field p 2 2 ≤ 1023 →
        Answers (.healthLogLines m) s m (ok ((List.range n).flatMap (fun i => s.log.line (field p 2 2 + i))))))

/-- For a command of legal fields taken from mailbox m: BEGIN outside RECOVERY erases the slot that does not run and opens a load; DATA at the offset due programs its bytes into erased NOR; FINISH of a whole load that verifies closes it and writes its slot as the trial; ABORT, and 60 s without a load command, close it; CONFIRM of a trial with settings
writes it confirmed; REVERT restarts from the other slot; FW_INFO tells the running slot and changes nothing; SETTINGS_SAVE writes a free area. Nothing else changes but the reply. NOR is in canonical form. -/
def Obligations.FirmwareIsLoadedAndKept : Prop :=
  ∀ (s : State), s.nor.wf = true →
    let r := s.bootRec
    let slot := s.fw.slot.toNat
    let only (t : State) : Prop := t = { s with nor := t.nor, fw := t.fw, mboxes := t.mboxes, glb := t.glb, pcie := t.pcie }
    (∀ (m : Fin 8) (ctx : Nat) (p : List Byte), let len := field p 8 4
      (s.holdsTaken m 0x0A01 ctx p → field p 1 1 = 0 → field p 2 2 = 0 → field p 12 4 = 0 →
        (field p 0 1 = 0 → s.dev.state ≠ .recovery → 512 ≤ len → len ≤ 0x400000 → len % 64 = 0 → s.fw.load = none → r.trial ≠ slot →
          ∃ t, exec (.fwLoadBegin m) s = .next t ∧ s.replied t m (ok []) ∧ only t ∧
            t.fw = { s.fw with load := some (if s.fw.slot = 0 then 1 else 0, len, 0, s.now) } ∧
            ∀ i, i < len → t.norByte (slotBase (if s.fw.slot = 0 then 1 else 0) + i) = 0xFF) ∧
        (∀ sl n got at_, s.fw.load = some (sl, n, got, at_) →
          (field p 0 1 = 1 → field p 4 4 = got → 64 ≤ len → len ≤ 4032 → got + len ≤ n → (len % 64 = 0 ∨ got + len = n) →
            p.length = 16 + len → (∀ i, i < len → s.norByte (slotBase sl + got + i) = 0xFF) →
            ∃ t, exec (.fwLoadData m) s = .next t ∧ s.replied t m (ok []) ∧ only t ∧
              t.fw = { s.fw with load := some (sl, n, got + len, s.now) } ∧
              t.norBytes (slotBase sl + got) len = p.drop 16 ∧
              ∀ a, a < slotBase sl + got ∨ slotBase sl + got + len ≤ a → t.norByte a = s.norByte a) ∧
          (field p 0 1 = 2 → s.dev.state ≠ .recovery → got = n → s.verifySlot sl true = none →
            ∃ t, exec (.fwLoadFinish m) s = .next t ∧ s.replied t m (ok []) ∧ only t ∧ t.fw = { s.fw with load := none } ∧
              t.nor = (s.writeBoot { r with valid := r.valid ||| 2 ^ sl, trial := sl, tries := 0 }).nor) ∧
          (field p 0 1 = 3 → ∃ t, exec (.fwLoadAbort m) s = .next t ∧ s.replied t m (ok []) ∧ only t ∧ t.nor = s.nor ∧
            t.fw = { s.fw with load := none }))) ∧
      (s.holdsTaken m 0x0A02 ctx p →
        (r.confirmed = slot → Answers (.fwConfirm m) s m (ok [])) ∧
        (r.confirmed ≠ slot → (s.areaOf r slot).isSome = true → r.trial = slot → bit (field s.fw.image 14 2) 0 = false →
          ∃ t, exec (.fwConfirm m) s = .next t ∧ s.replied t m (ok []) ∧ only t ∧ t.fw = s.fw ∧
            t.nor = (s.writeBoot { r.freeAreas r.confirmed with confirmed := slot, trial := 0xFF, tries := 0 }).nor)) ∧
      (let target := if slot = 0 then 1 else 0
       s.holdsTaken m 0x0A03 ctx p → bit r.valid target = true → s.fw.load = none →
        s.floor ≤ field (s.slotHdr target) 12 2 → r.trial ≠ slot → s.begun.2.2 = false →
        ∃ t, exec (.fwRevert m) s = .next t ∧ t.mboxes[m] = (s.reply m (ok [])).mboxes[m] ∧ t.fw.slot = BitVec.ofNat 8 target ∧
          t.fw.running = false ∧ t.fw.starting = true ∧ t.nor = (s.writeBoot { r with trial := target, tries := 1 }).nor ∧
          t.dram = s.dram ∧ t.clusters = s.clusters ∧ t.health.begun = s.now :: s.health.begun) ∧
      (s.holdsTaken m 0x0A04 ctx p → ∃ y, Answers (.fwInfo m) s m y ∧ y.status = 0 ∧
        y.payload.take 5 = [s.fw.slot] ++ leBytes 1 r.confirmed ++ leBytes 1 r.trial ++ leBytes 1 r.tries ++ leBytes 1 r.valid) ∧
      (∀ a before after, s.holdsTaken m 0x0A10 ctx p → field p 0 1 ≤ 3 → field p 1 1 ≤ 1 → field p 2 1 ≤ 3 → field p 3 1 = 0 →
        r.savePlan slot ((s.areaOf r slot).map (·.1)) = some (a, before, after) →
        ∃ t, exec (.settingsSave m) s = .next t ∧ s.replied t m (ok []) ∧ only t ∧
          t.fw.generation = s.nextGeneration r slot ∧ t.fw.schema = field s.fw.image 16 2 ∧
          t.nor = (((before.elim s s.writeBoot).writeArea a (field s.fw.image 16 2) (s.nextGeneration r slot) p
            (settingsOf s.cfg.committed)).writeBoot after).nor)) ∧
    ∀ sl n got at_, s.serving = true → s.fw.load = some (sl, n, got, at_) → at_ + 60000000000 ≤ s.now →
      exec .fwLoadTimeout s = .next { s with fw := { s.fw with load := none } }

/-- For a command of legal fields taken from mailbox m, no self-test waiting: DSP_LOAD of an image that passes its checks, to a DSP that is not RUNNING, gives the DSP that image, its owner and fresh tasks, leaves it STOPPED, and fills its memories where its reach is powered; DSP_START makes it RUNNING with every register 0; DSP_STOP makes it STOPPED, its tasks without runs; DSP_INFO
answers condition, owner, tasks and fault registers and changes nothing. No other DSP changes. -/
def Obligations.DspsAreCommanded : Prop :=
  ∀ (s : State) (m : Fin 8) (ctx : Nat) (p : List Byte) (d : Fin 4), field p 0 1 = d.val → field p 1 3 = 0 →
    let others (t : State) : Prop := (∀ k, k ≠ d → t.dsps[k] = s.dsps[k]) ∧ t.dram = s.dram ∧ t.clusters = s.clusters
    (∀ q r, let off := field p 8 4
      let len := field p 12 4
      let l := s.dram.readBytes (r.base + off) len
      s.holdsTaken m 0x0B01 ctx p → off % 64 = 0 → s.region? (field p 4 4) = some (q, r) → s.on (clusterReach q) = true →
      off + len ≤ r.len → s.dsps[d].fenced = false → s.dsps[d].cond ≠ 1 → s.poisoned (r.base + off) len = [] →
      imageBad s.cfg.committed l = none → s.taskClash d ((imageOf l).tasks.map (·.entry)) = none → s.health.tests = [] →
      ∃ t, exec (.dspLoad m) s = .next t ∧ s.replied t m (ok []) ∧ others t ∧ t.dsps[d].image = some (imageOf l) ∧
        t.dsps[d].owner = some ctx ∧ t.dsps[d].cond = 0 ∧
        t.dsps[d].tasks = (imageOf l).tasks.map (fun _ => TaskSt.reset) ∧
        (s.on (dspReach d) = true → t.dsps[d].p = (imageOf l).p ∧ t.dsps[d].x = (imageOf l).x ∧ t.dsps[d].y = (imageOf l).y)) ∧
    (s.holdsTaken m 0x0B02 ctx p → s.dsps[d].owner = some ctx → s.dsps[d].fenced = false → s.dsps[d].cond ≠ 1 →
      s.dsps[d].image.isSome = true →
      ∃ t, exec (.dspStart m) s = .next t ∧ s.replied t m (ok []) ∧ others t ∧ t.dsps[d] = s.dsps[d].start false ∧
        t.dsps[d].cond = 1 ∧ t.dsps[d].pc = 0 ∧ t.dsps[d].sr = 0 ∧ t.dsps[d].p = s.dsps[d].p ∧ ∀ b : Fin 3, t.dsps[d].bank[b] = DspBank.reset) ∧
    (s.holdsTaken m 0x0B03 ctx p → s.dsps[d].owner = some ctx → s.health.tests = [] → s.noStop →
      ∃ t, exec (.dspStop m) s = .next t ∧ s.replied t m (ok []) ∧ others t ∧ t.dsps[d].cond = 0 ∧ t.dsps[d].waiting = false ∧
        t.dsps[d].image = s.dsps[d].image ∧ t.dsps[d].x = s.dsps[d].x ∧ ∀ x ∈ t.dsps[d].tasks, x.cur = none ∧ x.pend = none) ∧
    (s.holdsTaken m 0x0B04 ctx p → Answers (.dspInfo m) s m (ok (leBytes 1 s.dsps[d].cond ++ leBytes 1 (s.dsps[d].owner.getD 0) ++
      leBytes 1 s.dsps[d].tasks.length ++ [0] ++ w32 s.dsps[d].fcause ++ w32 s.dsps[d].faddr ++ w32 s.dsps[d].cyc)))

/-- For a command of legal fields taken from mailbox m: ADAPT_START into a region whose reach is on enters one job in its capture phase; ADAPT_ABORT ends it with ADAPT_DONE, outcome 2; ADAPT_INFO answers its phase and counts and changes nothing. A row captured moves the job on and changes no byte of DRAM outside its region; a job past its limit ends with outcome 3; a commit of a job without
AUTO ends it with outcome 1, one of an AUTO job whose loss fell leaves it in phase 4 with its weights quantised, group by group, and no byte of DRAM changes outside the adapter's inactive half. -/
def Obligations.AdaptationJobsRun : Prop :=
  (∀ (s : State) (m : Fin 8) (ctx : Nat) (p : List Byte) (g : Cargo), let c := field p 0 1
    s.cargo? c = some g →
    (∀ tt e r, s.holdsTaken m 0x0C01 ctx p → field p 2 1 < 2 → field p 3 1 = 0 → field p 8 2 ≤ 1024 → 1 ≤ field p 10 2 →
      field p 10 2 ≤ 4096 → 1 ≤ field p 12 4 → field p 12 4 ≤ 1000000 → 1 ≤ field p 16 4 → field p 16 4 ≤ 86400 → g.owner = ctx →
      s.region? (field p 4 4) = some r → s.sched.tt = some tt → tt.entries.find? (fun e => e.id = field p 1 1) = some e →
      e.cls = 3 → s.sched.src[e.source].kind = 4 → s.jobOf c = none → s.on (clusterReach r.1) = true → s.regionBusy (field p 4 4) = false →
      ∃ t j, exec (.adaptStart m) s = .next t ∧ s.replied t m (ok []) ∧ t.jobs = s.jobs ++ [j] ∧ j.cargo = c ∧ j.phase = 1 ∧
        j.owner = ctx ∧ j.region = field p 4 4 ∧ j.limit = s.now + field p 16 4 * 1000000000 ∧ j.captured = 0 ∧
        j.groups = [] ∧ t = { s with jobs := t.jobs, fresh := t.fresh, mboxes := t.mboxes, glb := t.glb, pcie := t.pcie }) ∧
    ∀ j, s.jobOf c = some j → field p 1 3 = 0 →
      (s.holdsTaken m 0x0C02 ctx p → g.owner = ctx → j.phase ≠ 4 →
        ∃ t, exec (.adaptAbort m) s = .next t ∧ s.replied t m (ok []) ∧ t.jobs = s.jobs.filter (fun x => x.cargo ≠ c) ∧
          t.dram = s.dram ∧ t.clusters = s.clusters ∧
          s.reports t 0x0207 j.owner 0xFF false (leBytes 1 j.cargo ++ leBytes 1 2 ++ leBytes 4 j.done ++ leBytes 4 j.dropped ++
            w32 j.before ++ w32 j.after ++ w32 j.stale)) ∧
      (s.holdsTaken m 0x0C03 ctx p →
        Answers (.adaptInfo m) s m (ok (leBytes 4 j.phase ++ leBytes 4 j.done ++ leBytes 4 j.dropped ++ w32 j.stale)))) ∧
  ∀ (s : State) (c : Byte) (j : Job), s.jobOf c.toNat = some j → s.fwUp = true →
    let ended (t : State) (outcome : Nat) (b a : W32) : Prop := t.jobs = s.jobs.filter (fun x => x.cargo ≠ c.toNat) ∧
      t.dram = s.dram ∧ s.reports t 0x0207 j.owner 0xFF false (leBytes 1 j.cargo ++ leBytes 1 outcome ++ leBytes 4 j.done ++
        leBytes 4 j.dropped ++ w32 b ++ w32 a ++ w32 j.stale)
    (∀ n q r, let x := s.img.rx[n]
      s.videoRx = some n → j.phase = 1 → x.inFrame = true → 0 < x.row → x.row < x.cfg.height →
      j.pos < x.frame.toNat * 65536 + (x.row - 1) → j.captured ≠ j.black + j.footage → s.region? j.region = some (q, r) →
      s.clusterUp q = true → s.copying r.base r.len = false →
      ∃ t, exec (.dataSetCapture c) s = .next t ∧ t = { s with dram := t.dram, epoch := t.epoch, jobs := t.jobs } ∧
        t.jobOf c.toNat = some { j with pos := x.frame.toNat * 65536 + (x.row - 1) } ∧
        ∀ a, a < r.base ∨ r.base + r.len ≤ a → t.dram.read a = s.dram.read a) ∧
    (j.phase ≤ 2 → j.limit ≤ s.now → ∃ t, exec (.adaptTimeLimit c) s = .next t ∧ ended t 3 j.before j.after) ∧
    ∀ (before after : W32) (weights : List (List W32)), j.phase = 3 →
      (j.auto = false → ∃ t, exec (.adaptCommit c before ⟨after, weights⟩) s = .next t ∧ ended t 1 before after) ∧
      ∀ g, let half := ((s.adapters.find? (fun a => a.cargo = c.toNat)).map (fun a => 1 - a.half)).getD 1
        let at_ := g.base + g.adapterOff + half * g.adapterLen
        s.cargo? c.toNat = some g → j.auto = true → (fcmp fp32 .lt after.toNat before.toNat).1 = true → g.adapterOff ≠ 0 →
        (∀ q, partOf at_ = some q → s.clusterUp q = true) → s.copying at_ g.adapterLen = false →
        ∃ t, exec (.adaptCommit c before ⟨after, weights⟩) s = .next t ∧
          (∃ y, t.jobOf c.toNat = some y ∧ y.phase = 4 ∧ y.before = before ∧ y.after = after ∧ y.groups = weights.map adaptQuantise) ∧
          ∀ a, a < at_ ∨ at_ + g.adapterLen ≤ a → t.dram.read a = s.dram.read a

/-- On a DSP that is ready, in one cycle: each integer instruction writes its destination with the result given here, n, z, vl, and c where it gives a carry (CMP writes no register); each multiply-accumulate instruction, after the loads of its form from X and Y memory, writes its accumulator with the saturated sum; CLR, MOVA, LDA, NARROW, ASRA and ADDA write the value given, ADDA beyond 72 bits
some value (log entry 63, the model's choice). That ADD, SUB and CMP alone give c, and the flags of MOVA, are read from R378 (log entry 64, the model's choice). A shift above 40 is a reserved field and raises ILLEGAL. The pc moves on by one word; nothing else of the DSP, and nothing outside it but counters and free values, changes. -/
def Obligations.DspArithmetic : Prop :=
  (∀ (s : State) (d : Fin 4) (a : AluArgs), s.dspReady d →
    let x := s.dsps[d].reg a.ra
    let y := s.dsps[d].srcB a.b
    let out (v : Int) : Bool := decide (v < -2147483648 ∨ 2147483647 < v)
    let sat (v : Int) : W32 := if v < -2147483648 then 0x80000000 else if 2147483647 < v then 0x7FFFFFFF else BitVec.ofInt 32 v
    let w (c : Instr) (r : W32) (carry : Option Bool) (vl : Bool) : Prop := AluWrites c s d a.rd r carry vl
    w (.dspAdd d a) (x + y) (some (decide (2 ^ 32 ≤ x.toNat + y.toNat))) (out (x.toInt + y.toInt)) ∧
    w (.dspAdds d a) (sat (x.toInt + y.toInt)) none (out (x.toInt + y.toInt)) ∧
    w (.dspSub d a) (x - y) (some (decide (y.toNat ≤ x.toNat))) (out (x.toInt - y.toInt)) ∧
    w (.dspSubs d a) (sat (x.toInt - y.toInt)) none (out (x.toInt - y.toInt)) ∧
    DspBecomes (.dspCmp d a) s d 1
      ((s.dsps[d].flags32 (x - y) (some (decide (y.toNat ≤ x.toNat))) (out (x.toInt - y.toInt))).advance 1) ∧
    w (.dspNeg d a) (sat (-x.toInt)) none (out (-x.toInt)) ∧
    w (.dspAbs d a) (sat (x.toInt.natAbs : Int)) none (out (x.toInt.natAbs : Int)) ∧
    w (.dspMin d a) (if x.toInt ≤ y.toInt then x else y) none false ∧ w (.dspMax d a) (if y.toInt ≤ x.toInt then x else y) none false ∧
    w (.dspMul d a) (x * y) none (out (x.toInt * y.toInt)) ∧ w (.dspAnd d a) (x &&& y) none false ∧
    w (.dspOr d a) (x ||| y) none false ∧ w (.dspXor d a) (x ^^^ y) none false ∧ w (.dspNot d a) (~~~x) none false ∧
    w (.dspShl d a) (if y.toNat < 32 then x <<< y.toNat else 0) none false ∧
    w (.dspLsr d a) (if y.toNat < 32 then x >>> y.toNat else 0) none false ∧
    w (.dspAsr d a) (x.sshiftRight (min y.toNat 32)) none false) ∧
  (∀ (s : State) (d : Fin 4) (a : MacArgs) (wx wy : Nat) (qx qy : Option Nat), s.dspReady d →
    (∀ l, a.xload = some l → s.dsps[d].address l.mode.val l.ptr 0 = some (wx, qx) ∧ wx < 0x10000 ∧ wx ∉ s.dsps[d].badX) →
    (∀ l, a.yload = some l → s.dsps[d].address l.mode.val l.ptr 0 = some (wy, qy) ∧ wy < 0x10000 ∧ wy ∉ s.dsps[d].badY) →
    (∀ lx ly, a.xload = some lx → a.yload = some ly → lx.ptr = ly.ptr → qx = qy) →
    let y (double : Bool) : Dsp := s.dsps[d].loaded a double wx wy qx qy
    let acc : Int := (s.dsps[d].acc[a.acc]).toInt
    let prod (y : Dsp) (i j : Fin 8) : Int := (if a.f then 2 else 1) * ((y.regs.x[i]).toInt * (y.regs.y[j]).toInt)
    let p := prod (y false) a.x a.y
    let i := 2 * (a.x.val % 4)
    let j := 2 * (a.y.val % 4)
    let q := prod (y true) (Fin.ofNat 8 i) (Fin.ofNat 8 j) + prod (y true) (Fin.ofNat 8 (i + 1)) (Fin.ofNat 8 (j + 1))
    let w (c : Instr) (y : Dsp) (v : Int) : Prop :=
      DspBecomes c s d 1 (((y.setAcc a.acc (sat72 v).1).flags72 (sat72 v).1 (sat72 v).2).advance 1)
    w (.mpy d a) (y false) p ∧ w (.mac d a) (y false) (acc + p) ∧ w (.msu d a) (y false) (acc - p) ∧
    ((a.xload.isSome = true → wx % 2 = 0 ∧ wx + 1 ∉ s.dsps[d].badX) → (a.yload.isSome = true → wy % 2 = 0 ∧ wy + 1 ∉ s.dsps[d].badY) →
      w (.mpyd d a) (y true) q ∧ w (.macd d a) (y true) (acc + q) ∧ w (.msud d a) (y true) (acc - q))) ∧
  ∀ (s : State) (d : Fin 4) (acc acc2 : Fin 4) (reg : Fin 16) (sh : Nat), s.dspReady d →
    let v := s.dsps[d].acc[acc]
    let x := s.dsps[d].reg reg
    AccWrites (.clr d acc) s d acc 0 false ∧
    (∀ f, AluWrites (.mova d acc f true reg) s d reg (accField v f) none false ∧
      DspBecomes (.mova d acc f false reg) s d 1
        (((s.dsps[d].setAcc acc (setAccField v f x)).flags32 (accField (setAccField v f x) f) none false).advance 1)) ∧
    (sh ≤ 40 → AccWrites (.lda d acc reg sh) s d acc (x.signExtend 72 <<< sh) false ∧
      AccWrites (.asra d acc sh) s d acc (v.sshiftRight sh) false ∧
      let n := v.toInt.tdiv (2 ^ sh)
      AluWrites (.dspNarrow d acc reg sh) s d reg
        (if n < -2147483648 then 0x80000000 else if 2147483647 < n then 0x7FFFFFFF else BitVec.ofInt 32 n) none
        (decide (n < -2147483648 ∨ 2147483647 < n))) ∧
    (40 < sh → DspIllegal (.lda d acc reg sh) s d ∧ DspIllegal (.asra d acc sh) s d ∧ DspIllegal (.dspNarrow d acc reg sh) s d) ∧
    (let n := v.toInt + (s.dsps[d].acc[acc2]).toInt
     (0 ≤ n + 2 ^ 71 → n < 2 ^ 71 → AccWrites (.adda d acc acc2) s d acc (BitVec.ofInt 72 n) false) ∧
     ∃ r vl, AccWrites (.adda d acc acc2) s d acc r vl)

/-- On a DSP that is ready: LD and ST of a word of X or Y memory and, in 1 to 120 cycles more for a read, of the cluster memory an enabled window reaches; LDI; MOVEBLK of 1 to 4096 words between X and Y memory by pointers that only count, over ranges that do not overlap; MOVC of a control register; PMOD; NOP; SWI of levels 1 to 6; WAITI; the four jumps, taken in 3 cycles and else passed in one; REP of an integer or a
multiply-accumulate instruction without loads, n times, and with a count of 0 past it; LOOP of a legal body, and with a count of 0 past it; and LRAISE of no reference and of a lock of scope 1 or 2 each complete with the registers, memory, pointers, pc and cycles given here, and change nothing else. Where the spec names ILLEGAL for an operand, each raises it. A branch counts from its own address (log entry 77), the words REP and LOOP check are read by log entry 62, rpc of an empty stack is free (log entry 66): the model's choices. -/
def Obligations.DspMovesAndBranches : Prop :=
  ∀ (s : State) (d : Fin 4), s.dspReady d →
    let x := s.dsps[d]
    let ptr (y : Dsp) (n : Fin 8) (q : Option Nat) : Dsp := q.elim y (y.setPtr n)
    (∀ (a : LdStArgs) w q, x.address a.mode.val a.ptr a.imm = some (w, q) → w < 0x10000 →
      (a.busY = false → w ∉ x.badX →
        DspBecomes (.dspLd d a) s d 1 ((ptr (x.setReg a.reg (BitVec.ofNat 32 (x.x.le (4 * w) 4))) a.ptr q).advance 1)) ∧
      (a.busY = true → w ∉ x.badY →
        DspBecomes (.dspLd d a) s d 1 ((ptr (x.setReg a.reg (BitVec.ofNat 32 (x.y.le (4 * w) 4))) a.ptr q).advance 1)) ∧
      (a.busY = false → ∃ m, DspBecomes (.dspSt d a) s d 1
          ((ptr { x with x := m, badX := x.badX.filter (fun v => v ≠ w) } a.ptr q).advance 1) ∧
        (x.x.wf = true → m.le (4 * w) 4 = (x.reg a.reg).toNat ∧ ∀ b, b < 4 * w ∨ 4 * w + 4 ≤ b → m.read b = x.x.read b)) ∧
      (a.busY = true → ∃ m, DspBecomes (.dspSt d a) s d 1
          ((ptr { x with y := m, badY := x.badY.filter (fun v => v ≠ w) } a.ptr q).advance 1) ∧
        (x.y.wf = true → m.le (4 * w) 4 = (x.reg a.reg).toNat ∧ ∀ b, b < 4 * w ∨ 4 * w + 4 ≤ b → m.read b = x.y.read b))) ∧
    (∀ (a : LdStArgs) w q, let c : Fin 4 := Fin.ofNat 4 (x.xwin.toNat % 4)
      let o := 4 * (w - 0x400000)
      x.address a.mode.val a.ptr a.imm = some (w, q) → 0x400000 ≤ w → w < 0x800000 → a.busY = false → x.xwin.getLsbD 31 = true →
      s.clusterUp c = true →
      (∃ k, k < 120 ∧ DspBecomes (.dspLd d a) s d (2 + k) ((ptr (x.setReg a.reg (BitVec.ofNat 32 (s.clLe c o 4))) a.ptr q).advance 1)) ∧
      (s.protectedIn c o 4 = false → ∃ t, exec (.dspSt d a) s = .next t ∧
        t = { s with dsps := t.dsps, clusters := t.clusters, trc := t.trc } ∧ t.clusters = (s.clWrite c o (w32 (x.reg a.reg))).clusters ∧
        t.dsps[d] = { (ptr x a.ptr q).advance 1 with cyc := x.cyc + 1, tasks := t.dsps[d].tasks } ∧
        ∀ k, k ≠ d → t.dsps[k] = s.dsps[k])) ∧
    (∀ (a : LdStArgs), x.address a.mode.val a.ptr a.imm = none → DspIllegal (.dspLd d a) s d ∧ DspIllegal (.dspSt d a) s d) ∧
    (∀ reg (imm : W16), DspBecomes (.dspLdi d reg false imm) s d 1 ((x.setReg reg (imm.signExtend 32)).advance 1) ∧
      DspBecomes (.dspLdi d reg true imm) s d 1 ((x.setReg reg (imm ++ (x.reg reg).setWidth 16)).advance 1)) ∧
    (∀ (route : MoveRoute) src dst cnt n, let srcY := decide (route = .yx ∨ route = .yy)
      let dstY := decide (route = .xy ∨ route = .yy)
      let ps := (x.regs.p[src]).toNat
      let pd := (x.regs.p[dst]).toNat
      let from_ := if srcY then x.y else x.x
      let to_ := if dstY then x.y else x.x
      let out (v : Nat) : Bool := decide (v < pd ∨ pd + n ≤ v)
      x.countOf cnt = some n → 1 ≤ n → n ≤ 4096 → ps + n ≤ 0x10000 → pd + n ≤ 0x10000 →
      (srcY = dstY → ps + n ≤ pd ∨ pd + n ≤ ps) →
      (∀ v ∈ (if srcY then x.badY else x.badX), ¬ (ps ≤ v ∧ v < ps + n)) → (x.regs.m[src]).toNat < 2 ^ 30 → (x.regs.m[dst]).toNat < 2 ^ 30 →
      ∃ m, DspBecomes (.moveblk d route src dst cnt) s d (4 + n)
          { (((if dstY then { x with y := m, badY := x.badY.filter out } else { x with x := m, badX := x.badX.filter out } : Dsp).setPtr
            src (ps + n)).setPtr dst (pd + n)).advance 1 with rc := 0 } ∧
        (from_.wf = true → to_.wf = true → (∀ i, i < n → m.le (4 * (pd + i)) 4 = from_.le (4 * (ps + i)) 4) ∧
          ∀ b, b < 4 * pd ∨ 4 * (pd + n) ≤ b → m.read b = to_.read b)) ∧
    (∀ (num : BitVec 6) reg,
      (∀ v, x.ctlRead num.toNat 0 = some v → (num = 24 → x.stack ≠ []) →
        DspBecomes (.movc d true num reg) s d 1 ((x.setReg reg v).advance 1)) ∧
      ∀ y, x.ctlWrite num.toNat (x.reg reg) = some y → DspBecomes (.movc d false num reg) s d 1 (y.advance 1)) ∧
    (∀ reg, x.stack = [] → ∃ v : BitVec 15, DspBecomes (.movc d true 24 reg) s d 1 ((x.setReg reg (v.setWidth 32)).advance 1)) ∧
    (∀ (num : BitVec 6) reg f, 28 ≤ num.toNat → DspIllegal (.movc d f num reg) s d) ∧
    (∀ n (imm : W16), (∀ q, x.modify n imm.toInt = some q → DspBecomes (.pmod d n imm) s d 1 ((x.setPtr n q).advance 1)) ∧
      (x.modify n imm.toInt = none → DspIllegal (.pmod d n imm) s d)) ∧
    DspBecomes (.dspNop d) s d 1 (x.advance 1) ∧ DspBecomes (.waiti d) s d 1 { x.advance 1 with waiting := true } ∧
    (∀ l : BitVec 3, (l ≠ 0 → l ≠ 7 → DspBecomes (.swi d l) s d 1 { x.advance 1 with swi := x.swi ||| (1#8 <<< l.toNat) }) ∧
      (l = 0 ∨ l = 7 → DspIllegal (.swi d l) s d)) ∧
    (∀ cond (off : W16) (a : BitVec 15),
      (x.holds cond = true →
        let dest : Nat := (((x.pc : Int) + off.toInt) % 32768).toNat
        DspBecomes (.dspBra d cond off) s d 3 { x with pc := dest } ∧
        DspBecomes (.bsr d cond off) s d 3 { x.modBank (fun b => { b with lr := BitVec.ofNat 15 (x.pc + 1) }) with pc := dest } ∧
        DspBecomes (.jmp d cond a) s d 3 { x with pc := a.toNat } ∧ DspBecomes (.rts d cond) s d 3 { x with pc := x.regs.lr.toNat }) ∧
      (x.holds cond = false → DspBecomes (.dspBra d cond off) s d 1 (x.advance 1) ∧ DspBecomes (.bsr d cond off) s d 1 (x.advance 1) ∧
        DspBecomes (.jmp d cond a) s d 1 (x.advance 1) ∧ DspBecomes (.rts d cond) s d 1 (x.advance 1))) ∧
    (∀ cnt n, x.countOf cnt = some n → n ≤ 4096 →
      (n = 0 → DspBecomes (.rep d cnt) s d 1 { x.advance 2 with rc := 0 }) ∧
      (1 ≤ n → (x.pc + 1) % 32768 ∉ x.badP →
        (∀ op a, dspDecode (x.pword ((x.pc + 1) % 32768)) = some (.alu op a) →
          DspBecomes (.rep d cnt) s d (1 + n) { ((fun y : Dsp => y.alu op a)^[n] x).advance 2 with rc := 0 }) ∧
        ∀ op (a : MacArgs), a.xload = none → a.yload = none → dspDecode (x.pword ((x.pc + 1) % 32768)) = some (.mac op a) →
          DspBecomes (.rep d cnt) s d (1 + n) { ((fun y : Dsp => y.macArith op a)^[n] x).advance 2 with rc := 0 }) ∧
      ∀ len, 1 ≤ len → len ≤ 32 →
        (n = 0 → DspBecomes (.loop d len cnt) s d 2 (x.advance (1 + len))) ∧
        (1 ≤ n → x.pc + 1 + len ≤ 0x8000 →
          (∀ i, i < len → x.pc + 1 + i ∉ x.badP ∧
            loopWord (x.pword (x.pc + 1 + i)) (if i + 1 < len then some (x.pword (x.pc + 1 + i + 1)) else none) = true) →
          DspBecomes (.loop d len cnt) s d 2
            { x with pc := x.pc + 1, loopStart := x.pc + 1, loopLen := len, lc := BitVec.ofNat 32 n, cached := false })) ∧
    ∀ reg, let r := x.reg reg
      let rest (t : State) : Prop := t.dsps[d] = { x.advance 1 with cyc := x.cyc + 1, tasks := t.dsps[d].tasks } ∧
        ∀ k, k ≠ d → t.dsps[k] = s.dsps[k]
      (refValid r = false → DspBecomes (.lraise d reg) s d 1 (x.advance 1)) ∧
      (refValid r = true → refScope r = 0 → DspIllegal (.lraise d reg) s d) ∧
      (refValid r = true → refScope r = 1 → ∃ t, exec (.lraise d reg) s = .next t ∧ rest t ∧
        t = { s with clusters := t.clusters, dsps := t.dsps, trc := t.trc } ∧ t.clusters[refCluster r] = { s.clusters[refCluster r] with
          raisesIn := s.clusters[refCluster r].raisesIn ++ [(refLock r, refCount r)] } ∧
        ∀ c, c ≠ refCluster r → t.clusters[c] = s.clusters[c]) ∧
      (refValid r = true → refScope r = 2 → ∃ t, exec (.lraise d reg) s = .next t ∧ rest t ∧
        t = { s with globalIn := s.globalIn ++ [(refLock r, refCount r)], dsps := t.dsps, trc := t.trc })

/-- On a DSP that runs, with no self-test waiting and no RUN_STOP waiting: a pending SWI that is next in order and alone at its level is taken in 3 cycles: return address, status, loop and task on the interrupt stack, the level and its bank in sr, the pc at the level's vector, its request gone. RTI outside a task restores what the top of the stack holds. A run beyond
its budget, of a task that CONTINUEs, is counted once, reported, and asks for level 7. -/
def Obligations.DspInterruptsAndOverruns : Prop :=
  (∀ (s : State) (d : Fin 4) (l : Nat), s.dspRuns d = true → s.health.tests = [] → s.dsps[d].waiting = false →
    s.dsps[d].nextLevel = some l → l ≠ 7 → s.dsps[d].swi.getLsbD l = true →
    (∀ y ∈ s.dsps[d].taskList, ¬ (y.1.level = l ∧ y.2.requested = true)) →
    let x := s.dsps[d]
    DspBecomes (.interruptEntry d) s d 3 { x with
      stack := ⟨x.pc, x.sr, x.lc, x.loopStart, x.loopLen, x.task⟩ :: x.stack,
      sr := (x.sr &&& ~~~0x07C00000#32) ||| BitVec.ofNat 32 (l * 2 ^ 24 + (l + 2) / 3 * 2 ^ 22), pc := 8 * l, loopLen := 0,
      cached := false, task := 0xFF, swi := x.swi &&& ~~~(1#8 <<< l) }) ∧
  (∀ (s : State) (d : Fin 4) f rest, s.dspReady d → s.health.tests = [] → s.noStop → s.dsps[d].stack = f :: rest →
    s.dsps[d].taskList[s.dsps[d].task]? = none →
    DspBecomes (.rti d) s d (3 + f.loopLen) { s.dsps[d] with
      stack := rest, sr := f.sr, lc := f.lc, loopStart := f.loopStart, loopLen := f.loopLen, cached := false, task := f.task, pc := f.ret }) ∧
  ∀ (s : State) (d : Fin 4) (i : Fin 16) (k : DspTask) (st : TaskSt) (r : TaskRun), s.dsps[d].cond = 1 → s.on (dspReach d) = true →
    s.noStop → s.dsps[d].taskList[i.val]? = some (k, st) → st.cur = some r → r.cause = none → r.passed = 0 → k.budget < r.cycles →
    k.policy = 0 →
    ∃ t st', exec (.dspTaskOverrun d i) s = .next t ∧ t.dsps[d].tasks[i.val]? = some st' ∧ st'.overruns = st.overruns + 1 ∧
      st'.cur = some { r with cause := some 0 } ∧ t.dsps[d].ovrReq = s.dsps[d].ovrReq ++ [i.val] ∧ t.dsps[d].pc = s.dsps[d].pc ∧
      t.dsps[d].bank = s.dsps[d].bank ∧ t.dram = s.dram ∧ t.clusters = s.clusters ∧
      s.reports t 0x0101 s.dsps[d].ctx (0x10 + d.val) false
        (leBytes 2 k.entry ++ leBytes 4 r.count ++ leBytes 1 0 ++ leBytes 1 1)

/-- On a DSP that is ready, DIVINIT, DIVS and DIVEND complete in one cycle each, with some values of n and z. And for every dividend n and divisor v other than 0, but for the one pair whose quotient is outside 32 bits: DIVINIT, then 32 DIVS with the same operands, then DIVEND, whatever n and z each leaves, put the quotient truncated toward zero into lo and the
remainder into hi, and no register changes. -/
def Obligations.DivisionByStepsIsTruncated : Prop :=
  (∀ (s : State) (d : Fin 4) (acc : Fin 4) (a : AluArgs), s.dspReady d →
    (∃ n, DspBecomes (.divinit d acc a) s d 1 ((s.dsps[d].divinit acc a n).advance 1)) ∧
    (∃ n, DspBecomes (.divs d acc a) s d 1 ((s.dsps[d].divs acc a n).advance 1)) ∧
    ∃ n, DspBecomes (.divend d acc) s d 1 ((s.dsps[d].divend acc n).advance 1)) ∧
  ∀ (x : Dsp) (acc : Fin 4) (a : AluArgs) (free : Nat → Nat), let n := (x.reg a.ra).toInt
    let v := (x.srcB a.b).toInt
    v ≠ 0 → ¬ (n = -2147483648 ∧ v = -1) →
    let y := (List.range 32).foldl (fun (y : Dsp) i => y.divs acc a (free i)) (x.divinit acc a (free 32))
    let z := y.divend acc (free 33)
    accField z.acc[acc] .lo = BitVec.ofInt 32 (n.tdiv v) ∧ accField z.acc[acc] .hi = BitVec.ofInt 32 (n.tmod v) ∧
      accField z.acc[acc] .ext = 0 ∧ z.bank = x.bank ∧ ∀ b, b ≠ acc → z.acc[b] = x.acc[b]

/-- Indices are 32 bits and wrap; entry i lies at base + 64 × (i mod 2ⁿ): the entry taken from a submission ring is the one at the device's index, an entry the device writes goes to the place of its own index, which then moves on by one, modulo 2³². A ring the device produces into is full when producer less consumer is 2ⁿ, of a
difference that does not exceed it, and a full event ring takes no entry. A write of the host's index, CONTROL powered, that makes producer less consumer exceed 2ⁿ changes nothing but bad_index; any other one sets the host's index, the producer's of a submission ring and the consumer's of the others. -/
def Obligations.RingIndices : Prop :=
  (∀ (g : Ring) (i : Nat), g.slot i = g.base + 64 * (i % 2 ^ g.n)) ∧
  (∀ (s : State) (r : Nat) (i : Nat) (e : List Byte), s.ringHead r = some (i, e) → ∃ g, assoc s.rings r = some g ∧ g.kind = 1 ∧
    i = g.dev.toNat ∧ e = s.host.readBytes (g.base + 64 * (g.dev.toNat % 2 ^ g.n)) 64 ∧
    ∃ g', assoc (s.ringTake r).rings r = some g' ∧ g'.dev.toNat = (g.dev.toNat + 1) % 2 ^ 32) ∧
  (∀ (s : State) (r : Nat) (e : List Byte) (g : Ring), s.host.wf = true → assoc s.rings r = some g → e.length = 64 →
    (s.ringPut r e).host.readBytes (g.base + 64 * (g.dev.toNat % 2 ^ g.n)) 64 = e ∧
    ∃ g', assoc (s.ringPut r e).rings r = some g' ∧ g'.dev.toNat = (g.dev.toNat + 1) % 2 ^ 32) ∧
  (∀ g : Ring, (g.dev - g.host).toNat ≤ 2 ^ g.n →
    (g.full = true ↔ (g.dev.toNat + 2 ^ 32 - g.host.toNat) % 2 ^ 32 = 2 ^ g.n)) ∧
  (∀ (s : State) (r code ctx w : Nat) (log : Bool) (data : List Byte) (g : Ring), assoc s.rings r = some g → g.full = true →
    (s.ringEvent r code ctx w log data).host = s.host) ∧
  ∀ (s : State) (r : Fin 512) (v : W32) (g : Ring), s.ring? r.val = some g → s.on 3 = true →
    let producer := if g.kind = 1 then v.toNat else g.dev.toNat
    let consumer := if g.kind = 1 then g.dev.toNat else v.toNat
    let beyond := 2 ^ g.n < (producer + 2 ^ 32 - consumer) % 2 ^ 32
    (beyond → exec (.qmDbHostWrite r v) s = .next (s.modRing r.val (fun g => { g with badIndex := true }))) ∧
    (¬ beyond → ∃ t g', exec (.qmDbHostWrite r v) s = .next t ∧ assoc t.rings r.val = some g' ∧ g'.host = v ∧ g'.badIndex = g.badIndex ∧
      (g.kind = 1 → g'.dev = g.dev ∧ t = { s with rings := t.rings }) ∧
      t = { s with rings := t.rings, host := t.host, pcie := t.pcie } ∧ ∀ q, q ≠ r.val → assoc t.rings q = assoc s.rings q)

/-- For the entry e at the head of ring r, its paired completion ring with room: a barge that breaks a rule completes with status 1 and is not queued; one that passes enters the queue of its cluster's mover, unless that is full; an entry of another op, a barge in a stream's ring and a BUFFER in a ring of no stream complete with status 2; a BUFFER that a transmitter wants is taken for its frame; an entry
whose read timed out completes with status 2; each time the ring moves on by one entry. A write to QM_DB_ARM sends the vector at once while entries are unconsumed and leaves arm 0, else arms the ring. -/
def Obligations.SubmissionsAreTaken : Prop :=
  (∀ (s : State) (r : Fin 512) (i : Nat) (e : List Byte) (g gc : Ring), s.host.wf = true → (s.rings.map (·.1)).Nodup →
    s.ring? r.val = some g → s.ringHead r.val = some (i, e) → assoc s.rings g.pair = some gc → gc.kind = 2 →
    gc.used + 1 ≤ 2 ^ gc.n →
    let op := field e 0 1
    let taken (t : State) : Prop := assoc t.rings r.val = some { g with dev := g.dev + 1 }
    let done (t : State) (status tag : Nat) : Prop := taken t ∧ assoc t.rings g.pair = some { gc with dev := gc.dev + 1, arm := false } ∧
      t.host.readBytes (gc.slot gc.dev.toNat) 64 = completionEntry 1 status r.val i s.now tag 0 ∧ t.barges = s.barges ∧
      t.dram = s.dram ∧ t.clusters = s.clusters
    let only (t : State) : Prop := t = { s with rings := t.rings, host := t.host, pcie := t.pcie }
    (op ≠ 0x50 → (op ≠ 0x40 ∧ op ≠ 0x41 ∨ s.streamRing r.val = true) →
      ∃ t, exec (.hostBargeEntry r) s = .next t ∧ done t 2 (field e 16 4) ∧ only t) ∧
    (op = 0x50 → s.streamRing r.val = false → ∃ t, exec (.bufferEntry r) s = .next t ∧ done t 2 (field e 16 4) ∧ only t) ∧
    (∃ t tag, exec (.hostReadTimeout r) s = .next t ∧ tag < 2 ^ 32 ∧ done t 2 tag ∧
      t = { s with fresh := s.fresh + 1, rings := t.rings, host := t.host, pcie := t.pcie }) ∧
    (op = 0x50 → s.streamRing r.val = true → bufferOk e = true → ∀ n : Fin 2,
      let wants (k : Fin 2) : Prop := s.img.tx[k].buf = some .wanted ∧ bit s.img.tx[k].cfg.pcie 15 = true ∧
        bits s.img.tx[k].cfg.pcie 0 9 = r.val
      wants n → (∀ k : Fin 2, k < n → ¬ wants k) →
      ∃ t, exec (.bufferEntry r) s = .next t ∧ taken t ∧ t = { s with rings := t.rings, img := t.img } ∧
        t.img.tx[n] = { s.img.tx[n] with buf := some (.taken r.val i (field e 16 4) (field e 8 8) (field e 4 4) 0) } ∧
        ∀ k : Fin 2, k ≠ n → t.img.tx[k] = s.img.tx[k]) ∧
    ∀ bad d, (op = 0x40 ∨ op = 0x41) → s.streamRing r.val = false → s.bargeCheck false e = (bad, d) →
      (bad.isSome = true → ∃ t, exec (.hostBargeEntry r) s = .next t ∧ done t 1 d.tag.toNat) ∧
      ∀ c, bad = none → s.hostCluster d = some c → d.parts.all (fun p => s.clusters[p].reset.isNone) = true →
        s.clusters[c].reset = none →
        (s.moverFull (.dram c) = true → exec (.hostBargeEntry r) s = .next s) ∧
        (s.moverFull (.dram c) = false → refValid d.wait = false → ∃ t b, exec (.hostBargeEntry r) s = .next t ∧ taken t ∧
          t.barges = s.barges ++ [b] ∧ b.bid = s.nextBid ∧ b.by_ = .ring r.val i ∧ b.desc = d ∧ b.cluster = c ∧ b.ctx = g.ctx ∧
          b.cls = ((assoc s.ctxs g.ctx).map (·.cls)).getD 2 ∧ b.started = false ∧ b.waiting = false ∧
          t = { s with rings := t.rings, barges := t.barges, nextBid := s.nextBid + 1 })) ∧
  ∀ (s : State) (r : Fin 512) (v : W32) (g : Ring), s.ring? r.val = some g → s.on 3 = true →
    (v.getLsbD 0 = true → g.host = g.dev →
      exec (.qmDbArmWrite r v) s = .next (s.modRing r.val (fun g => { g with arm := true }))) ∧
    (v.getLsbD 0 = true → g.host ≠ g.dev → let u := s.modRing r.val (fun g => { g with arm := false })
      ∃ t, exec (.qmDbArmWrite r v) s = .next t ∧ t = { u with pcie := t.pcie } ∧
      (g.vector < 64 → s.pcie.masked.getLsbD g.vector = false → t.pcie.sent = g.vector :: s.pcie.sent) ∧
      (g.vector < 64 → s.pcie.masked.getLsbD g.vector = true → t.pcie.sent = s.pcie.sent ∧ t.pcie.pend.getLsbD g.vector = true) ∧
      (64 ≤ g.vector → t = u)) ∧
    (v.getLsbD 0 = false → exec (.qmDbArmWrite r v) s = .next s)

/-- While TOWPATH is up, PERST_L released and the device not OFF: a hot reset resets Bus Master Enable, the MSI-X table and the log window and nothing else of the device; a link wake brings L0; PME_Turn_Off in D3hot brings L2; Bus Master Enable is set or cleared; GLB_ELW_SEL captures the line it selects; GLB_WAKE asks for CONTROL only while that is off; GLB_INT_EOI
sends its vector again only while P_v is 1; a read of GLB_SYSTIME_LO latches the high half, which GLB_SYSTIME_HI returns; unmasking a vector sends the message pending. A write of four bytes to GLB_INT_ENABLE sets it, one to a W1C register clears the bits written; one to a reach that is off is discarded; an unaligned one, or one where no block is, sets bad_access. -/
def Obligations.FunctionAndRegisters : Prop :=
  ∀ s : State, s.supervised = true →
    let sent (t : State) (v : Nat) : Prop :=
      (s.pcie.masked.getLsbD v = false → t.pcie.sent = v :: s.pcie.sent) ∧
      (s.pcie.masked.getLsbD v = true → t.pcie.sent = s.pcie.sent ∧ t.pcie.pend = s.pcie.pend ||| 1#64 <<< v)
    (∀ k, ∃ t, exec (.pcieHotReset k) s = .next t ∧ t = { s with pcie := t.pcie } ∧ t.pcie.busMaster = false ∧
      (t.pcie.d3hot = true ↔ k = .d3hot) ∧ t.pcie.link = s.pcie.link ∧ t.pcie.sent = s.pcie.sent ∧
      t.pcie.masked = BitVec.allOnes 64 ∧ t.pcie.pend = 0 ∧ t.pcie.elwSel = 0) ∧
    (∃ t, exec .pcieLinkWake s = .next t ∧ t = { s with pcie := t.pcie } ∧ t.pcie.link = 0 ∧ t.pcie.wakeL = false ∧
      t.pcie.busMaster = s.pcie.busMaster ∧ t.pcie.masked = s.pcie.masked) ∧
    (s.pcie.d3hot = true → ∃ t, exec .pmeTurnOffMessage s = .next t ∧ t = { s with pcie := t.pcie } ∧ t.pcie.link = 2 ∧
      t.pcie.busMaster = s.pcie.busMaster) ∧
    (exec (.busMasterEnableWrite false) s = .next { s with pcie := { s.pcie with busMaster := false } }) ∧
    (∃ t, exec (.busMasterEnableWrite true) s = .next t ∧ t.pcie.busMaster = true ∧ t.dram = s.dram ∧ t.clusters = s.clusters ∧
      t.dev = s.dev ∧ ((∀ e ∈ s.rings, e.2.held = [] ∧ e.2.dropped = none) → t = { s with pcie := t.pcie })) ∧
    (∀ v : W32, ∃ t, exec (.glbElwSelWrite v) s = .next t ∧ t = { s with pcie := t.pcie } ∧
      t.pcie.elwData = s.log.mem.readBytes (64 * (v.toNat / 64 % 1024)) 64 ∧ t.pcie.elwSel.toNat = v.toNat / 64 % 1024 * 64 ∧
      t.pcie.sent = s.pcie.sent ∧ t.pcie.busMaster = s.pcie.busMaster) ∧
    (∀ v : W32, ∃ t, exec (.glbWakeWrite v) s = .next t ∧ t = { s with pwr := t.pwr } ∧
      t.pwr.wake = (s.pwr.wake || (v.getLsbD 0 && !s.on 3)) ∧ t.pwr.mode = s.pwr.mode) ∧
    (∀ v : W32, ∃ t, exec (.glbIntEoiWrite v) s = .next t ∧ t = { s with pcie := t.pcie } ∧
      (s.pending64.getLsbD (v.toNat % 64) = true → sent t (v.toNat % 64)) ∧
      (s.pending64.getLsbD (v.toNat % 64) = false → t = s)) ∧
    (∃ t, exec .glbSystimeLoRead s = .next t ∧ s.read32 0x10 = s.now % 2 ^ 32 ∧ t.read32 0x14 = s.now / 2 ^ 32 ∧
      t = { s with glb := t.glb } ∧ t.glb = { s.glb with latch := t.glb.latch }) ∧
    (∀ v : Fin 64, ∃ t, exec (.msixVectorUnmask v) s = .next t ∧ t = { s with pcie := t.pcie } ∧
      t.pcie.masked.getLsbD v.val = false ∧ t.pcie.pend.getLsbD v.val = false ∧
      (∀ k : Nat, k ≠ v.val → t.pcie.masked.getLsbD k = s.pcie.masked.getLsbD k ∧ t.pcie.pend.getLsbD k = s.pcie.pend.getLsbD k) ∧
      t.pcie.sent = (if s.pcie.pend.getLsbD v.val then v.val :: s.pcie.sent else s.pcie.sent)) ∧
    ∀ (off : Nat) (l : List Byte), off + l.length ≤ 0x4000000 →
      let v := BitVec.ofNat 32 (leVal l)
      (off = 0x24 → l.length = 4 → ∃ t, exec (.registerWrite off l) s = .next t ∧ t.glb.enable = v.truncate 16 ∧
        t.glb.cause = s.glb.cause ∧ t = { s with glb := t.glb, pcie := t.pcie }) ∧
      (off = 0x20 → l.length = 4 → ∃ t, exec (.registerWrite off l) s = .next t ∧
        t.glb.cause = s.glb.cause &&& ~~~(v.truncate 16) ∧ t.glb.enable = s.glb.enable ∧
        t = { s with glb := t.glb, pcie := t.pcie }) ∧
      (s.on 5 = false → l.length = 4 → off % 4 = 0 → 0x400000 ≤ off → off < 0x500000 → exec (.registerWrite off l) s = .next s) ∧
      (s.on 5 = true → l.length = 4 → off = 0x400100 → ∃ t, exec (.registerWrite off l) s = .next t ∧
        t.link = { s.link with err := s.link.err &&& ~~~(v.truncate 15) } ∧ t = { s with link := t.link, glb := t.glb, pcie := t.pcie }) ∧
      ((l.length ≠ 4 ∧ l.length ≠ 8 ∨ off % 4 ≠ 0 ∨ l.length = 4 ∧ 0x630000 ≤ off) → (off < 0x20000 ∨ 0x28000 < off + l.length) →
        exec (.registerWrite off l) s = .next { s with glb := { s.glb with err := s.glb.err ||| 1 } })

/-- While TOWPATH is up, PERST_L released and the device not OFF: the state group, when a field of it changed, and the health group, when its millisecond is due, are published with the next sequence number in head and tail and their data words between, and no other word of the map changes. A firmware heartbeat is remembered; at the end of a period progress advances, or misses do and the cause is set, and
the heartbeat group is published; the limit of misses restarts firmware, where the supervisor acts. -/
def Obligations.StatusIsPublished : Prop :=
  ∀ s : State, s.supervised = true → s.status.map.wf = true →
    let old (a : Nat) : Nat := s.status.map.le (2 * a) 2
    let seq (b : Nat) : Nat := (old b + 1) % 65536
    let group (t : State) (b : Nat) (words : List Nat) : Prop :=
      t.status.map.wf = true ∧ t.status.map.le (2 * b) 2 = seq b ∧ t.status.map.le (2 * (b + 7)) 2 = seq b ∧
      (∀ i : Fin 6, t.status.map.le (2 * (b + 1 + i.val)) 2 = words.getD i.val 0 % 65536) ∧
      ∀ a, a < b ∨ b + 8 ≤ a → t.status.map.le (2 * a) 2 = old a
    (s.status.stateDue = true → ∃ t, exec .stateGroupPublish s = .next t ∧ t = { s with status := t.status } ∧
      t.status.stateDue = false ∧ t.status.healthDue = s.status.healthDue ∧
      group t 4 [s.dev.state.code + 16 * s.pwr.mode + 256 * s.inReset, s.dev.powered.toNat, s.dev.index.toNat,
        s.clusters[0].healthy + 16 * s.clusters[1].healthy + 256 * s.clusters[2].healthy + 4096 * s.clusters[3].healthy,
        min s.escCount 65535, 0]) ∧
    (s.status.healthDue ≤ s.now → ∃ t, exec .healthGroupPublish s = .next t ∧ t = { s with status := t.status } ∧
      t.status.stateDue = s.status.stateDue ∧ s.now < t.status.healthDue ∧ t.status.healthDue ≤ s.now + 1000000 ∧
      group t 0x18 [s.pwr.tj.toNat, 2 * b2n s.pwr.armed.isSome + b2n (decide (0 < s.pwr.level)), s.log.records.toNat % 65536,
        s.log.records.toNat / 65536, s.log.lastCode.toNat, 0]) ∧
    (s.fwUp = true → s.on 3 = true → exec .firmwareHeartbeat s = .next { s with health := { s.health with seen := true } }) ∧
    (s.health.due ≤ s.now → s.fw.running = true →
      (s.health.seen = true → ∃ t, exec .heartbeatPeriod s = .next t ∧ t = { s with status := t.status, health := t.health } ∧
        t.health.progress = s.health.progress + 1 ∧ t.health.missed = 0 ∧ t.health.seen = false ∧
        group t 0x10 [t.health.progress.toNat % 65536, t.health.progress.toNat / 65536, s.health.period, 0, b2n s.actsOnMisses, 0]) ∧
      (s.health.seen = false → s.health.missed.toNat < 65535 →
        let n := s.health.missed.toNat + 1
        let acts := s.actsOnMisses = true ∧ s.on 3 = true ∧ s.fwUp = true ∧ s.dev.state ≠ .boot ∧ s.dev.state ≠ .recovery
        (¬ (acts ∧ n = s.health.misses) → ∃ t, exec .heartbeatPeriod s = .next t ∧ t.health.progress = s.health.progress ∧
          t.health.missed.toNat = n ∧ t.glb.cause = s.glb.cause ||| 0x4000 ∧ t.health.restart = s.health.restart ∧
          t = { s with status := t.status, health := t.health, glb := t.glb, pcie := t.pcie } ∧
          group t 0x10 [s.health.progress.toNat % 65536, s.health.progress.toNat / 65536, s.health.period, n, b2n s.actsOnMisses, 0]) ∧
        (acts → n = s.health.misses → s.healthKeys.begun.2.2 = false → ∃ t k, exec .heartbeatPeriod s = .next t ∧
          t.health.restart = some (n, k, s.now) ∧ t.health.begun = s.now :: s.health.begun ∧ t.dev.state = s.dev.state)))

/-- In BOOT with TOWPATH up, the boot ROM powers CONTROL and starts the first slot in its order that verifies, or enters RECOVERY where none does, which leaves both memories of the device untouched. Firmware so started with no settings at all comes up in CONFIG_HOLD, FULL mode and the defaults, its listener running on DSP0 unless fenced. A restart
that ends with a slot that verifies keeps the device's state where staging agrees, else leaves the configuration out of force. -/
def Obligations.BootStartsFirmware : Prop :=
  (∀ s : State, s.dev.state = .boot → s.dev.perst = false → s.dev.towpath = true → s.fw.running = false → s.fw.starting = false →
    s.bootRec.expired = false →
    let order := if s.bootCurrent.isSome then s.bootRec.order else [0, 1]
    ∃ t, exec .bootRomRun s = .next t ∧ t.on 3 = true ∧ t.dram = s.dram ∧ t.clusters = s.clusters ∧ t.dev.systime = s.dev.systime ∧
      t.fw.running = false ∧
      (∀ x, (s.firstGood order).1 = some x → t.fw.slot.toNat = x % 256 ∧ t.fw.starting = true ∧ t.dev.state = .boot ∧
        t.fw.image = t.slotImage x) ∧
      ((s.firstGood order).1 = none → t.dev.state = .recovery ∧ t.fw.slot = 0xFF ∧ t.fw.starting = false ∧ t.nor = s.nor)) ∧
  (∀ s : State, s.fw.starting = true → s.on 3 = true → s.dev.state = .boot → s.bootCurrent = none → s.settingsArea 0 = none →
    s.settingsArea 1 = none → s.health.restart = none → s.health.tests = [] →
    ∃ t, exec .firmwareStart s = .next t ∧ t.fw.running = true ∧ t.fw.starting = false ∧ t.fw.settings = 0x4005 ∧ t.fw.source = 3 ∧
      t.dev.state = .configHold ∧ t.pwr.mode = 3 ∧ t.cfg.committed = [] ∧ t.cfg.txn = none ∧
      (∀ r : Fin 10, r ≠ 0 → t.on r.val = true) ∧
      (s.dsps[0].fenced = false → t.dsps[0].cond = 1 ∧ t.dsps[0].owner = none)) ∧
  ∀ (s : State) (agree : Bool) (misses ended begun : Nat), s.health.restart = some (misses, ended, begun) →
    s.verifySlot s.fw.slot.toNat (s.slotValid s.fw.slot.toNat) = none →
    ∃ t, exec (.firmwareRestartDone agree) s = .next t ∧ t.health.restart = none ∧ t.fw.slot = s.fw.slot ∧ t.dram = s.dram ∧
      t.nor = s.nor ∧ t.cargos = s.cargos ∧ t.ctxs = s.ctxs ∧
      (agree = true → t.sched = s.sched ∧ (s.active = false → t.dev.state = s.dev.state)) ∧
      (agree = false → s.active = true → t.sched.running = false ∧ t.dev.state = .configHold)

/-- An error in a core's memory or line buffer stops the share on that core for good and writes SRAM_UE, and the unit is to be tested; one in cluster memory that nothing read writes the event and queues its row; one in a DSP's memory marks its word, and no other changes. A corrected error is counted for its bank; the one that makes the limit of them within 1 s writes SRAM_CE_LIMIT, the count begins anew, and the bank is to be tested. A source line of a local barge in error ends that barge, and the share goes on. An engine that times out stops
the share whose operation it holds and writes ENGINE_TIMEOUT. A keeper that finds its state wrong resets its partition with cause 4; an error in staging restarts firmware. -/
def Obligations.ErrorsStopTheirReader : Prop :=
  let queued (s t : State) (u : TestUnit) (code : Nat) : Prop :=
    (∃ x ∈ t.health.tests, x.unit = u) ∧
    ((∀ x ∈ s.health.tests, x.unit ≠ u) →
      ∃ x, t.health.tests = s.health.tests ++ [x] ∧ x.unit = u ∧ x.st = .pending ∧ x.trigger = code ∧ x.found = s.now)
  (∀ (s : State) (co : CoreId) (r : Run) (h : Share) (off : W32), s.shareOn co = some (r, h) → s.clusterUp co.c = true → s.noStop →
    let stopped (t : State) : Prop := (∀ r', t.run? r.rid = some r' → r'.stopped = true) ∧
      t.clusters[co.c].cores[co.k].cur ≠ some (r.rid, h.idx) ∧ t.dram = s.dram ∧ t.dsps = s.dsps ∧ t.health.begun = s.health.begun
    (∀ b, s.barge? b.bid = some b → b.mover = .loc co → ∃ t, exec (.sramUe (.coreMem co) off (.barge b.bid)) s = .next t ∧
      (∀ x ∈ t.barges, x.bid ≠ b.bid) ∧ ∃ x ∈ t.health.tests, x.unit = .core co 0 (off.toNat / 64 % 16)) ∧
    (h.barges = [] → r.passed = 0 → (∀ q ∈ s.sched.runs, ∀ x ∈ q.shares, x.st ≠ .notStarted) →
      (∃ t, exec (.sramUe (.coreMem co) off .none) s = .next t ∧ stopped t ∧
        queued s t (.core co 0 (off.toNat / 64 % 16)) 0x0A01) ∧
      (∃ t, exec (.sramUe (.lineBuf co) off .none) s = .next t ∧ stopped t ∧
        queued s t (.core co 1 (off.toNat / 0x40000 % 8)) 0x0A01) ∧
      (∃ t, exec (.sramUe (.clusterMem co.c) off (.share co)) s = .next t ∧ stopped t ∧
        queued s t (.clusterRow co.c (clusterRowOf (off.toNat % 0x1000000))) 0x0A01) ∧
      ∀ e n w, s.engineBusy r h e = some (n, w) →
        ∃ t, exec (.engineTimeout co e) s = .next t ∧ stopped t ∧ queued s t (engineUnit co e) 0x0A03 ∧
          t.fresh = s.fresh + (if h.ops.any (fun o => o.kind = .matrix) then 2 else 1))) ∧
  (∀ (s : State) (c d : Fin 4) (n : Fin 2) (off : W32) (b : Barge), s.clusterUp c = true →
    let seen (t : State) : Prop := ∃ x ∈ t.health.tests, x.unit = .clusterRow c (clusterRowOf (off.toNat % 0x1000000))
    (s.barge? b.bid = some b → ∃ t, exec (.sramUe (.clusterMem c) off (.barge b.bid)) s = .next t ∧ seen t ∧
      ∀ x ∈ t.barges, x.bid ≠ b.bid) ∧
    (s.dspRuns d = true → ∃ t, exec (.sramUe (.clusterMem c) off (.dspWindow d)) s = .next t ∧ seen t) ∧
    ∃ t, exec (.sramUe (.clusterMem c) off (.transmitter n)) s = .next t ∧ seen t ∧ t.dram = s.dram ∧ t.clusters = s.clusters) ∧
  (∀ (s : State) (c : Fin 4) (off : W32), s.clusterUp c = true → off.toNat < 0x1000000 →
    ∃ t, exec (.sramUe (.clusterMem c) off .none) s = .next t ∧ queued s t (.clusterRow c (clusterRowOf off.toNat)) 0x0A01 ∧
      s.reports t 0x0A01 0 c.val true ([2, 0xFF] ++ leBytes 4 off.toNat) ∧ t.sched = s.sched ∧ t.clusters = s.clusters ∧
      t.dram = s.dram ∧ t.barges = s.barges) ∧
  (∀ (s : State) (d : Fin 4) (off : W32), s.on (dspReach d) = true → off.toNat < 0xA0000 →
    let w := off.toNat / 4
    ∃ t, exec (.sramUe (.dspMem d) off .none) s = .next t ∧ t = { s with dsps := t.dsps } ∧ (∀ k, k ≠ d → t.dsps[k] = s.dsps[k]) ∧
      t.dsps[d] = { s.dsps[d] with badP := t.dsps[d].badP, badX := t.dsps[d].badX, badY := t.dsps[d].badY } ∧
      (∀ v, v ∈ t.dsps[d].badP ↔ v ∈ s.dsps[d].badP ∨ v = w ∧ w < 0x8000) ∧
      (∀ v, v ∈ t.dsps[d].badX ↔ v ∈ s.dsps[d].badX ∨ v + 0x8000 = w ∧ v < 0x10000) ∧
      (∀ v, v ∈ t.dsps[d].badY ↔ v ∈ s.dsps[d].badY ∨ v + 0x18000 = w ∧ v < 0x10000)) ∧
  (∀ (s : State) (u : SramUnit) (b : Byte),
    let l := s.now :: ((assoc s.health.sramCe (u, b.toNat)).getD []).filter (fun t => s.now < t + 1000000000)
    let counts (place code who bound : Nat) (x : TestUnit) : Prop := b.toNat < bound →
      (l.length < s.key .healthCeLimit → exec (.sramCeLimit u b) s = .next
        { s with health := { s.health with sramCe := assocSet s.health.sramCe (u, b.toNat) l } }) ∧
      (s.key .healthCeLimit ≤ l.length → ∃ t, exec (.sramCeLimit u b) s = .next t ∧ (∃ y ∈ t.health.tests, y.unit = x) ∧
        s.reports t 0x0A02 0 place true (leBytes 1 code ++ leBytes 1 who ++ [b]) ∧ assoc t.health.sramCe (u, b.toNat) = none ∧
        t.sched = s.sched ∧ t.clusters = s.clusters ∧ t.dsps = s.dsps ∧ t.dram = s.dram)
    (∀ co : CoreId, s.clusterUp co.c = true → (u = .coreMem co → counts co.c.val 0 (s.shareAt co) 16 (.core co 0 b.toNat)) ∧
      (u = .lineBuf co → counts co.c.val 1 (s.shareAt co) 8 (.core co 1 b.toNat))) ∧
    (∀ c : Fin 4, u = .clusterMem c → s.clusterUp c = true → counts c.val 2 0xFF 16 (.clusterBank c b.toNat)) ∧
    ∀ d : Fin 4, u = .dspMem d → s.on (dspReach d) = true → counts (0x10 + d.val) 4 d.val 3 (.dspBlock d (wholeMemory b.toNat))) ∧
  (∀ (s : State) (c : Fin 4), s.clusterUp c = true → s.begun.2.2 = false →
    ∃ t r, exec (.keeperStateError c) s = .next t ∧ t.clusters[c].reset = some r ∧ r.cause = 4 ∧ r.phase = 0 ∧ r.escalated = false ∧
      r.start = s.now ∧ t.health.begun = s.now :: s.health.begun) ∧
  ∀ s : State, s.fwUp = true → s.on 3 = true → s.begun.2.2 = false →
    ∃ t n, exec .stagingUe s = .next t ∧ t.health.restart = some (s.health.missed.toNat, n, s.now) ∧ t.dram = s.dram ∧
      t.dev.state = s.dev.state ∧ t.sched = { s.sched with running := t.sched.running } ∧ t.health.begun = s.now :: s.health.begun

/-- A self-test that ends passed takes its unit out of test, and of a pass nothing is fenced; a core's that ends fenced fences its core for good. A partition in its stop phase writes its logbook record and goes on; then its hardware reset loses what cluster and core memory held and marks regions without RETAIN stale, no byte of DRAM outside them changing; then it returns with PARTITION_RETURN and is
in reset no more. A stage out of its order changes nothing. Resets older than the window count no more. -/
def Obligations.PartitionsResetAndReturn : Prop :=
  (∀ (s : State) (tid : Nat) (x : Test) (us : W32), s.fwUp = true → s.health.tests.find? (fun t => t.tid = tid && t.st = .running) = some x →
    x.mbox = none → s.noStop → s.sched.running = true →
    (∃ c b, x.unit = .clusterRow c b ∧ ∃ tt, s.sched.tt = some tt ∧ ∃ e ∈ tt.entries, e.cluster = c) →
    ∃ t, exec (.selftestDone tid .pass us) s = .next t ∧ t.health.tests = s.health.tests.filter (fun y => y.tid ≠ tid) ∧
      t.health.spares = s.health.spares ∧ t.clusters = s.clusters ∧ t.dram = s.dram ∧ t.dsps = s.dsps) ∧
  (∀ (s : State) (tid : Nat) (x : Test) (us : W32) (co : CoreId) (e : EngineKind), s.fwUp = true →
    s.health.tests.find? (fun t => t.tid = tid && t.st = .running) = some x → x.unit = .engine co e → x.mbox = none →
    s.clusters[co.c].cores[co.k].cur = none → s.clusters[co.c].cores[co.k].susp = [] → s.noStop → s.sched.running = true →
    (∃ tt, s.sched.tt = some tt ∧ ∃ e ∈ tt.entries, e.cluster = co.c) →
    ∃ t, exec (.selftestDone tid .fenced us) s = .next t ∧ t.clusters[co.c].cores[co.k].fenced = true ∧
      t.health.tests = s.health.tests.filter (fun y => y.tid ≠ tid) ∧ t.dram = s.dram ∧
      ∀ co' : CoreId, co' ≠ co → t.clusters[co'.c].cores[co'.k] = s.clusters[co'.c].cores[co'.k]) ∧
  (∀ (s : State) (p : Fin 4) (r : ResetSt), s.clusters[p].reset = some r → s.fwUp = true →
    (r.phase = 0 → r.escalated = false → ∃ t, exec (.partitionLogbook p) s = .next t ∧
      t.clusters[p] = { s.clusters[p] with reset := some { r with phase := 1 } } ∧ (∀ q, q ≠ p → t.clusters[q] = s.clusters[q]) ∧
      t.log = (s.logEvent 0x0A10 0 r.book ((16 + r.book.length + 63) / 64)).log ∧ t.dram = s.dram ∧ t.rings = s.rings) ∧
    (r.phase = 1 → r.escalated = false → s.on (clusterReach p) = true → ∃ t, exec (.partitionHwResetDone p) s = .next t ∧
      t.clusters[p].reset = some { r with phase := 2 } ∧ t.clusters[p].keeper = Keeper.reset ∧
      (∀ k : Fin 4, t.clusters[p].cores[k].cur = none ∧ t.clusters[p].cores[k].susp = [] ∧
        t.clusters[p].cores[k].fenced = s.clusters[p].cores[k].fenced) ∧
      (∀ a, a < 0x1000000 → t.clusters[p].mem.read a = Config.freeByte s.epoch a) ∧
      t.parts[p].regions = s.parts[p].regions.map (fun g => { g with stale := g.stale || !g.retain }) ∧
      (∀ a, (∀ g ∈ s.parts[p].regions, g.retain = false → a < g.base ∨ g.base + g.len ≤ a) → t.dram.read a = s.dram.read a) ∧
      ∀ q, q ≠ p → t.clusters[q] = s.clusters[q] ∧ t.parts[q] = s.parts[q]) ∧
    (r.phase = 2 → r.escalated = false → s.on (clusterReach p) = true → r.waiters = [] → ∃ t, exec (.partitionReturn p) s = .next t ∧
      t.clusters[p].reset = none ∧ t.parts[p].offSeen = false ∧
      (s.cargos = [] → s.parts[p].retrainNext = [] → (∀ ch : Fin 2, s.parts[p].retrain[ch].state ≠ 2) → s.parts[p].scrubState ≠ 2 →
        t.dram = s.dram ∧ s.reports t 0x0A07 0 p.val true (leBytes 4 ((s.now - r.start) / 1000)))) ∧
    (r.phase = 0 → exec (.partitionHwResetDone p) s = .next s ∧ exec (.partitionReturn p) s = .next s) ∧
    (r.phase = 1 → exec (.partitionLogbook p) s = .next s ∧ exec (.partitionReturn p) s = .next s) ∧
    (r.phase = 2 → exec (.partitionLogbook p) s = .next s ∧ exec (.partitionHwResetDone p) s = .next s)) ∧
  ∀ s : State, ∃ t, exec .escalationWindowExpiry s = .next t ∧ t.escCount = s.escCount ∧
    (∀ x ∈ t.health.begun, s.now < x + s.health.escWindow * 1000000000) ∧
    t.health.begun.length = s.escCount ∧ t = { s with health := t.health, status := t.status }

/-- While a record is being written, an event for the log leaves every byte, the head and the record count of the log as they are and adds one to the coalescing counter, which keeps the code of the first and takes that of the last; its copy goes to the event ring as it would at any time. Once the write is over, one LOG_COALESCED record gives count, first and last code at the head of
the log, the counter is empty, and that write too takes time, in which an event coalesces into the next summary. With nothing coalesced there is no such record. -/
def Obligations.FloodsAreCoalesced : Prop :=
  (∀ (s : State) (code ctx w : Nat) (data : List Byte), s.now < s.log.busyUntil →
    let t := s.event code ctx w true data
    t.log = { s.log with coal := t.log.coal, coalTotal := s.log.coalTotal + 1 } ∧
    (s.log.coal = none → t.log.coal = some (1, code, code)) ∧
    (∀ n f l, s.log.coal = some (n, f, l) → t.log.coal = some (n + 1, f, code)) ∧
    (∀ r g, s.eventRing ctx = some (r, g) → t.rings = (s.ringEvent r code ctx w true data).rings ∧
      t.host = (s.ringEvent r code ctx w true data).host)) ∧
  (∀ (s : State) (n f l : Nat), s.log.mem.wf = true → s.log.coal = some (n, f, l) → s.log.busyUntil ≤ s.now →
    s.log.offset.toNat % 64 = 0 →
    ∃ t, exec .logCoalesced s = .next t ∧ t.log.coal = none ∧ t.log.records = s.log.records + 1 ∧ s.now < t.log.busyUntil ∧
      t.log.offset.toNat = (s.log.offset.toNat + 64) % 65536 ∧ t.log.coalTotal = s.log.coalTotal ∧
      t.log.mem.readBytes s.log.offset.toNat 64 =
        padTo 64 (leBytes 2 0x0A11 ++ [1, 0] ++ leBytes 4 s.log.records.toNat ++ leBytes 8 s.now ++ leBytes 4 n ++ leBytes 2 f ++
          leBytes 2 l) ∧
      (∀ a, a < s.log.offset.toNat ∨ s.log.offset.toNat + 64 ≤ a → t.log.mem.read a = s.log.mem.read a) ∧
      t = { s with log := t.log, glb := t.glb, pcie := t.pcie } ∧
      ∀ code ctx w data, (t.event code ctx w true data).log.coal = some (1, code, code) ∧
        (t.event code ctx w true data).log.mem = t.log.mem) ∧
  ∀ s : State, s.log.coal = none → exec .logCoalesced s = .next s

/-- A rise of VIN that is not over-voltage begins a power-up: OFF with every reach off, an empty log, a cleared trace sink, a status map of no sequence. TOWPATH comes up with its reach alone; where PERST_L is released BOOT begins, SYSTIME 0. A fall of VIN, an over-voltage and an assertion of PERST_L leave only TOWPATH powered, no run, ring, mailbox command,
cargo or region, and DRAM cleared; NOR and the host's memory stay, and so does the log but at a rise of VIN; VIN loss leaves OFF, its hold-up charge spent TOWPATH too is off. A release of PERST_L begins BOOT while VIN and TOWPATH stand, in common-clock or SRIS mode as the reference balls are (log entry 179, the model's choice). A repeated level changes nothing. -/
def Obligations.SupplyAndPerst : Prop :=
  ∀ s : State,
    let cleared (t : State) : Prop := t.dram = Mem.empty ∧ t.poison = [] ∧ t.sched = Sched.reset ∧ t.rings = [] ∧ t.barges = [] ∧
      t.cargos = [] ∧ t.jobs = [] ∧ t.cfg = Cfg.reset ∧ t.fw = Fw.reset ∧ t.ctxs = [(0, Ctx.zero)] ∧
      (∀ m : Fin 8, t.mboxes[m] = Mbox.reset) ∧ (∀ p : Fin 4, t.parts[p].regions = [] ∧ t.clusters[p] = Cluster.init ∧ t.dsps[p] = Dsp.reset) ∧
      t.nor = s.nor ∧ t.host = s.host ∧ t.pending = s.pending ∧ t.dev.index = 0xFF
    let booting (t : State) : Prop := t.dev.state = .boot ∧ t.dev.systime = 0 ∧ t.log = LogSt.reset ∧ t.status = StatusSt.reset ∧
      t.trc.epoch = s.trc.epoch + 1 ∧ t.trc.sink = s.trc.sink
    (s.dev.vin = false → s.dev.vinOver = false → ∃ t, exec .vinRise s = .next t ∧ cleared t ∧ t.dev.state = .off ∧ t.dev.powered = 0 ∧
      t.dev.vin = true ∧ t.dev.towpath = false ∧ t.dev.perst = s.dev.perst ∧ t.log = LogSt.reset ∧ t.trc.sink = Mem.empty ∧
      t.trc.cnt = [] ∧ ∀ a, a < 64 → t.status.map.le (2 * a) 2 = if a = 0 then 0x4800 else if a = 1 then 0x0100 else 0) ∧
    ((s.dev.vin = true ∨ s.dev.vinOver = true) → exec .vinRise s = .next s) ∧
    (s.dev.vin = true → s.dev.towpath = false →
      (s.dev.perst = true → exec .towpathUp s = .next { s with dev := { s.dev with towpath := true, powered := 1 } }) ∧
      (s.dev.perst = false → ∃ t, exec .towpathUp s = .next t ∧ booting t ∧ t.dev.towpath = true ∧ t.dev.powered = 1 ∧ t.dram = s.dram ∧
        t.nor = s.nor)) ∧
    (s.dev.vin = true →
      let lost (t : State) : Prop := cleared t ∧ t.dev.state = .off ∧ t.dev.vin = false ∧ t.dev.towpath = s.dev.towpath ∧
        t.dev.powered = (if s.dev.towpath then 1 else 0) ∧ t.dev.perst = s.dev.perst ∧ t.dev.systime = s.dev.systime ∧ t.log = s.log
      (∃ t, exec .vinFall s = .next t ∧ lost t ∧ t.dev.vinOver = s.dev.vinOver) ∧
      ∃ t, exec .vinOvervoltage s = .next t ∧ lost t ∧ t.dev.vinOver = true) ∧
    (s.dev.vin = false → exec .vinFall s = .next s ∧
      exec .vinOvervoltage s = .next { s with dev := { s.dev with vinOver := true } }) ∧
    exec .vinOvervoltageClear s = .next { s with dev := { s.dev with vinOver := false } } ∧
    (s.dev.vin = false → s.dev.towpath = true → ∃ t, exec .holdUpChargeSpent s = .next t ∧ t.dev = { s.dev with towpath := false, powered := 0 } ∧
      t.trc.sink = Mem.empty ∧ t.nor = s.nor ∧ t = { s with dev := t.dev, trc := t.trc }) ∧
    (s.dev.vin = true ∨ s.dev.towpath = false → exec .holdUpChargeSpent s = .next s) ∧
    (s.dev.perst = false →
      (s.dev.state ≠ .off → ∃ t, exec .perstLAssert s = .next t ∧ cleared t ∧ t.dev.perst = true ∧ t.dev.vin = s.dev.vin ∧
        t.dev.powered = (if s.dev.towpath then 1 else 0) ∧ t.log = s.log ∧ t.trc.epoch = s.trc.epoch ∧
        ∀ r : Fin 10, t.trc.unit[r].filter = 0x80000000) ∧
      (s.dev.state = .off → exec .perstLAssert s = .next { s with dev := { s.dev with perst := true } })) ∧
    (s.dev.perst = true → exec .perstLAssert s = .next s ∧
      (s.dev.vin = true → s.dev.towpath = true → ∃ t, exec .perstLRelease s = .next t ∧ booting t ∧ t.dev.perst = false ∧ t.dram = s.dram ∧
        t.nor = s.nor ∧ t.dev.powered = s.dev.powered ∧ t.dev.index = s.dev.index) ∧
      (s.dev.vin = false ∨ s.dev.towpath = false → ∃ c, exec .perstLRelease s = .next
        { s with dev := { s.dev with perst := false }, fresh := s.fresh + 1, pcie := { s.pcie with sris := c } })) ∧
    (s.dev.perst = false → exec .perstLRelease s = .next s)

/-- A unit that has produced packets writes a SYNC when its period is over, and a pending LOST once it has been quiet for 40 ns, of 1 unit, followed by a SYNC, and nothing is lost after it. TRC_CTRL.clear empties the sink, its head and the loss counts; TRC_CNT_SNAP copies every counter; TRC_CNT_CLEAR clears counters and snapshots; TRC_CLIP_SEL captures
the slot it names, or valid 0 and zeros; a changed layer watcher selection clears its counters. While TOWPATH is up, a JTAG command selects its instruction; EXTEST, CLAMP and HIGHZ drive the balls only while PERST_L is asserted; SAMPLE/PRELOAD loads the boundary register; DBG_ADDR and DBG_DATA read the sink, the status map and the log, 4 bytes further each time. -/
def Obligations.TraceIsControlledAndRead : Prop :=
  (∀ (s : State) (r : Fin 10), s.trc.unit[r].filter.getLsbD 31 = true → s.on r.val = true →
    let u := s.trc.unit[r]
    let only (t : State) : Prop := t = { s with trc := { s.trc with unit := t.trc.unit } } ∧ ∀ q : Fin 10, q ≠ r → t.trc.unit[q] = s.trc.unit[q]
    (s.dev.towpath = true → 0 < s.trc.syncPeriod → u.lastSync + 1000 * s.trc.syncPeriod ≤ s.now → u.lastSync < u.last →
      ∃ t p, exec (.traceSyncPeriod r) s = .next t ∧ only t ∧ t.trc.unit[r].fifo = u.fifo ++ [p] ∧ p.length = 64 ∧
        p.take 4 = [1, BitVec.ofNat 8 r.val, 4, u.seq] ∧ t.trc.unit[r].lastSync = s.now ∧ t.trc.unit[r].seq = u.seq + 1) ∧
    (∀ n t0, u.lost = some (n, t0) → fifoUnits u.fifo < 256 → s.trc.refuses = false → u.last + 40 ≤ s.now →
      ∃ t p q, exec (.traceLostWrite r) s = .next t ∧ only t ∧ t.trc.unit[r].fifo = u.fifo ++ [p, q] ∧ t.trc.unit[r].lost = none ∧
        p = leBytes 1 4 ++ leBytes 1 r.val ++ [1, u.seq] ++ leBytes 4 n ++ leBytes 8 t0 ∧ q.length = 64) ∧
    (u.lost = none → exec (.traceLostWrite r) s = .next s)) ∧
  (∀ s : State, s.supervised = true → s.on 3 = true →
    let only (t : State) : Prop := t = { s with fresh := t.fresh, trc := t.trc }
    (∃ t, exec .trcCtrlClear s = .next t ∧ only t ∧ t.trc.sink = Mem.empty ∧ t.trc.head = 0 ∧ t.trc.dropped = 0 ∧
      (∀ r : Fin 10, t.trc.unit[r] = { s.trc.unit[r] with lostClear := 0 }) ∧ t.trc.cnt = s.trc.cnt ∧ t.trc.enable = s.trc.enable) ∧
    (∃ t, exec .trcCntSnap s = .next t ∧ only t ∧ t.trc.cnt = s.trc.cnt ∧
      ∀ n, timedCounter n = false → assoc t.trc.snap n = assoc s.trc.cnt n) ∧
    (∃ t, exec .trcCntClear s = .next t ∧ only t ∧ ∀ n : Fin 324, t.read32 (0x601000 + 8 * n.val) = 0 ∧ t.read32 (0x601004 + 8 * n.val) = 0) ∧
    (∀ v : W32, let c : Fin 4 := Fin.ofNat 4 (v.toNat / 2 ^ 24 % 4)
      let slot := s.clusters[c].slots.find? (fun x => x.num = v.toNat % 512)
      ∃ t, exec (.trcClipSelWrite v) s = .next t ∧ t = { s with trc := { s.trc with clip := t.trc.clip } } ∧
        t.trc.clip.sel = v &&& 0x030001FF ∧
        ((s.clusterUp c = false ∨ slot = none) → t.trc.clip = { ClipRegs.reset with sel := v &&& 0x030001FF }) ∧
        ∀ x, s.clusterUp c = true → slot = some x → t.trc.clip.ceil = x.ceiling ∧ t.trc.clip.cal = x.cCal ∧
          (x.hist.length ≤ 16 → x.streak ≤ 63 → t.trc.clip.state.getLsbD 31 = true) ∧ t.trc.clip.clipped = x.lastClipped ∧ t.trc.clip.total = x.lastTotal ∧
          t.trc.clip.steps = x.steps ∧ t.trc.clip.share = x.lastShare ∧ t.trc.clip.max = x.hist.headD 0) ∧
    ∀ (w : Fin 8) (v : W32), ∃ t, exec (.trcLwSelWrite w v) s = .next t ∧ only t ∧ t.trc.lw[w] = v &&& 0x83FFFFFF ∧
      (∀ k : Fin 8, k ≠ w → t.trc.lw[k] = s.trc.lw[k]) ∧
      (s.trc.lw[w] ≠ v &&& 0x83FFFFFF → ∀ n, assoc t.trc.cnt n =
        if 256 + 8 * w.val ≤ n ∧ n < 264 + 8 * w.val then none else assoc s.trc.cnt n) ∧
      (s.trc.lw[w] = v &&& 0x83FFFFFF → t = s)) ∧
  ∀ s : State, s.dev.towpath = true →
    let only (t : State) : Prop := t = { s with jtag := t.jtag }
    let drives (t : State) (b : BallDrive) : Prop := t.balls = if s.dev.perst then b else .device
    (∃ t, exec .jtagTestLogicReset s = .next t ∧ t = { s with jtag := { s.jtag with ir := 0xFF } } ∧ t.balls = .device) ∧
    (∃ t, exec .jtagBypass s = .next t ∧ t = { s with jtag := { s.jtag with ir := 0xFF, bypass := false } } ∧ t.balls = .device) ∧
    (∀ l, ∃ t, exec (.extest l) s = .next t ∧ only t ∧ t.jtag.ir = 0 ∧ drives t .boundary ∧
      t.jtag.cells = if s.dev.perst then l else s.jtag.cells) ∧
    (∀ l, ∃ t, exec (.samplePreload l) s = .next t ∧ t = { s with jtag := { s.jtag with ir := 1, cells := l } } ∧ t.balls = .device) ∧
    (∃ t, exec .clamp s = .next t ∧ only t ∧ t.jtag.cells = s.jtag.cells ∧ drives t .boundary) ∧
    (∃ t, exec .highz s = .next t ∧ only t ∧ t.jtag.cells = s.jtag.cells ∧ drives t .highZ) ∧
    (∀ v, exec (.dbgAddr v) s = .next { s with jtag := { s.jtag with ir := 0x20, addr := v } }) ∧
    (s.dev.state ≠ .off → let a := s.jtag.addr.toNat
      let off := a / 4 % 0x8000 * 4
      ∃ t, exec .dbgDataCapture s = .next t ∧ only t ∧ t.jtag.addr = s.jtag.addr ∧
        (a / 2 ^ 30 = 0 → t.jtag.data.toNat = s.trc.sink.le off 4) ∧
        (a / 2 ^ 30 = 1 → s.dev.perst = false → t.jtag.data.toNat = s.status.map.le (off % 1024 / 2) 2) ∧
        (a / 2 ^ 30 = 2 → t.jtag.data.toNat = s.log.mem.le (off % 65536) 4) ∧ (a / 2 ^ 30 = 3 → t.jtag.data = 0)) ∧
    (s.dev.state = .off → ∃ t, exec .dbgDataCapture s = .next t ∧ t = { s with fresh := s.fresh + 1, jtag := t.jtag } ∧
      t.jtag.addr = s.jtag.addr) ∧
    ∃ t, exec .dbgDataUpdate s = .next t ∧ only t ∧ t.jtag.data = s.jtag.data ∧
      t.jtag.addr.toNat / 2 ^ 30 = s.jtag.addr.toNat / 2 ^ 30 ∧
      t.jtag.addr.toNat % 0x20000 = (s.jtag.addr.toNat / 4 % 0x8000 * 4 + 4) % dbgSize (s.jtag.addr.toNat / 2 ^ 30)

/-- At reset, PERST_L just released (log entry 1): BOOT, TOWPATH alone powered, SYSTIME 0, no index, no run, ring, cargo, region, barge or command waiting; locks 0, every mailbox FREE, interrupt causes and enables 0, the status map with its signature and version, every memory canonical. Its next step, on the empty queue, completes, as does the boot ROM's run, which leads to RECOVERY from an erased NOR,
provided that erased copies of the boot record and erased slots do not verify. -/
def Obligations.ResetState : Prop :=
  let s := State.reset
  s.dev.state = .boot ∧ s.dev.powered = 1 ∧ s.dev.systime = 0 ∧ s.dev.index = 0xFF ∧ s.dev.perst = false ∧ s.pending = [] ∧
    s.sched.runs = [] ∧ s.sched.running = false ∧ s.rings = [] ∧ s.cargos = [] ∧ s.barges = [] ∧ s.jobs = [] ∧ s.cfg.committed = [] ∧
    s.glb.cause = 0 ∧ s.glb.enable = 0 ∧ s.glb.err = 0 ∧ s.pcie.busMaster = false ∧ s.log.offset = 0 ∧ s.log.records = 0 ∧
    (∀ m : Fin 8, s.mboxes[m].st = 0 ∧ s.mboxes[m].taken = none) ∧
    (∀ c : Fin 4, s.parts[c].regions = [] ∧ s.clusters[c].reset = none ∧ ∀ l : Nat, l < 1024 → s.clusters[c].keeper.level l = 0) ∧
    (∀ r : Fin 10, s.on r.val = true ↔ r = 0) ∧
    (∀ n : Fin 324, s.read32 (0x601000 + 8 * n.val) = 0xFFFFFFFF) ∧ s.status.map.le 0 2 = 0x4800 ∧ s.status.map.le 2 2 = 0x0100 ∧
    s.outerCanonical ∧ s.clustersCanonical ∧ s.dspsCanonical ∧ s.stepsSafely ∧
    (s.bootCurrent = none → (∀ x, s.verifySlot x true ≠ none) →
      ∃ t, exec .bootRomRun s = .next t ∧ t.dev.state = .recovery ∧ t.on 3 = true ∧ t.fw.slot = 0xFF)

/-- For every command at the front of the queue and every state whose DRAM, host memory and NOR are in canonical form (the model's own form of memory): if the step answers a next state, the queue holds exactly the commands that stood behind it, in their order, and the three memories are in canonical form again. -/
def Obligations.EveryStepTakesOneCommandAndKeepsMemory : Prop :=
  ∀ (s t : State) (c : Instr) (rest : List Instr), s.pending = c :: rest → s.outerCanonical → step s = .next t →
    t.pending = rest ∧ t.outerCanonical
end

