-- ==== Sys2Proof/Laws/Mem.lean ====
section
/-! SUPPORT. The laws of sparse memory: a read after a write gives what was written there and leaves every other byte alone, and
every operation keeps the canonical form. -/

namespace Sys2Proof.Laws
open Sys2Proof.Machine

/-- What a search meets after an insertion. -/
theorem find_insert (l : List Host.Cell) (a b : Nat) (v : Byte) (h : l.Pairwise (fun c d => c.1 < d.1)) :
    Mem.find (Mem.insert l a v) b = if b = a then some v else Mem.find l b := by
  induction l with
  | nil => simp [Mem.insert, Mem.find]
  | cons c t ih =>
    obtain ⟨x, w⟩ := c
    have ih := ih h.tail
    unfold Mem.insert
    split
    · by_cases e : b = a <;> simp [Mem.find, e]
    · split
      · rename_i ax
        subst ax
        by_cases e : b = a <;> simp [Mem.find, e]
      · by_cases e : b = x
        · subst e
          have : b ≠ a := by omega
          simp [Mem.find, this]
        · simp [Mem.find, e, ih]

/-- What a search meets after a removal. -/
theorem find_erase (l : List Host.Cell) (a b : Nat) :
    Mem.find (Mem.erase l a) b = if b = a then none else Mem.find l b := by
  induction l with
  | nil => simp [Mem.erase, Mem.find]
  | cons c t ih =>
    obtain ⟨x, w⟩ := c
    by_cases e : x = a
    · subst e
      have : Mem.erase ((x, w) :: t) x = Mem.erase t x := by simp [Mem.erase]
      rw [this, ih]
      by_cases f : b = x <;> simp [Mem.find, f]
    · have : Mem.erase ((x, w) :: t) a = (x, w) :: Mem.erase t a := by simp [Mem.erase, e]
      rw [this, Mem.find, ih]
      by_cases f : b = x
      · subst f; simp [Mem.find, e]
      · simp [Mem.find, f]

/-- The canonical form, in words of logic. -/
theorem wf_iff (m : Mem) : m.wf = true ↔
    m.cells.Pairwise (fun c d => c.1 < d.1) ∧ ∀ c ∈ m.cells, ¬ (c.2 = 0 ∧ Mem.epochAt m.bg c.1 = none) := by
  unfold Mem.wf
  rw [Bool.and_eq_true, List.all_eq_true]
  exact and_congr decide_eq_true_iff (forall_congr' fun c => forall_congr' fun _ => decide_eq_true_iff)

/-- Cells of a memory in canonical form stand in rising order. -/
theorem wf_sorted {m : Mem} (h : m.wf = true) : m.cells.Pairwise (fun c d => c.1 < d.1) := by
  exact ((wf_iff m).1 h).1

/-- A read after a one-byte write. -/
theorem read_write (m : Mem) (a b : Nat) (v : Byte) (h : m.wf = true) :
    (m.write a v).read b = if b = a then v else m.read b := by
  unfold Mem.write
  split
  · rename_i e
    simp only [Mem.read, find_erase, Mem.unlisted]
    by_cases f : b = a
    · subst f; simp [e.1, e.2]
    · simp [f]
  · simp only [Mem.read, find_insert _ _ _ _ (wf_sorted h), Mem.unlisted]
    by_cases f : b = a <;> simp [f]

/-- Membership of an insertion. -/
theorem mem_insert {l : List Host.Cell} {a : Nat} {v : Byte} {c : Host.Cell} (h : c ∈ Mem.insert l a v) :
    c = (a, v) ∨ c ∈ l := by
  induction l with
  | nil => simpa [Mem.insert] using h
  | cons d t ih =>
    obtain ⟨x, w⟩ := d
    unfold Mem.insert at h
    split at h
    · simpa using h
    · split at h
      · rcases List.mem_cons.1 h with h | h <;> simp [h]
      · rcases List.mem_cons.1 h with h | h
        · simp [h]
        · rcases ih h with h | h <;> simp [h]

/-- An insertion keeps the rising order. -/
theorem insert_sorted (l : List Host.Cell) (a : Nat) (v : Byte) (h : l.Pairwise (fun c d => c.1 < d.1)) :
    (Mem.insert l a v).Pairwise (fun c d => c.1 < d.1) := by
  induction l with
  | nil => simp [Mem.insert]
  | cons d t ih =>
    obtain ⟨x, w⟩ := d
    have hx := List.pairwise_cons.1 h
    unfold Mem.insert
    split
    · refine List.pairwise_cons.2 ⟨?_, h⟩
      intro c hc
      rcases List.mem_cons.1 hc with hc | hc
      · subst hc; assumption
      · have := hx.1 c hc; simp at this ⊢; omega
    · split
      · subst_vars
        exact List.pairwise_cons.2 ⟨hx.1, hx.2⟩
      · refine List.pairwise_cons.2 ⟨?_, ih hx.2⟩
        intro c hc
        rcases mem_insert hc with hc | hc
        · subst hc; simp; omega
        · exact hx.1 c hc

/-- A one-byte write keeps the canonical form. -/
theorem wf_write (m : Mem) (a : Nat) (v : Byte) (h : m.wf = true) : (m.write a v).wf = true := by
  have hs := wf_sorted h
  have hz := ((wf_iff m).1 h).2
  unfold Mem.write
  split
  · rw [wf_iff]
    exact ⟨hs.filter _, fun c hc => hz c (List.mem_filter.1 hc).1⟩
  · rename_i e
    rw [wf_iff]
    refine ⟨insert_sorted _ _ _ hs, fun c hc => ?_⟩
    rcases mem_insert hc with hc | hc
    · subst hc; exact e
    · exact hz c hc

/-- A write of bytes keeps the canonical form. -/
theorem wf_writeBytes (l : List Byte) (m : Mem) (a : Nat) (h : m.wf = true) : (m.writeBytes a l).wf = true := by
  induction l generalizing m a with
  | nil => exact h
  | cons v t ih => exact ih _ _ (wf_write m a v h)

/-- A little-endian write keeps the canonical form. -/
theorem wf_putLe (m : Mem) (a n v : Nat) (h : m.wf = true) : (m.putLe a n v).wf = true := wf_writeBytes _ _ _ h

/-- A byte outside the bytes written reads as before. -/
theorem read_writeBytes_out (l : List Byte) (m : Mem) (a b : Nat) (h : m.wf = true) (o : b < a ∨ a + l.length ≤ b) :
    (m.writeBytes a l).read b = m.read b := by
  induction l generalizing m a with
  | nil => rfl
  | cons v t ih =>
    simp only [List.length_cons] at o
    rw [Mem.writeBytes, ih _ _ (wf_write m a v h) (by omega), read_write m a b v h, if_neg (by omega)]

/-- A byte written reads as written. -/
theorem read_writeBytes_in (l : List Byte) (m : Mem) (a i : Nat) (h : m.wf = true) (hi : i < l.length) :
    (m.writeBytes a l).read (a + i) = l[i] := by
  induction l generalizing m a i with
  | nil => simp at hi
  | cons v t ih =>
    cases i with
    | zero =>
      rw [Mem.writeBytes, read_writeBytes_out _ _ _ _ (wf_write m a v h) (by omega), read_write m a _ v h]
      simp
    | succ k =>
      have := ih (m.write a v) (a + 1) k (wf_write m a v h) (by simpa using hi)
      simpa [Mem.writeBytes, Nat.add_assoc, Nat.add_comm 1 k] using this

/-- The bytes of a value have its length. -/
@[simp] theorem leBytes_length (n v : Nat) : (leBytes n v).length = n := by
  induction n generalizing v with
  | zero => rfl
  | succ k ih => simp [leBytes, ih]

/-- A value comes back from its bytes. -/
theorem leVal_leBytes (n v : Nat) : leVal (leBytes n v) = v % 256 ^ n := by
  induction n generalizing v with
  | zero => simp [leBytes, leVal, Nat.mod_one]
  | succ k ih =>
    have e : 256 ^ (k + 1) = 256 * 256 ^ k := by rw [Nat.pow_succ, Nat.mul_comm]
    show (BitVec.ofNat 8 v).toNat + 256 * leVal (leBytes k (v / 256)) = _
    rw [ih, BitVec.toNat_ofNat, e, Nat.mod_mul]

/-- The bytes read where bytes were written. -/
theorem readBytes_writeBytes (l : List Byte) (m : Mem) (a : Nat) (h : m.wf = true) :
    (m.writeBytes a l).readBytes a l.length = l := by
  apply List.ext_getElem
  · simp [Mem.readBytes]
  · intro i h1 h2
    simp [Mem.readBytes, read_writeBytes_in l m a i h h2]

/-- A little-endian read where a value was written. -/
theorem le_putLe (m : Mem) (a n v : Nat) (h : m.wf = true) : (m.putLe a n v).le a n = v % 256 ^ n := by
  have := readBytes_writeBytes (leBytes n v) m a h
  rw [leBytes_length] at this
  rw [Mem.le, Mem.putLe, this, leVal_leBytes]

/-- Memory with nothing listed is in canonical form. -/
theorem wf_empty : Mem.empty.wf = true := by decide

/-- The epoch of an address outside a removed range. -/
theorem epochAt_filter (l : List Bg) (lo len a : Nat) (h : ¬ (lo ≤ a ∧ a < lo + len)) :
    Mem.epochAt (l.filter (fun b => ¬ (lo ≤ b.lo ∧ b.lo + b.len ≤ lo + len))) a = Mem.epochAt l a := by
  induction l with
  | nil => rfl
  | cons b t ih =>
    rw [List.filter_cons]
    split
    · simp only [Mem.epochAt]; rw [ih]
    · rename_i e
      have e' : lo ≤ b.lo ∧ b.lo + b.len ≤ lo + len := by
        simpa using e
      rw [ih]; simp only [Mem.epochAt]; rw [if_neg (by omega)]

/-- A range that becomes zero leaves the canonical form. -/
theorem wf_zero (m : Mem) (lo len : Nat) (h : m.wf = true) : (m.zero lo len).wf = true := by
  have hs := wf_sorted h
  have hz := ((wf_iff m).1 h).2
  rw [wf_iff]
  refine ⟨hs.filter _, fun c hc => ?_⟩
  obtain ⟨hm, ho⟩ := List.mem_filter.1 hc
  have hr : ¬ (lo ≤ c.1 ∧ c.1 < lo + len) := by
    intro hn; simp [inRange, hn] at ho
  have := hz c hm
  simp only [Mem.zero]
  split
  · simp only [Mem.epochAt]; rw [if_neg hr, epochAt_filter _ _ _ _ hr]; exact this
  · rw [epochAt_filter _ _ _ _ hr]; exact this

/-- A range that becomes undefined leaves the canonical form. -/
theorem wf_junk (m : Mem) (lo len k : Nat) (h : m.wf = true) : (m.junk lo len k).wf = true := by
  have hs := wf_sorted h
  have hz := ((wf_iff m).1 h).2
  rw [wf_iff]
  refine ⟨hs.filter _, fun c hc => ?_⟩
  obtain ⟨hm, ho⟩ := List.mem_filter.1 hc
  have hr : ¬ (lo ≤ c.1 ∧ c.1 < lo + len) := by
    intro hn; simp [inRange, hn] at ho
  simp only [Mem.junk, Mem.epochAt]
  rw [if_neg hr, epochAt_filter _ _ _ _ hr]
  exact hz c hm

/-- The epoch of an address under ranges cut to a range that does not hold it. -/
theorem epochAt_clip_out (l r : List Bg) (lo len a : Nat) (h : ¬ (lo ≤ a ∧ a < lo + len)) :
    Mem.epochAt (l.map (Bg.clip lo len) ++ r) a = Mem.epochAt r a := by
  induction l with
  | nil => rfl
  | cons b t ih =>
    simp only [List.map_cons, List.cons_append, Mem.epochAt, Bg.clip]
    rw [if_neg (by omega)]; exact ih

/-- The epoch of an address under ranges cut to a range that holds it. -/
theorem epochAt_clip_in (l r : List Bg) (lo len a : Nat) (h : lo ≤ a ∧ a < lo + len) (hr : Mem.epochAt r a = none) :
    Mem.epochAt (l.map (Bg.clip lo len) ++ r) a = Mem.epochAt l a := by
  induction l with
  | nil => exact hr
  | cons b t ih =>
    simp only [List.map_cons, List.cons_append, Mem.epochAt, Bg.clip]
    by_cases e : b.lo ≤ a ∧ a < b.lo + b.len
    · rw [if_pos (by omega), if_pos e]
    · rw [if_neg (by omega), if_neg e]; exact ih

/-- The epochs of a memory into which a range was copied. -/
theorem epochAt_copyFrom (m src : Mem) (lo len a : Nat) :
    Mem.epochAt (m.copyFrom src lo len).bg a =
      if lo ≤ a ∧ a < lo + len then Mem.epochAt src.bg a else Mem.epochAt m.bg a := by
  unfold Mem.copyFrom
  split
  · rename_i h
    exact epochAt_clip_in _ _ _ _ _ h (by simp [Mem.epochAt, h])
  · rename_i h
    rw [epochAt_clip_out _ _ _ _ _ h]
    simp [Mem.epochAt, h]

/-- Insertions keep the rising order. -/
theorem foldl_insert_sorted (l k : List Host.Cell) (h : k.Pairwise (fun c d => c.1 < d.1)) :
    (l.foldl (fun l c => Mem.insert l c.1 c.2) k).Pairwise (fun c d => c.1 < d.1) := by
  induction l generalizing k with
  | nil => exact h
  | cons c t ih => exact ih _ (insert_sorted _ _ _ h)

/-- Membership after insertions. -/
theorem mem_foldl_insert (l k : List Host.Cell) (c : Host.Cell)
    (h : c ∈ l.foldl (fun l c => Mem.insert l c.1 c.2) k) : c ∈ l ∨ c ∈ k := by
  induction l generalizing k with
  | nil => exact Or.inr h
  | cons d t ih =>
    rcases ih _ h with h | h
    · exact Or.inl (List.mem_cons_of_mem _ h)
    · rcases mem_insert h with h | h
      · exact Or.inl (by rw [h]; exact List.mem_cons_self)
      · exact Or.inr h

/-- A copied range leaves the canonical form. -/
theorem wf_copyFrom (m src : Mem) (lo len : Nat) (h : m.wf = true) (hs : src.wf = true) :
    (m.copyFrom src lo len).wf = true := by
  have h1 := (wf_iff m).1 h
  have h2 := (wf_iff src).1 hs
  rw [wf_iff]
  refine ⟨foldl_insert_sorted _ _ (h1.1.filter _), fun c hc => ?_⟩
  rw [epochAt_copyFrom]
  rcases mem_foldl_insert _ _ _ hc with hc | hc
  · obtain ⟨hm, hr⟩ := List.mem_filter.1 hc
    have hr : lo ≤ c.1 ∧ c.1 < lo + len := by simpa [inRange] using hr
    rw [if_pos hr]; exact h2.2 c hm
  · obtain ⟨hm, hr⟩ := List.mem_filter.1 hc
    have hr : ¬ (lo ≤ c.1 ∧ c.1 < lo + len) := by intro hn; simp [inRange, hn] at hr
    rw [if_neg hr]; exact h1.2 c hm

end Sys2Proof.Laws
end

