-- ==== Sys2Proof/Laws/State.lean ====
section
/-! SUPPORT. One lemma for each field under each update of one part of the state, true by unfolding, so that no later proof unfolds
a record update. -/

namespace Sys2Proof.Laws
open Sys2Proof.Machine

@[simp] theorem modCl_pending (s : State) (c : Fin 4) (f : Cluster → Cluster) : (s.modCl c f).pending = s.pending := rfl
@[simp] theorem modCl_fresh (s : State) (c : Fin 4) (f : Cluster → Cluster) : (s.modCl c f).fresh = s.fresh := rfl
@[simp] theorem modCl_epoch (s : State) (c : Fin 4) (f : Cluster → Cluster) : (s.modCl c f).epoch = s.epoch := rfl
@[simp] theorem modCl_dev (s : State) (c : Fin 4) (f : Cluster → Cluster) : (s.modCl c f).dev = s.dev := rfl
@[simp] theorem modCl_cfg (s : State) (c : Fin 4) (f : Cluster → Cluster) : (s.modCl c f).cfg = s.cfg := rfl
@[simp] theorem modCl_sched (s : State) (c : Fin 4) (f : Cluster → Cluster) : (s.modCl c f).sched = s.sched := rfl
@[simp] theorem modCl_globalLocks (s : State) (c : Fin 4) (f : Cluster → Cluster) : (s.modCl c f).globalLocks = s.globalLocks := rfl
@[simp] theorem modCl_globalIn (s : State) (c : Fin 4) (f : Cluster → Cluster) : (s.modCl c f).globalIn = s.globalIn := rfl
@[simp] theorem modCl_barges (s : State) (c : Fin 4) (f : Cluster → Cluster) : (s.modCl c f).barges = s.barges := rfl
@[simp] theorem modCl_nextBid (s : State) (c : Fin 4) (f : Cluster → Cluster) : (s.modCl c f).nextBid = s.nextBid := rfl
@[simp] theorem modCl_cargos (s : State) (c : Fin 4) (f : Cluster → Cluster) : (s.modCl c f).cargos = s.cargos := rfl
@[simp] theorem modCl_dram (s : State) (c : Fin 4) (f : Cluster → Cluster) : (s.modCl c f).dram = s.dram := rfl
@[simp] theorem modCl_host (s : State) (c : Fin 4) (f : Cluster → Cluster) : (s.modCl c f).host = s.host := rfl
@[simp] theorem modCl_poison (s : State) (c : Fin 4) (f : Cluster → Cluster) : (s.modCl c f).poison = s.poison := rfl
@[simp] theorem modCl_parts (s : State) (c : Fin 4) (f : Cluster → Cluster) : (s.modCl c f).parts = s.parts := rfl
@[simp] theorem modCl_ctxs (s : State) (c : Fin 4) (f : Cluster → Cluster) : (s.modCl c f).ctxs = s.ctxs := rfl
@[simp] theorem modCl_used (s : State) (c : Fin 4) (f : Cluster → Cluster) : (s.modCl c f).used = s.used := rfl
@[simp] theorem modCl_period (s : State) (c : Fin 4) (f : Cluster → Cluster) : (s.modCl c f).period = s.period := rfl
@[simp] theorem modCl_rings (s : State) (c : Fin 4) (f : Cluster → Cluster) : (s.modCl c f).rings = s.rings := rfl
@[simp] theorem modCl_mboxes (s : State) (c : Fin 4) (f : Cluster → Cluster) : (s.modCl c f).mboxes = s.mboxes := rfl
@[simp] theorem modCl_posts (s : State) (c : Fin 4) (f : Cluster → Cluster) : (s.modCl c f).posts = s.posts := rfl
@[simp] theorem modCl_pcie (s : State) (c : Fin 4) (f : Cluster → Cluster) : (s.modCl c f).pcie = s.pcie := rfl
@[simp] theorem modCl_glb (s : State) (c : Fin 4) (f : Cluster → Cluster) : (s.modCl c f).glb = s.glb := rfl
@[simp] theorem modCl_status (s : State) (c : Fin 4) (f : Cluster → Cluster) : (s.modCl c f).status = s.status := rfl
@[simp] theorem modCl_log (s : State) (c : Fin 4) (f : Cluster → Cluster) : (s.modCl c f).log = s.log := rfl
@[simp] theorem modCl_img (s : State) (c : Fin 4) (f : Cluster → Cluster) : (s.modCl c f).img = s.img := rfl
@[simp] theorem modCl_aud (s : State) (c : Fin 4) (f : Cluster → Cluster) : (s.modCl c f).aud = s.aud := rfl
@[simp] theorem modCl_dsps (s : State) (c : Fin 4) (f : Cluster → Cluster) : (s.modCl c f).dsps = s.dsps := rfl
@[simp] theorem modCl_link (s : State) (c : Fin 4) (f : Cluster → Cluster) : (s.modCl c f).link = s.link := rfl
@[simp] theorem modCl_time (s : State) (c : Fin 4) (f : Cluster → Cluster) : (s.modCl c f).time = s.time := rfl
@[simp] theorem modCl_pwr (s : State) (c : Fin 4) (f : Cluster → Cluster) : (s.modCl c f).pwr = s.pwr := rfl
@[simp] theorem modCl_casc (s : State) (c : Fin 4) (f : Cluster → Cluster) : (s.modCl c f).casc = s.casc := rfl
@[simp] theorem modCl_health (s : State) (c : Fin 4) (f : Cluster → Cluster) : (s.modCl c f).health = s.health := rfl
@[simp] theorem modCl_nor (s : State) (c : Fin 4) (f : Cluster → Cluster) : (s.modCl c f).nor = s.nor := rfl
@[simp] theorem modCl_fw (s : State) (c : Fin 4) (f : Cluster → Cluster) : (s.modCl c f).fw = s.fw := rfl
@[simp] theorem modCl_trc (s : State) (c : Fin 4) (f : Cluster → Cluster) : (s.modCl c f).trc = s.trc := rfl
@[simp] theorem modCl_jtag (s : State) (c : Fin 4) (f : Cluster → Cluster) : (s.modCl c f).jtag = s.jtag := rfl
@[simp] theorem modCl_jobs (s : State) (c : Fin 4) (f : Cluster → Cluster) : (s.modCl c f).jobs = s.jobs := rfl
@[simp] theorem modCl_adapters (s : State) (c : Fin 4) (f : Cluster → Cluster) : (s.modCl c f).adapters = s.adapters := rfl

@[simp] theorem modPart_pending (s : State) (p : Fin 4) (f : Part → Part) : (s.modPart p f).pending = s.pending := rfl
@[simp] theorem modPart_fresh (s : State) (p : Fin 4) (f : Part → Part) : (s.modPart p f).fresh = s.fresh := rfl
@[simp] theorem modPart_epoch (s : State) (p : Fin 4) (f : Part → Part) : (s.modPart p f).epoch = s.epoch := rfl
@[simp] theorem modPart_dev (s : State) (p : Fin 4) (f : Part → Part) : (s.modPart p f).dev = s.dev := rfl
@[simp] theorem modPart_cfg (s : State) (p : Fin 4) (f : Part → Part) : (s.modPart p f).cfg = s.cfg := rfl
@[simp] theorem modPart_sched (s : State) (p : Fin 4) (f : Part → Part) : (s.modPart p f).sched = s.sched := rfl
@[simp] theorem modPart_clusters (s : State) (p : Fin 4) (f : Part → Part) : (s.modPart p f).clusters = s.clusters := rfl
@[simp] theorem modPart_globalLocks (s : State) (p : Fin 4) (f : Part → Part) : (s.modPart p f).globalLocks = s.globalLocks := rfl
@[simp] theorem modPart_globalIn (s : State) (p : Fin 4) (f : Part → Part) : (s.modPart p f).globalIn = s.globalIn := rfl
@[simp] theorem modPart_barges (s : State) (p : Fin 4) (f : Part → Part) : (s.modPart p f).barges = s.barges := rfl
@[simp] theorem modPart_nextBid (s : State) (p : Fin 4) (f : Part → Part) : (s.modPart p f).nextBid = s.nextBid := rfl
@[simp] theorem modPart_cargos (s : State) (p : Fin 4) (f : Part → Part) : (s.modPart p f).cargos = s.cargos := rfl
@[simp] theorem modPart_dram (s : State) (p : Fin 4) (f : Part → Part) : (s.modPart p f).dram = s.dram := rfl
@[simp] theorem modPart_host (s : State) (p : Fin 4) (f : Part → Part) : (s.modPart p f).host = s.host := rfl
@[simp] theorem modPart_poison (s : State) (p : Fin 4) (f : Part → Part) : (s.modPart p f).poison = s.poison := rfl
@[simp] theorem modPart_ctxs (s : State) (p : Fin 4) (f : Part → Part) : (s.modPart p f).ctxs = s.ctxs := rfl
@[simp] theorem modPart_used (s : State) (p : Fin 4) (f : Part → Part) : (s.modPart p f).used = s.used := rfl
@[simp] theorem modPart_period (s : State) (p : Fin 4) (f : Part → Part) : (s.modPart p f).period = s.period := rfl
@[simp] theorem modPart_rings (s : State) (p : Fin 4) (f : Part → Part) : (s.modPart p f).rings = s.rings := rfl
@[simp] theorem modPart_mboxes (s : State) (p : Fin 4) (f : Part → Part) : (s.modPart p f).mboxes = s.mboxes := rfl
@[simp] theorem modPart_posts (s : State) (p : Fin 4) (f : Part → Part) : (s.modPart p f).posts = s.posts := rfl
@[simp] theorem modPart_pcie (s : State) (p : Fin 4) (f : Part → Part) : (s.modPart p f).pcie = s.pcie := rfl
@[simp] theorem modPart_glb (s : State) (p : Fin 4) (f : Part → Part) : (s.modPart p f).glb = s.glb := rfl
@[simp] theorem modPart_status (s : State) (p : Fin 4) (f : Part → Part) : (s.modPart p f).status = s.status := rfl
@[simp] theorem modPart_log (s : State) (p : Fin 4) (f : Part → Part) : (s.modPart p f).log = s.log := rfl
@[simp] theorem modPart_img (s : State) (p : Fin 4) (f : Part → Part) : (s.modPart p f).img = s.img := rfl
@[simp] theorem modPart_aud (s : State) (p : Fin 4) (f : Part → Part) : (s.modPart p f).aud = s.aud := rfl
@[simp] theorem modPart_dsps (s : State) (p : Fin 4) (f : Part → Part) : (s.modPart p f).dsps = s.dsps := rfl
@[simp] theorem modPart_link (s : State) (p : Fin 4) (f : Part → Part) : (s.modPart p f).link = s.link := rfl
@[simp] theorem modPart_time (s : State) (p : Fin 4) (f : Part → Part) : (s.modPart p f).time = s.time := rfl
@[simp] theorem modPart_pwr (s : State) (p : Fin 4) (f : Part → Part) : (s.modPart p f).pwr = s.pwr := rfl
@[simp] theorem modPart_casc (s : State) (p : Fin 4) (f : Part → Part) : (s.modPart p f).casc = s.casc := rfl
@[simp] theorem modPart_health (s : State) (p : Fin 4) (f : Part → Part) : (s.modPart p f).health = s.health := rfl
@[simp] theorem modPart_nor (s : State) (p : Fin 4) (f : Part → Part) : (s.modPart p f).nor = s.nor := rfl
@[simp] theorem modPart_fw (s : State) (p : Fin 4) (f : Part → Part) : (s.modPart p f).fw = s.fw := rfl
@[simp] theorem modPart_trc (s : State) (p : Fin 4) (f : Part → Part) : (s.modPart p f).trc = s.trc := rfl
@[simp] theorem modPart_jtag (s : State) (p : Fin 4) (f : Part → Part) : (s.modPart p f).jtag = s.jtag := rfl
@[simp] theorem modPart_jobs (s : State) (p : Fin 4) (f : Part → Part) : (s.modPart p f).jobs = s.jobs := rfl
@[simp] theorem modPart_adapters (s : State) (p : Fin 4) (f : Part → Part) : (s.modPart p f).adapters = s.adapters := rfl

@[simp] theorem modMbox_pending (s : State) (m : Fin 8) (f : Mbox → Mbox) : (s.modMbox m f).pending = s.pending := rfl
@[simp] theorem modMbox_fresh (s : State) (m : Fin 8) (f : Mbox → Mbox) : (s.modMbox m f).fresh = s.fresh := rfl
@[simp] theorem modMbox_epoch (s : State) (m : Fin 8) (f : Mbox → Mbox) : (s.modMbox m f).epoch = s.epoch := rfl
@[simp] theorem modMbox_dev (s : State) (m : Fin 8) (f : Mbox → Mbox) : (s.modMbox m f).dev = s.dev := rfl
@[simp] theorem modMbox_cfg (s : State) (m : Fin 8) (f : Mbox → Mbox) : (s.modMbox m f).cfg = s.cfg := rfl
@[simp] theorem modMbox_sched (s : State) (m : Fin 8) (f : Mbox → Mbox) : (s.modMbox m f).sched = s.sched := rfl
@[simp] theorem modMbox_clusters (s : State) (m : Fin 8) (f : Mbox → Mbox) : (s.modMbox m f).clusters = s.clusters := rfl
@[simp] theorem modMbox_globalLocks (s : State) (m : Fin 8) (f : Mbox → Mbox) : (s.modMbox m f).globalLocks = s.globalLocks := rfl
@[simp] theorem modMbox_globalIn (s : State) (m : Fin 8) (f : Mbox → Mbox) : (s.modMbox m f).globalIn = s.globalIn := rfl
@[simp] theorem modMbox_barges (s : State) (m : Fin 8) (f : Mbox → Mbox) : (s.modMbox m f).barges = s.barges := rfl
@[simp] theorem modMbox_nextBid (s : State) (m : Fin 8) (f : Mbox → Mbox) : (s.modMbox m f).nextBid = s.nextBid := rfl
@[simp] theorem modMbox_cargos (s : State) (m : Fin 8) (f : Mbox → Mbox) : (s.modMbox m f).cargos = s.cargos := rfl
@[simp] theorem modMbox_dram (s : State) (m : Fin 8) (f : Mbox → Mbox) : (s.modMbox m f).dram = s.dram := rfl
@[simp] theorem modMbox_host (s : State) (m : Fin 8) (f : Mbox → Mbox) : (s.modMbox m f).host = s.host := rfl
@[simp] theorem modMbox_poison (s : State) (m : Fin 8) (f : Mbox → Mbox) : (s.modMbox m f).poison = s.poison := rfl
@[simp] theorem modMbox_parts (s : State) (m : Fin 8) (f : Mbox → Mbox) : (s.modMbox m f).parts = s.parts := rfl
@[simp] theorem modMbox_ctxs (s : State) (m : Fin 8) (f : Mbox → Mbox) : (s.modMbox m f).ctxs = s.ctxs := rfl
@[simp] theorem modMbox_used (s : State) (m : Fin 8) (f : Mbox → Mbox) : (s.modMbox m f).used = s.used := rfl
@[simp] theorem modMbox_period (s : State) (m : Fin 8) (f : Mbox → Mbox) : (s.modMbox m f).period = s.period := rfl
@[simp] theorem modMbox_rings (s : State) (m : Fin 8) (f : Mbox → Mbox) : (s.modMbox m f).rings = s.rings := rfl
@[simp] theorem modMbox_posts (s : State) (m : Fin 8) (f : Mbox → Mbox) : (s.modMbox m f).posts = s.posts := rfl
@[simp] theorem modMbox_pcie (s : State) (m : Fin 8) (f : Mbox → Mbox) : (s.modMbox m f).pcie = s.pcie := rfl
@[simp] theorem modMbox_glb (s : State) (m : Fin 8) (f : Mbox → Mbox) : (s.modMbox m f).glb = s.glb := rfl
@[simp] theorem modMbox_status (s : State) (m : Fin 8) (f : Mbox → Mbox) : (s.modMbox m f).status = s.status := rfl
@[simp] theorem modMbox_log (s : State) (m : Fin 8) (f : Mbox → Mbox) : (s.modMbox m f).log = s.log := rfl
@[simp] theorem modMbox_img (s : State) (m : Fin 8) (f : Mbox → Mbox) : (s.modMbox m f).img = s.img := rfl
@[simp] theorem modMbox_aud (s : State) (m : Fin 8) (f : Mbox → Mbox) : (s.modMbox m f).aud = s.aud := rfl
@[simp] theorem modMbox_dsps (s : State) (m : Fin 8) (f : Mbox → Mbox) : (s.modMbox m f).dsps = s.dsps := rfl
@[simp] theorem modMbox_link (s : State) (m : Fin 8) (f : Mbox → Mbox) : (s.modMbox m f).link = s.link := rfl
@[simp] theorem modMbox_time (s : State) (m : Fin 8) (f : Mbox → Mbox) : (s.modMbox m f).time = s.time := rfl
@[simp] theorem modMbox_pwr (s : State) (m : Fin 8) (f : Mbox → Mbox) : (s.modMbox m f).pwr = s.pwr := rfl
@[simp] theorem modMbox_casc (s : State) (m : Fin 8) (f : Mbox → Mbox) : (s.modMbox m f).casc = s.casc := rfl
@[simp] theorem modMbox_health (s : State) (m : Fin 8) (f : Mbox → Mbox) : (s.modMbox m f).health = s.health := rfl
@[simp] theorem modMbox_nor (s : State) (m : Fin 8) (f : Mbox → Mbox) : (s.modMbox m f).nor = s.nor := rfl
@[simp] theorem modMbox_fw (s : State) (m : Fin 8) (f : Mbox → Mbox) : (s.modMbox m f).fw = s.fw := rfl
@[simp] theorem modMbox_trc (s : State) (m : Fin 8) (f : Mbox → Mbox) : (s.modMbox m f).trc = s.trc := rfl
@[simp] theorem modMbox_jtag (s : State) (m : Fin 8) (f : Mbox → Mbox) : (s.modMbox m f).jtag = s.jtag := rfl
@[simp] theorem modMbox_jobs (s : State) (m : Fin 8) (f : Mbox → Mbox) : (s.modMbox m f).jobs = s.jobs := rfl
@[simp] theorem modMbox_adapters (s : State) (m : Fin 8) (f : Mbox → Mbox) : (s.modMbox m f).adapters = s.adapters := rfl

@[simp] theorem modRx_pending (s : State) (n : Fin 2) (f : Rx → Rx) : (s.modRx n f).pending = s.pending := rfl
@[simp] theorem modRx_fresh (s : State) (n : Fin 2) (f : Rx → Rx) : (s.modRx n f).fresh = s.fresh := rfl
@[simp] theorem modRx_epoch (s : State) (n : Fin 2) (f : Rx → Rx) : (s.modRx n f).epoch = s.epoch := rfl
@[simp] theorem modRx_dev (s : State) (n : Fin 2) (f : Rx → Rx) : (s.modRx n f).dev = s.dev := rfl
@[simp] theorem modRx_cfg (s : State) (n : Fin 2) (f : Rx → Rx) : (s.modRx n f).cfg = s.cfg := rfl
@[simp] theorem modRx_sched (s : State) (n : Fin 2) (f : Rx → Rx) : (s.modRx n f).sched = s.sched := rfl
@[simp] theorem modRx_clusters (s : State) (n : Fin 2) (f : Rx → Rx) : (s.modRx n f).clusters = s.clusters := rfl
@[simp] theorem modRx_globalLocks (s : State) (n : Fin 2) (f : Rx → Rx) : (s.modRx n f).globalLocks = s.globalLocks := rfl
@[simp] theorem modRx_globalIn (s : State) (n : Fin 2) (f : Rx → Rx) : (s.modRx n f).globalIn = s.globalIn := rfl
@[simp] theorem modRx_barges (s : State) (n : Fin 2) (f : Rx → Rx) : (s.modRx n f).barges = s.barges := rfl
@[simp] theorem modRx_nextBid (s : State) (n : Fin 2) (f : Rx → Rx) : (s.modRx n f).nextBid = s.nextBid := rfl
@[simp] theorem modRx_cargos (s : State) (n : Fin 2) (f : Rx → Rx) : (s.modRx n f).cargos = s.cargos := rfl
@[simp] theorem modRx_dram (s : State) (n : Fin 2) (f : Rx → Rx) : (s.modRx n f).dram = s.dram := rfl
@[simp] theorem modRx_host (s : State) (n : Fin 2) (f : Rx → Rx) : (s.modRx n f).host = s.host := rfl
@[simp] theorem modRx_poison (s : State) (n : Fin 2) (f : Rx → Rx) : (s.modRx n f).poison = s.poison := rfl
@[simp] theorem modRx_parts (s : State) (n : Fin 2) (f : Rx → Rx) : (s.modRx n f).parts = s.parts := rfl
@[simp] theorem modRx_ctxs (s : State) (n : Fin 2) (f : Rx → Rx) : (s.modRx n f).ctxs = s.ctxs := rfl
@[simp] theorem modRx_used (s : State) (n : Fin 2) (f : Rx → Rx) : (s.modRx n f).used = s.used := rfl
@[simp] theorem modRx_period (s : State) (n : Fin 2) (f : Rx → Rx) : (s.modRx n f).period = s.period := rfl
@[simp] theorem modRx_rings (s : State) (n : Fin 2) (f : Rx → Rx) : (s.modRx n f).rings = s.rings := rfl
@[simp] theorem modRx_mboxes (s : State) (n : Fin 2) (f : Rx → Rx) : (s.modRx n f).mboxes = s.mboxes := rfl
@[simp] theorem modRx_posts (s : State) (n : Fin 2) (f : Rx → Rx) : (s.modRx n f).posts = s.posts := rfl
@[simp] theorem modRx_pcie (s : State) (n : Fin 2) (f : Rx → Rx) : (s.modRx n f).pcie = s.pcie := rfl
@[simp] theorem modRx_glb (s : State) (n : Fin 2) (f : Rx → Rx) : (s.modRx n f).glb = s.glb := rfl
@[simp] theorem modRx_status (s : State) (n : Fin 2) (f : Rx → Rx) : (s.modRx n f).status = s.status := rfl
@[simp] theorem modRx_log (s : State) (n : Fin 2) (f : Rx → Rx) : (s.modRx n f).log = s.log := rfl
@[simp] theorem modRx_aud (s : State) (n : Fin 2) (f : Rx → Rx) : (s.modRx n f).aud = s.aud := rfl
@[simp] theorem modRx_dsps (s : State) (n : Fin 2) (f : Rx → Rx) : (s.modRx n f).dsps = s.dsps := rfl
@[simp] theorem modRx_link (s : State) (n : Fin 2) (f : Rx → Rx) : (s.modRx n f).link = s.link := rfl
@[simp] theorem modRx_time (s : State) (n : Fin 2) (f : Rx → Rx) : (s.modRx n f).time = s.time := rfl
@[simp] theorem modRx_pwr (s : State) (n : Fin 2) (f : Rx → Rx) : (s.modRx n f).pwr = s.pwr := rfl
@[simp] theorem modRx_casc (s : State) (n : Fin 2) (f : Rx → Rx) : (s.modRx n f).casc = s.casc := rfl
@[simp] theorem modRx_health (s : State) (n : Fin 2) (f : Rx → Rx) : (s.modRx n f).health = s.health := rfl
@[simp] theorem modRx_nor (s : State) (n : Fin 2) (f : Rx → Rx) : (s.modRx n f).nor = s.nor := rfl
@[simp] theorem modRx_fw (s : State) (n : Fin 2) (f : Rx → Rx) : (s.modRx n f).fw = s.fw := rfl
@[simp] theorem modRx_trc (s : State) (n : Fin 2) (f : Rx → Rx) : (s.modRx n f).trc = s.trc := rfl
@[simp] theorem modRx_jtag (s : State) (n : Fin 2) (f : Rx → Rx) : (s.modRx n f).jtag = s.jtag := rfl
@[simp] theorem modRx_jobs (s : State) (n : Fin 2) (f : Rx → Rx) : (s.modRx n f).jobs = s.jobs := rfl
@[simp] theorem modRx_adapters (s : State) (n : Fin 2) (f : Rx → Rx) : (s.modRx n f).adapters = s.adapters := rfl

@[simp] theorem modTx_pending (s : State) (n : Fin 2) (f : Tx → Tx) : (s.modTx n f).pending = s.pending := rfl
@[simp] theorem modTx_fresh (s : State) (n : Fin 2) (f : Tx → Tx) : (s.modTx n f).fresh = s.fresh := rfl
@[simp] theorem modTx_epoch (s : State) (n : Fin 2) (f : Tx → Tx) : (s.modTx n f).epoch = s.epoch := rfl
@[simp] theorem modTx_dev (s : State) (n : Fin 2) (f : Tx → Tx) : (s.modTx n f).dev = s.dev := rfl
@[simp] theorem modTx_cfg (s : State) (n : Fin 2) (f : Tx → Tx) : (s.modTx n f).cfg = s.cfg := rfl
@[simp] theorem modTx_sched (s : State) (n : Fin 2) (f : Tx → Tx) : (s.modTx n f).sched = s.sched := rfl
@[simp] theorem modTx_clusters (s : State) (n : Fin 2) (f : Tx → Tx) : (s.modTx n f).clusters = s.clusters := rfl
@[simp] theorem modTx_globalLocks (s : State) (n : Fin 2) (f : Tx → Tx) : (s.modTx n f).globalLocks = s.globalLocks := rfl
@[simp] theorem modTx_globalIn (s : State) (n : Fin 2) (f : Tx → Tx) : (s.modTx n f).globalIn = s.globalIn := rfl
@[simp] theorem modTx_barges (s : State) (n : Fin 2) (f : Tx → Tx) : (s.modTx n f).barges = s.barges := rfl
@[simp] theorem modTx_nextBid (s : State) (n : Fin 2) (f : Tx → Tx) : (s.modTx n f).nextBid = s.nextBid := rfl
@[simp] theorem modTx_cargos (s : State) (n : Fin 2) (f : Tx → Tx) : (s.modTx n f).cargos = s.cargos := rfl
@[simp] theorem modTx_dram (s : State) (n : Fin 2) (f : Tx → Tx) : (s.modTx n f).dram = s.dram := rfl
@[simp] theorem modTx_host (s : State) (n : Fin 2) (f : Tx → Tx) : (s.modTx n f).host = s.host := rfl
@[simp] theorem modTx_poison (s : State) (n : Fin 2) (f : Tx → Tx) : (s.modTx n f).poison = s.poison := rfl
@[simp] theorem modTx_parts (s : State) (n : Fin 2) (f : Tx → Tx) : (s.modTx n f).parts = s.parts := rfl
@[simp] theorem modTx_ctxs (s : State) (n : Fin 2) (f : Tx → Tx) : (s.modTx n f).ctxs = s.ctxs := rfl
@[simp] theorem modTx_used (s : State) (n : Fin 2) (f : Tx → Tx) : (s.modTx n f).used = s.used := rfl
@[simp] theorem modTx_period (s : State) (n : Fin 2) (f : Tx → Tx) : (s.modTx n f).period = s.period := rfl
@[simp] theorem modTx_rings (s : State) (n : Fin 2) (f : Tx → Tx) : (s.modTx n f).rings = s.rings := rfl
@[simp] theorem modTx_mboxes (s : State) (n : Fin 2) (f : Tx → Tx) : (s.modTx n f).mboxes = s.mboxes := rfl
@[simp] theorem modTx_posts (s : State) (n : Fin 2) (f : Tx → Tx) : (s.modTx n f).posts = s.posts := rfl
@[simp] theorem modTx_pcie (s : State) (n : Fin 2) (f : Tx → Tx) : (s.modTx n f).pcie = s.pcie := rfl
@[simp] theorem modTx_glb (s : State) (n : Fin 2) (f : Tx → Tx) : (s.modTx n f).glb = s.glb := rfl
@[simp] theorem modTx_status (s : State) (n : Fin 2) (f : Tx → Tx) : (s.modTx n f).status = s.status := rfl
@[simp] theorem modTx_log (s : State) (n : Fin 2) (f : Tx → Tx) : (s.modTx n f).log = s.log := rfl
@[simp] theorem modTx_aud (s : State) (n : Fin 2) (f : Tx → Tx) : (s.modTx n f).aud = s.aud := rfl
@[simp] theorem modTx_dsps (s : State) (n : Fin 2) (f : Tx → Tx) : (s.modTx n f).dsps = s.dsps := rfl
@[simp] theorem modTx_link (s : State) (n : Fin 2) (f : Tx → Tx) : (s.modTx n f).link = s.link := rfl
@[simp] theorem modTx_time (s : State) (n : Fin 2) (f : Tx → Tx) : (s.modTx n f).time = s.time := rfl
@[simp] theorem modTx_pwr (s : State) (n : Fin 2) (f : Tx → Tx) : (s.modTx n f).pwr = s.pwr := rfl
@[simp] theorem modTx_casc (s : State) (n : Fin 2) (f : Tx → Tx) : (s.modTx n f).casc = s.casc := rfl
@[simp] theorem modTx_health (s : State) (n : Fin 2) (f : Tx → Tx) : (s.modTx n f).health = s.health := rfl
@[simp] theorem modTx_nor (s : State) (n : Fin 2) (f : Tx → Tx) : (s.modTx n f).nor = s.nor := rfl
@[simp] theorem modTx_fw (s : State) (n : Fin 2) (f : Tx → Tx) : (s.modTx n f).fw = s.fw := rfl
@[simp] theorem modTx_trc (s : State) (n : Fin 2) (f : Tx → Tx) : (s.modTx n f).trc = s.trc := rfl
@[simp] theorem modTx_jtag (s : State) (n : Fin 2) (f : Tx → Tx) : (s.modTx n f).jtag = s.jtag := rfl
@[simp] theorem modTx_jobs (s : State) (n : Fin 2) (f : Tx → Tx) : (s.modTx n f).jobs = s.jobs := rfl
@[simp] theorem modTx_adapters (s : State) (n : Fin 2) (f : Tx → Tx) : (s.modTx n f).adapters = s.adapters := rfl

@[simp] theorem modAud_pending (s : State) (n : Fin 5) (f : Port → Port) : (s.modAud n f).pending = s.pending := rfl
@[simp] theorem modAud_fresh (s : State) (n : Fin 5) (f : Port → Port) : (s.modAud n f).fresh = s.fresh := rfl
@[simp] theorem modAud_epoch (s : State) (n : Fin 5) (f : Port → Port) : (s.modAud n f).epoch = s.epoch := rfl
@[simp] theorem modAud_dev (s : State) (n : Fin 5) (f : Port → Port) : (s.modAud n f).dev = s.dev := rfl
@[simp] theorem modAud_cfg (s : State) (n : Fin 5) (f : Port → Port) : (s.modAud n f).cfg = s.cfg := rfl
@[simp] theorem modAud_sched (s : State) (n : Fin 5) (f : Port → Port) : (s.modAud n f).sched = s.sched := rfl
@[simp] theorem modAud_clusters (s : State) (n : Fin 5) (f : Port → Port) : (s.modAud n f).clusters = s.clusters := rfl
@[simp] theorem modAud_globalLocks (s : State) (n : Fin 5) (f : Port → Port) : (s.modAud n f).globalLocks = s.globalLocks := rfl
@[simp] theorem modAud_globalIn (s : State) (n : Fin 5) (f : Port → Port) : (s.modAud n f).globalIn = s.globalIn := rfl
@[simp] theorem modAud_barges (s : State) (n : Fin 5) (f : Port → Port) : (s.modAud n f).barges = s.barges := rfl
@[simp] theorem modAud_nextBid (s : State) (n : Fin 5) (f : Port → Port) : (s.modAud n f).nextBid = s.nextBid := rfl
@[simp] theorem modAud_cargos (s : State) (n : Fin 5) (f : Port → Port) : (s.modAud n f).cargos = s.cargos := rfl
@[simp] theorem modAud_dram (s : State) (n : Fin 5) (f : Port → Port) : (s.modAud n f).dram = s.dram := rfl
@[simp] theorem modAud_host (s : State) (n : Fin 5) (f : Port → Port) : (s.modAud n f).host = s.host := rfl
@[simp] theorem modAud_poison (s : State) (n : Fin 5) (f : Port → Port) : (s.modAud n f).poison = s.poison := rfl
@[simp] theorem modAud_parts (s : State) (n : Fin 5) (f : Port → Port) : (s.modAud n f).parts = s.parts := rfl
@[simp] theorem modAud_ctxs (s : State) (n : Fin 5) (f : Port → Port) : (s.modAud n f).ctxs = s.ctxs := rfl
@[simp] theorem modAud_used (s : State) (n : Fin 5) (f : Port → Port) : (s.modAud n f).used = s.used := rfl
@[simp] theorem modAud_period (s : State) (n : Fin 5) (f : Port → Port) : (s.modAud n f).period = s.period := rfl
@[simp] theorem modAud_rings (s : State) (n : Fin 5) (f : Port → Port) : (s.modAud n f).rings = s.rings := rfl
@[simp] theorem modAud_mboxes (s : State) (n : Fin 5) (f : Port → Port) : (s.modAud n f).mboxes = s.mboxes := rfl
@[simp] theorem modAud_posts (s : State) (n : Fin 5) (f : Port → Port) : (s.modAud n f).posts = s.posts := rfl
@[simp] theorem modAud_pcie (s : State) (n : Fin 5) (f : Port → Port) : (s.modAud n f).pcie = s.pcie := rfl
@[simp] theorem modAud_glb (s : State) (n : Fin 5) (f : Port → Port) : (s.modAud n f).glb = s.glb := rfl
@[simp] theorem modAud_status (s : State) (n : Fin 5) (f : Port → Port) : (s.modAud n f).status = s.status := rfl
@[simp] theorem modAud_log (s : State) (n : Fin 5) (f : Port → Port) : (s.modAud n f).log = s.log := rfl
@[simp] theorem modAud_img (s : State) (n : Fin 5) (f : Port → Port) : (s.modAud n f).img = s.img := rfl
@[simp] theorem modAud_dsps (s : State) (n : Fin 5) (f : Port → Port) : (s.modAud n f).dsps = s.dsps := rfl
@[simp] theorem modAud_link (s : State) (n : Fin 5) (f : Port → Port) : (s.modAud n f).link = s.link := rfl
@[simp] theorem modAud_time (s : State) (n : Fin 5) (f : Port → Port) : (s.modAud n f).time = s.time := rfl
@[simp] theorem modAud_pwr (s : State) (n : Fin 5) (f : Port → Port) : (s.modAud n f).pwr = s.pwr := rfl
@[simp] theorem modAud_casc (s : State) (n : Fin 5) (f : Port → Port) : (s.modAud n f).casc = s.casc := rfl
@[simp] theorem modAud_health (s : State) (n : Fin 5) (f : Port → Port) : (s.modAud n f).health = s.health := rfl
@[simp] theorem modAud_nor (s : State) (n : Fin 5) (f : Port → Port) : (s.modAud n f).nor = s.nor := rfl
@[simp] theorem modAud_fw (s : State) (n : Fin 5) (f : Port → Port) : (s.modAud n f).fw = s.fw := rfl
@[simp] theorem modAud_trc (s : State) (n : Fin 5) (f : Port → Port) : (s.modAud n f).trc = s.trc := rfl
@[simp] theorem modAud_jtag (s : State) (n : Fin 5) (f : Port → Port) : (s.modAud n f).jtag = s.jtag := rfl
@[simp] theorem modAud_jobs (s : State) (n : Fin 5) (f : Port → Port) : (s.modAud n f).jobs = s.jobs := rfl
@[simp] theorem modAud_adapters (s : State) (n : Fin 5) (f : Port → Port) : (s.modAud n f).adapters = s.adapters := rfl

@[simp] theorem modApll_pending (s : State) (m : Fin 2) (f : Apll → Apll) : (s.modApll m f).pending = s.pending := rfl
@[simp] theorem modApll_fresh (s : State) (m : Fin 2) (f : Apll → Apll) : (s.modApll m f).fresh = s.fresh := rfl
@[simp] theorem modApll_epoch (s : State) (m : Fin 2) (f : Apll → Apll) : (s.modApll m f).epoch = s.epoch := rfl
@[simp] theorem modApll_dev (s : State) (m : Fin 2) (f : Apll → Apll) : (s.modApll m f).dev = s.dev := rfl
@[simp] theorem modApll_cfg (s : State) (m : Fin 2) (f : Apll → Apll) : (s.modApll m f).cfg = s.cfg := rfl
@[simp] theorem modApll_sched (s : State) (m : Fin 2) (f : Apll → Apll) : (s.modApll m f).sched = s.sched := rfl
@[simp] theorem modApll_clusters (s : State) (m : Fin 2) (f : Apll → Apll) : (s.modApll m f).clusters = s.clusters := rfl
@[simp] theorem modApll_globalLocks (s : State) (m : Fin 2) (f : Apll → Apll) : (s.modApll m f).globalLocks = s.globalLocks := rfl
@[simp] theorem modApll_globalIn (s : State) (m : Fin 2) (f : Apll → Apll) : (s.modApll m f).globalIn = s.globalIn := rfl
@[simp] theorem modApll_barges (s : State) (m : Fin 2) (f : Apll → Apll) : (s.modApll m f).barges = s.barges := rfl
@[simp] theorem modApll_nextBid (s : State) (m : Fin 2) (f : Apll → Apll) : (s.modApll m f).nextBid = s.nextBid := rfl
@[simp] theorem modApll_cargos (s : State) (m : Fin 2) (f : Apll → Apll) : (s.modApll m f).cargos = s.cargos := rfl
@[simp] theorem modApll_dram (s : State) (m : Fin 2) (f : Apll → Apll) : (s.modApll m f).dram = s.dram := rfl
@[simp] theorem modApll_host (s : State) (m : Fin 2) (f : Apll → Apll) : (s.modApll m f).host = s.host := rfl
@[simp] theorem modApll_poison (s : State) (m : Fin 2) (f : Apll → Apll) : (s.modApll m f).poison = s.poison := rfl
@[simp] theorem modApll_parts (s : State) (m : Fin 2) (f : Apll → Apll) : (s.modApll m f).parts = s.parts := rfl
@[simp] theorem modApll_ctxs (s : State) (m : Fin 2) (f : Apll → Apll) : (s.modApll m f).ctxs = s.ctxs := rfl
@[simp] theorem modApll_used (s : State) (m : Fin 2) (f : Apll → Apll) : (s.modApll m f).used = s.used := rfl
@[simp] theorem modApll_period (s : State) (m : Fin 2) (f : Apll → Apll) : (s.modApll m f).period = s.period := rfl
@[simp] theorem modApll_rings (s : State) (m : Fin 2) (f : Apll → Apll) : (s.modApll m f).rings = s.rings := rfl
@[simp] theorem modApll_mboxes (s : State) (m : Fin 2) (f : Apll → Apll) : (s.modApll m f).mboxes = s.mboxes := rfl
@[simp] theorem modApll_posts (s : State) (m : Fin 2) (f : Apll → Apll) : (s.modApll m f).posts = s.posts := rfl
@[simp] theorem modApll_pcie (s : State) (m : Fin 2) (f : Apll → Apll) : (s.modApll m f).pcie = s.pcie := rfl
@[simp] theorem modApll_glb (s : State) (m : Fin 2) (f : Apll → Apll) : (s.modApll m f).glb = s.glb := rfl
@[simp] theorem modApll_status (s : State) (m : Fin 2) (f : Apll → Apll) : (s.modApll m f).status = s.status := rfl
@[simp] theorem modApll_log (s : State) (m : Fin 2) (f : Apll → Apll) : (s.modApll m f).log = s.log := rfl
@[simp] theorem modApll_img (s : State) (m : Fin 2) (f : Apll → Apll) : (s.modApll m f).img = s.img := rfl
@[simp] theorem modApll_dsps (s : State) (m : Fin 2) (f : Apll → Apll) : (s.modApll m f).dsps = s.dsps := rfl
@[simp] theorem modApll_link (s : State) (m : Fin 2) (f : Apll → Apll) : (s.modApll m f).link = s.link := rfl
@[simp] theorem modApll_time (s : State) (m : Fin 2) (f : Apll → Apll) : (s.modApll m f).time = s.time := rfl
@[simp] theorem modApll_pwr (s : State) (m : Fin 2) (f : Apll → Apll) : (s.modApll m f).pwr = s.pwr := rfl
@[simp] theorem modApll_casc (s : State) (m : Fin 2) (f : Apll → Apll) : (s.modApll m f).casc = s.casc := rfl
@[simp] theorem modApll_health (s : State) (m : Fin 2) (f : Apll → Apll) : (s.modApll m f).health = s.health := rfl
@[simp] theorem modApll_nor (s : State) (m : Fin 2) (f : Apll → Apll) : (s.modApll m f).nor = s.nor := rfl
@[simp] theorem modApll_fw (s : State) (m : Fin 2) (f : Apll → Apll) : (s.modApll m f).fw = s.fw := rfl
@[simp] theorem modApll_trc (s : State) (m : Fin 2) (f : Apll → Apll) : (s.modApll m f).trc = s.trc := rfl
@[simp] theorem modApll_jtag (s : State) (m : Fin 2) (f : Apll → Apll) : (s.modApll m f).jtag = s.jtag := rfl
@[simp] theorem modApll_jobs (s : State) (m : Fin 2) (f : Apll → Apll) : (s.modApll m f).jobs = s.jobs := rfl
@[simp] theorem modApll_adapters (s : State) (m : Fin 2) (f : Apll → Apll) : (s.modApll m f).adapters = s.adapters := rfl

@[simp] theorem modDsp_pending (s : State) (d : Fin 4) (f : Dsp → Dsp) : (s.modDsp d f).pending = s.pending := rfl
@[simp] theorem modDsp_fresh (s : State) (d : Fin 4) (f : Dsp → Dsp) : (s.modDsp d f).fresh = s.fresh := rfl
@[simp] theorem modDsp_epoch (s : State) (d : Fin 4) (f : Dsp → Dsp) : (s.modDsp d f).epoch = s.epoch := rfl
@[simp] theorem modDsp_dev (s : State) (d : Fin 4) (f : Dsp → Dsp) : (s.modDsp d f).dev = s.dev := rfl
@[simp] theorem modDsp_cfg (s : State) (d : Fin 4) (f : Dsp → Dsp) : (s.modDsp d f).cfg = s.cfg := rfl
@[simp] theorem modDsp_sched (s : State) (d : Fin 4) (f : Dsp → Dsp) : (s.modDsp d f).sched = s.sched := rfl
@[simp] theorem modDsp_clusters (s : State) (d : Fin 4) (f : Dsp → Dsp) : (s.modDsp d f).clusters = s.clusters := rfl
@[simp] theorem modDsp_globalLocks (s : State) (d : Fin 4) (f : Dsp → Dsp) : (s.modDsp d f).globalLocks = s.globalLocks := rfl
@[simp] theorem modDsp_globalIn (s : State) (d : Fin 4) (f : Dsp → Dsp) : (s.modDsp d f).globalIn = s.globalIn := rfl
@[simp] theorem modDsp_barges (s : State) (d : Fin 4) (f : Dsp → Dsp) : (s.modDsp d f).barges = s.barges := rfl
@[simp] theorem modDsp_nextBid (s : State) (d : Fin 4) (f : Dsp → Dsp) : (s.modDsp d f).nextBid = s.nextBid := rfl
@[simp] theorem modDsp_cargos (s : State) (d : Fin 4) (f : Dsp → Dsp) : (s.modDsp d f).cargos = s.cargos := rfl
@[simp] theorem modDsp_dram (s : State) (d : Fin 4) (f : Dsp → Dsp) : (s.modDsp d f).dram = s.dram := rfl
@[simp] theorem modDsp_host (s : State) (d : Fin 4) (f : Dsp → Dsp) : (s.modDsp d f).host = s.host := rfl
@[simp] theorem modDsp_poison (s : State) (d : Fin 4) (f : Dsp → Dsp) : (s.modDsp d f).poison = s.poison := rfl
@[simp] theorem modDsp_parts (s : State) (d : Fin 4) (f : Dsp → Dsp) : (s.modDsp d f).parts = s.parts := rfl
@[simp] theorem modDsp_ctxs (s : State) (d : Fin 4) (f : Dsp → Dsp) : (s.modDsp d f).ctxs = s.ctxs := rfl
@[simp] theorem modDsp_used (s : State) (d : Fin 4) (f : Dsp → Dsp) : (s.modDsp d f).used = s.used := rfl
@[simp] theorem modDsp_period (s : State) (d : Fin 4) (f : Dsp → Dsp) : (s.modDsp d f).period = s.period := rfl
@[simp] theorem modDsp_rings (s : State) (d : Fin 4) (f : Dsp → Dsp) : (s.modDsp d f).rings = s.rings := rfl
@[simp] theorem modDsp_mboxes (s : State) (d : Fin 4) (f : Dsp → Dsp) : (s.modDsp d f).mboxes = s.mboxes := rfl
@[simp] theorem modDsp_posts (s : State) (d : Fin 4) (f : Dsp → Dsp) : (s.modDsp d f).posts = s.posts := rfl
@[simp] theorem modDsp_pcie (s : State) (d : Fin 4) (f : Dsp → Dsp) : (s.modDsp d f).pcie = s.pcie := rfl
@[simp] theorem modDsp_glb (s : State) (d : Fin 4) (f : Dsp → Dsp) : (s.modDsp d f).glb = s.glb := rfl
@[simp] theorem modDsp_status (s : State) (d : Fin 4) (f : Dsp → Dsp) : (s.modDsp d f).status = s.status := rfl
@[simp] theorem modDsp_log (s : State) (d : Fin 4) (f : Dsp → Dsp) : (s.modDsp d f).log = s.log := rfl
@[simp] theorem modDsp_img (s : State) (d : Fin 4) (f : Dsp → Dsp) : (s.modDsp d f).img = s.img := rfl
@[simp] theorem modDsp_aud (s : State) (d : Fin 4) (f : Dsp → Dsp) : (s.modDsp d f).aud = s.aud := rfl
@[simp] theorem modDsp_link (s : State) (d : Fin 4) (f : Dsp → Dsp) : (s.modDsp d f).link = s.link := rfl
@[simp] theorem modDsp_time (s : State) (d : Fin 4) (f : Dsp → Dsp) : (s.modDsp d f).time = s.time := rfl
@[simp] theorem modDsp_pwr (s : State) (d : Fin 4) (f : Dsp → Dsp) : (s.modDsp d f).pwr = s.pwr := rfl
@[simp] theorem modDsp_casc (s : State) (d : Fin 4) (f : Dsp → Dsp) : (s.modDsp d f).casc = s.casc := rfl
@[simp] theorem modDsp_health (s : State) (d : Fin 4) (f : Dsp → Dsp) : (s.modDsp d f).health = s.health := rfl
@[simp] theorem modDsp_nor (s : State) (d : Fin 4) (f : Dsp → Dsp) : (s.modDsp d f).nor = s.nor := rfl
@[simp] theorem modDsp_fw (s : State) (d : Fin 4) (f : Dsp → Dsp) : (s.modDsp d f).fw = s.fw := rfl
@[simp] theorem modDsp_trc (s : State) (d : Fin 4) (f : Dsp → Dsp) : (s.modDsp d f).trc = s.trc := rfl
@[simp] theorem modDsp_jtag (s : State) (d : Fin 4) (f : Dsp → Dsp) : (s.modDsp d f).jtag = s.jtag := rfl
@[simp] theorem modDsp_jobs (s : State) (d : Fin 4) (f : Dsp → Dsp) : (s.modDsp d f).jobs = s.jobs := rfl
@[simp] theorem modDsp_adapters (s : State) (d : Fin 4) (f : Dsp → Dsp) : (s.modDsp d f).adapters = s.adapters := rfl

@[simp] theorem modZp_pending (s : State) (p : Fin 4) (f : ZPort → ZPort) : (s.modZp p f).pending = s.pending := rfl
@[simp] theorem modZp_fresh (s : State) (p : Fin 4) (f : ZPort → ZPort) : (s.modZp p f).fresh = s.fresh := rfl
@[simp] theorem modZp_epoch (s : State) (p : Fin 4) (f : ZPort → ZPort) : (s.modZp p f).epoch = s.epoch := rfl
@[simp] theorem modZp_dev (s : State) (p : Fin 4) (f : ZPort → ZPort) : (s.modZp p f).dev = s.dev := rfl
@[simp] theorem modZp_cfg (s : State) (p : Fin 4) (f : ZPort → ZPort) : (s.modZp p f).cfg = s.cfg := rfl
@[simp] theorem modZp_sched (s : State) (p : Fin 4) (f : ZPort → ZPort) : (s.modZp p f).sched = s.sched := rfl
@[simp] theorem modZp_clusters (s : State) (p : Fin 4) (f : ZPort → ZPort) : (s.modZp p f).clusters = s.clusters := rfl
@[simp] theorem modZp_globalLocks (s : State) (p : Fin 4) (f : ZPort → ZPort) : (s.modZp p f).globalLocks = s.globalLocks := rfl
@[simp] theorem modZp_globalIn (s : State) (p : Fin 4) (f : ZPort → ZPort) : (s.modZp p f).globalIn = s.globalIn := rfl
@[simp] theorem modZp_barges (s : State) (p : Fin 4) (f : ZPort → ZPort) : (s.modZp p f).barges = s.barges := rfl
@[simp] theorem modZp_nextBid (s : State) (p : Fin 4) (f : ZPort → ZPort) : (s.modZp p f).nextBid = s.nextBid := rfl
@[simp] theorem modZp_cargos (s : State) (p : Fin 4) (f : ZPort → ZPort) : (s.modZp p f).cargos = s.cargos := rfl
@[simp] theorem modZp_dram (s : State) (p : Fin 4) (f : ZPort → ZPort) : (s.modZp p f).dram = s.dram := rfl
@[simp] theorem modZp_host (s : State) (p : Fin 4) (f : ZPort → ZPort) : (s.modZp p f).host = s.host := rfl
@[simp] theorem modZp_poison (s : State) (p : Fin 4) (f : ZPort → ZPort) : (s.modZp p f).poison = s.poison := rfl
@[simp] theorem modZp_parts (s : State) (p : Fin 4) (f : ZPort → ZPort) : (s.modZp p f).parts = s.parts := rfl
@[simp] theorem modZp_ctxs (s : State) (p : Fin 4) (f : ZPort → ZPort) : (s.modZp p f).ctxs = s.ctxs := rfl
@[simp] theorem modZp_used (s : State) (p : Fin 4) (f : ZPort → ZPort) : (s.modZp p f).used = s.used := rfl
@[simp] theorem modZp_period (s : State) (p : Fin 4) (f : ZPort → ZPort) : (s.modZp p f).period = s.period := rfl
@[simp] theorem modZp_rings (s : State) (p : Fin 4) (f : ZPort → ZPort) : (s.modZp p f).rings = s.rings := rfl
@[simp] theorem modZp_mboxes (s : State) (p : Fin 4) (f : ZPort → ZPort) : (s.modZp p f).mboxes = s.mboxes := rfl
@[simp] theorem modZp_posts (s : State) (p : Fin 4) (f : ZPort → ZPort) : (s.modZp p f).posts = s.posts := rfl
@[simp] theorem modZp_pcie (s : State) (p : Fin 4) (f : ZPort → ZPort) : (s.modZp p f).pcie = s.pcie := rfl
@[simp] theorem modZp_glb (s : State) (p : Fin 4) (f : ZPort → ZPort) : (s.modZp p f).glb = s.glb := rfl
@[simp] theorem modZp_status (s : State) (p : Fin 4) (f : ZPort → ZPort) : (s.modZp p f).status = s.status := rfl
@[simp] theorem modZp_log (s : State) (p : Fin 4) (f : ZPort → ZPort) : (s.modZp p f).log = s.log := rfl
@[simp] theorem modZp_img (s : State) (p : Fin 4) (f : ZPort → ZPort) : (s.modZp p f).img = s.img := rfl
@[simp] theorem modZp_aud (s : State) (p : Fin 4) (f : ZPort → ZPort) : (s.modZp p f).aud = s.aud := rfl
@[simp] theorem modZp_dsps (s : State) (p : Fin 4) (f : ZPort → ZPort) : (s.modZp p f).dsps = s.dsps := rfl
@[simp] theorem modZp_time (s : State) (p : Fin 4) (f : ZPort → ZPort) : (s.modZp p f).time = s.time := rfl
@[simp] theorem modZp_pwr (s : State) (p : Fin 4) (f : ZPort → ZPort) : (s.modZp p f).pwr = s.pwr := rfl
@[simp] theorem modZp_casc (s : State) (p : Fin 4) (f : ZPort → ZPort) : (s.modZp p f).casc = s.casc := rfl
@[simp] theorem modZp_health (s : State) (p : Fin 4) (f : ZPort → ZPort) : (s.modZp p f).health = s.health := rfl
@[simp] theorem modZp_nor (s : State) (p : Fin 4) (f : ZPort → ZPort) : (s.modZp p f).nor = s.nor := rfl
@[simp] theorem modZp_fw (s : State) (p : Fin 4) (f : ZPort → ZPort) : (s.modZp p f).fw = s.fw := rfl
@[simp] theorem modZp_trc (s : State) (p : Fin 4) (f : ZPort → ZPort) : (s.modZp p f).trc = s.trc := rfl
@[simp] theorem modZp_jtag (s : State) (p : Fin 4) (f : ZPort → ZPort) : (s.modZp p f).jtag = s.jtag := rfl
@[simp] theorem modZp_jobs (s : State) (p : Fin 4) (f : ZPort → ZPort) : (s.modZp p f).jobs = s.jobs := rfl
@[simp] theorem modZp_adapters (s : State) (p : Fin 4) (f : ZPort → ZPort) : (s.modZp p f).adapters = s.adapters := rfl

@[simp] theorem modRing_pending (s : State) (r : Nat) (f : Ring → Ring) : (s.modRing r f).pending = s.pending := rfl
@[simp] theorem modRing_fresh (s : State) (r : Nat) (f : Ring → Ring) : (s.modRing r f).fresh = s.fresh := rfl
@[simp] theorem modRing_epoch (s : State) (r : Nat) (f : Ring → Ring) : (s.modRing r f).epoch = s.epoch := rfl
@[simp] theorem modRing_dev (s : State) (r : Nat) (f : Ring → Ring) : (s.modRing r f).dev = s.dev := rfl
@[simp] theorem modRing_cfg (s : State) (r : Nat) (f : Ring → Ring) : (s.modRing r f).cfg = s.cfg := rfl
@[simp] theorem modRing_sched (s : State) (r : Nat) (f : Ring → Ring) : (s.modRing r f).sched = s.sched := rfl
@[simp] theorem modRing_clusters (s : State) (r : Nat) (f : Ring → Ring) : (s.modRing r f).clusters = s.clusters := rfl
@[simp] theorem modRing_globalLocks (s : State) (r : Nat) (f : Ring → Ring) : (s.modRing r f).globalLocks = s.globalLocks := rfl
@[simp] theorem modRing_globalIn (s : State) (r : Nat) (f : Ring → Ring) : (s.modRing r f).globalIn = s.globalIn := rfl
@[simp] theorem modRing_barges (s : State) (r : Nat) (f : Ring → Ring) : (s.modRing r f).barges = s.barges := rfl
@[simp] theorem modRing_nextBid (s : State) (r : Nat) (f : Ring → Ring) : (s.modRing r f).nextBid = s.nextBid := rfl
@[simp] theorem modRing_cargos (s : State) (r : Nat) (f : Ring → Ring) : (s.modRing r f).cargos = s.cargos := rfl
@[simp] theorem modRing_dram (s : State) (r : Nat) (f : Ring → Ring) : (s.modRing r f).dram = s.dram := rfl
@[simp] theorem modRing_host (s : State) (r : Nat) (f : Ring → Ring) : (s.modRing r f).host = s.host := rfl
@[simp] theorem modRing_poison (s : State) (r : Nat) (f : Ring → Ring) : (s.modRing r f).poison = s.poison := rfl
@[simp] theorem modRing_parts (s : State) (r : Nat) (f : Ring → Ring) : (s.modRing r f).parts = s.parts := rfl
@[simp] theorem modRing_ctxs (s : State) (r : Nat) (f : Ring → Ring) : (s.modRing r f).ctxs = s.ctxs := rfl
@[simp] theorem modRing_used (s : State) (r : Nat) (f : Ring → Ring) : (s.modRing r f).used = s.used := rfl
@[simp] theorem modRing_period (s : State) (r : Nat) (f : Ring → Ring) : (s.modRing r f).period = s.period := rfl
@[simp] theorem modRing_mboxes (s : State) (r : Nat) (f : Ring → Ring) : (s.modRing r f).mboxes = s.mboxes := rfl
@[simp] theorem modRing_posts (s : State) (r : Nat) (f : Ring → Ring) : (s.modRing r f).posts = s.posts := rfl
@[simp] theorem modRing_pcie (s : State) (r : Nat) (f : Ring → Ring) : (s.modRing r f).pcie = s.pcie := rfl
@[simp] theorem modRing_glb (s : State) (r : Nat) (f : Ring → Ring) : (s.modRing r f).glb = s.glb := rfl
@[simp] theorem modRing_status (s : State) (r : Nat) (f : Ring → Ring) : (s.modRing r f).status = s.status := rfl
@[simp] theorem modRing_log (s : State) (r : Nat) (f : Ring → Ring) : (s.modRing r f).log = s.log := rfl
@[simp] theorem modRing_img (s : State) (r : Nat) (f : Ring → Ring) : (s.modRing r f).img = s.img := rfl
@[simp] theorem modRing_aud (s : State) (r : Nat) (f : Ring → Ring) : (s.modRing r f).aud = s.aud := rfl
@[simp] theorem modRing_dsps (s : State) (r : Nat) (f : Ring → Ring) : (s.modRing r f).dsps = s.dsps := rfl
@[simp] theorem modRing_link (s : State) (r : Nat) (f : Ring → Ring) : (s.modRing r f).link = s.link := rfl
@[simp] theorem modRing_time (s : State) (r : Nat) (f : Ring → Ring) : (s.modRing r f).time = s.time := rfl
@[simp] theorem modRing_pwr (s : State) (r : Nat) (f : Ring → Ring) : (s.modRing r f).pwr = s.pwr := rfl
@[simp] theorem modRing_casc (s : State) (r : Nat) (f : Ring → Ring) : (s.modRing r f).casc = s.casc := rfl
@[simp] theorem modRing_health (s : State) (r : Nat) (f : Ring → Ring) : (s.modRing r f).health = s.health := rfl
@[simp] theorem modRing_nor (s : State) (r : Nat) (f : Ring → Ring) : (s.modRing r f).nor = s.nor := rfl
@[simp] theorem modRing_fw (s : State) (r : Nat) (f : Ring → Ring) : (s.modRing r f).fw = s.fw := rfl
@[simp] theorem modRing_trc (s : State) (r : Nat) (f : Ring → Ring) : (s.modRing r f).trc = s.trc := rfl
@[simp] theorem modRing_jtag (s : State) (r : Nat) (f : Ring → Ring) : (s.modRing r f).jtag = s.jtag := rfl
@[simp] theorem modRing_jobs (s : State) (r : Nat) (f : Ring → Ring) : (s.modRing r f).jobs = s.jobs := rfl
@[simp] theorem modRing_adapters (s : State) (r : Nat) (f : Ring → Ring) : (s.modRing r f).adapters = s.adapters := rfl

@[simp] theorem modRun_pending (s : State) (rid : Nat) (f : Run → Run) : (s.modRun rid f).pending = s.pending := rfl
@[simp] theorem modRun_fresh (s : State) (rid : Nat) (f : Run → Run) : (s.modRun rid f).fresh = s.fresh := rfl
@[simp] theorem modRun_epoch (s : State) (rid : Nat) (f : Run → Run) : (s.modRun rid f).epoch = s.epoch := rfl
@[simp] theorem modRun_dev (s : State) (rid : Nat) (f : Run → Run) : (s.modRun rid f).dev = s.dev := rfl
@[simp] theorem modRun_cfg (s : State) (rid : Nat) (f : Run → Run) : (s.modRun rid f).cfg = s.cfg := rfl
@[simp] theorem modRun_clusters (s : State) (rid : Nat) (f : Run → Run) : (s.modRun rid f).clusters = s.clusters := rfl
@[simp] theorem modRun_globalLocks (s : State) (rid : Nat) (f : Run → Run) : (s.modRun rid f).globalLocks = s.globalLocks := rfl
@[simp] theorem modRun_globalIn (s : State) (rid : Nat) (f : Run → Run) : (s.modRun rid f).globalIn = s.globalIn := rfl
@[simp] theorem modRun_barges (s : State) (rid : Nat) (f : Run → Run) : (s.modRun rid f).barges = s.barges := rfl
@[simp] theorem modRun_nextBid (s : State) (rid : Nat) (f : Run → Run) : (s.modRun rid f).nextBid = s.nextBid := rfl
@[simp] theorem modRun_cargos (s : State) (rid : Nat) (f : Run → Run) : (s.modRun rid f).cargos = s.cargos := rfl
@[simp] theorem modRun_dram (s : State) (rid : Nat) (f : Run → Run) : (s.modRun rid f).dram = s.dram := rfl
@[simp] theorem modRun_host (s : State) (rid : Nat) (f : Run → Run) : (s.modRun rid f).host = s.host := rfl
@[simp] theorem modRun_poison (s : State) (rid : Nat) (f : Run → Run) : (s.modRun rid f).poison = s.poison := rfl
@[simp] theorem modRun_parts (s : State) (rid : Nat) (f : Run → Run) : (s.modRun rid f).parts = s.parts := rfl
@[simp] theorem modRun_ctxs (s : State) (rid : Nat) (f : Run → Run) : (s.modRun rid f).ctxs = s.ctxs := rfl
@[simp] theorem modRun_used (s : State) (rid : Nat) (f : Run → Run) : (s.modRun rid f).used = s.used := rfl
@[simp] theorem modRun_period (s : State) (rid : Nat) (f : Run → Run) : (s.modRun rid f).period = s.period := rfl
@[simp] theorem modRun_rings (s : State) (rid : Nat) (f : Run → Run) : (s.modRun rid f).rings = s.rings := rfl
@[simp] theorem modRun_mboxes (s : State) (rid : Nat) (f : Run → Run) : (s.modRun rid f).mboxes = s.mboxes := rfl
@[simp] theorem modRun_posts (s : State) (rid : Nat) (f : Run → Run) : (s.modRun rid f).posts = s.posts := rfl
@[simp] theorem modRun_pcie (s : State) (rid : Nat) (f : Run → Run) : (s.modRun rid f).pcie = s.pcie := rfl
@[simp] theorem modRun_glb (s : State) (rid : Nat) (f : Run → Run) : (s.modRun rid f).glb = s.glb := rfl
@[simp] theorem modRun_status (s : State) (rid : Nat) (f : Run → Run) : (s.modRun rid f).status = s.status := rfl
@[simp] theorem modRun_log (s : State) (rid : Nat) (f : Run → Run) : (s.modRun rid f).log = s.log := rfl
@[simp] theorem modRun_img (s : State) (rid : Nat) (f : Run → Run) : (s.modRun rid f).img = s.img := rfl
@[simp] theorem modRun_aud (s : State) (rid : Nat) (f : Run → Run) : (s.modRun rid f).aud = s.aud := rfl
@[simp] theorem modRun_dsps (s : State) (rid : Nat) (f : Run → Run) : (s.modRun rid f).dsps = s.dsps := rfl
@[simp] theorem modRun_link (s : State) (rid : Nat) (f : Run → Run) : (s.modRun rid f).link = s.link := rfl
@[simp] theorem modRun_time (s : State) (rid : Nat) (f : Run → Run) : (s.modRun rid f).time = s.time := rfl
@[simp] theorem modRun_pwr (s : State) (rid : Nat) (f : Run → Run) : (s.modRun rid f).pwr = s.pwr := rfl
@[simp] theorem modRun_casc (s : State) (rid : Nat) (f : Run → Run) : (s.modRun rid f).casc = s.casc := rfl
@[simp] theorem modRun_health (s : State) (rid : Nat) (f : Run → Run) : (s.modRun rid f).health = s.health := rfl
@[simp] theorem modRun_nor (s : State) (rid : Nat) (f : Run → Run) : (s.modRun rid f).nor = s.nor := rfl
@[simp] theorem modRun_fw (s : State) (rid : Nat) (f : Run → Run) : (s.modRun rid f).fw = s.fw := rfl
@[simp] theorem modRun_trc (s : State) (rid : Nat) (f : Run → Run) : (s.modRun rid f).trc = s.trc := rfl
@[simp] theorem modRun_jtag (s : State) (rid : Nat) (f : Run → Run) : (s.modRun rid f).jtag = s.jtag := rfl
@[simp] theorem modRun_jobs (s : State) (rid : Nat) (f : Run → Run) : (s.modRun rid f).jobs = s.jobs := rfl
@[simp] theorem modRun_adapters (s : State) (rid : Nat) (f : Run → Run) : (s.modRun rid f).adapters = s.adapters := rfl

@[simp] theorem modEntry_pending (s : State) (e : Nat) (f : EntrySt → EntrySt) : (s.modEntry e f).pending = s.pending := rfl
@[simp] theorem modEntry_fresh (s : State) (e : Nat) (f : EntrySt → EntrySt) : (s.modEntry e f).fresh = s.fresh := rfl
@[simp] theorem modEntry_epoch (s : State) (e : Nat) (f : EntrySt → EntrySt) : (s.modEntry e f).epoch = s.epoch := rfl
@[simp] theorem modEntry_dev (s : State) (e : Nat) (f : EntrySt → EntrySt) : (s.modEntry e f).dev = s.dev := rfl
@[simp] theorem modEntry_cfg (s : State) (e : Nat) (f : EntrySt → EntrySt) : (s.modEntry e f).cfg = s.cfg := rfl
@[simp] theorem modEntry_clusters (s : State) (e : Nat) (f : EntrySt → EntrySt) : (s.modEntry e f).clusters = s.clusters := rfl
@[simp] theorem modEntry_globalLocks (s : State) (e : Nat) (f : EntrySt → EntrySt) : (s.modEntry e f).globalLocks = s.globalLocks := rfl
@[simp] theorem modEntry_globalIn (s : State) (e : Nat) (f : EntrySt → EntrySt) : (s.modEntry e f).globalIn = s.globalIn := rfl
@[simp] theorem modEntry_barges (s : State) (e : Nat) (f : EntrySt → EntrySt) : (s.modEntry e f).barges = s.barges := rfl
@[simp] theorem modEntry_nextBid (s : State) (e : Nat) (f : EntrySt → EntrySt) : (s.modEntry e f).nextBid = s.nextBid := rfl
@[simp] theorem modEntry_cargos (s : State) (e : Nat) (f : EntrySt → EntrySt) : (s.modEntry e f).cargos = s.cargos := rfl
@[simp] theorem modEntry_dram (s : State) (e : Nat) (f : EntrySt → EntrySt) : (s.modEntry e f).dram = s.dram := rfl
@[simp] theorem modEntry_host (s : State) (e : Nat) (f : EntrySt → EntrySt) : (s.modEntry e f).host = s.host := rfl
@[simp] theorem modEntry_poison (s : State) (e : Nat) (f : EntrySt → EntrySt) : (s.modEntry e f).poison = s.poison := rfl
@[simp] theorem modEntry_parts (s : State) (e : Nat) (f : EntrySt → EntrySt) : (s.modEntry e f).parts = s.parts := rfl
@[simp] theorem modEntry_ctxs (s : State) (e : Nat) (f : EntrySt → EntrySt) : (s.modEntry e f).ctxs = s.ctxs := rfl
@[simp] theorem modEntry_used (s : State) (e : Nat) (f : EntrySt → EntrySt) : (s.modEntry e f).used = s.used := rfl
@[simp] theorem modEntry_period (s : State) (e : Nat) (f : EntrySt → EntrySt) : (s.modEntry e f).period = s.period := rfl
@[simp] theorem modEntry_rings (s : State) (e : Nat) (f : EntrySt → EntrySt) : (s.modEntry e f).rings = s.rings := rfl
@[simp] theorem modEntry_mboxes (s : State) (e : Nat) (f : EntrySt → EntrySt) : (s.modEntry e f).mboxes = s.mboxes := rfl
@[simp] theorem modEntry_posts (s : State) (e : Nat) (f : EntrySt → EntrySt) : (s.modEntry e f).posts = s.posts := rfl
@[simp] theorem modEntry_pcie (s : State) (e : Nat) (f : EntrySt → EntrySt) : (s.modEntry e f).pcie = s.pcie := rfl
@[simp] theorem modEntry_glb (s : State) (e : Nat) (f : EntrySt → EntrySt) : (s.modEntry e f).glb = s.glb := rfl
@[simp] theorem modEntry_status (s : State) (e : Nat) (f : EntrySt → EntrySt) : (s.modEntry e f).status = s.status := rfl
@[simp] theorem modEntry_log (s : State) (e : Nat) (f : EntrySt → EntrySt) : (s.modEntry e f).log = s.log := rfl
@[simp] theorem modEntry_img (s : State) (e : Nat) (f : EntrySt → EntrySt) : (s.modEntry e f).img = s.img := rfl
@[simp] theorem modEntry_aud (s : State) (e : Nat) (f : EntrySt → EntrySt) : (s.modEntry e f).aud = s.aud := rfl
@[simp] theorem modEntry_dsps (s : State) (e : Nat) (f : EntrySt → EntrySt) : (s.modEntry e f).dsps = s.dsps := rfl
@[simp] theorem modEntry_link (s : State) (e : Nat) (f : EntrySt → EntrySt) : (s.modEntry e f).link = s.link := rfl
@[simp] theorem modEntry_time (s : State) (e : Nat) (f : EntrySt → EntrySt) : (s.modEntry e f).time = s.time := rfl
@[simp] theorem modEntry_pwr (s : State) (e : Nat) (f : EntrySt → EntrySt) : (s.modEntry e f).pwr = s.pwr := rfl
@[simp] theorem modEntry_casc (s : State) (e : Nat) (f : EntrySt → EntrySt) : (s.modEntry e f).casc = s.casc := rfl
@[simp] theorem modEntry_health (s : State) (e : Nat) (f : EntrySt → EntrySt) : (s.modEntry e f).health = s.health := rfl
@[simp] theorem modEntry_nor (s : State) (e : Nat) (f : EntrySt → EntrySt) : (s.modEntry e f).nor = s.nor := rfl
@[simp] theorem modEntry_fw (s : State) (e : Nat) (f : EntrySt → EntrySt) : (s.modEntry e f).fw = s.fw := rfl
@[simp] theorem modEntry_trc (s : State) (e : Nat) (f : EntrySt → EntrySt) : (s.modEntry e f).trc = s.trc := rfl
@[simp] theorem modEntry_jtag (s : State) (e : Nat) (f : EntrySt → EntrySt) : (s.modEntry e f).jtag = s.jtag := rfl
@[simp] theorem modEntry_jobs (s : State) (e : Nat) (f : EntrySt → EntrySt) : (s.modEntry e f).jobs = s.jobs := rfl
@[simp] theorem modEntry_adapters (s : State) (e : Nat) (f : EntrySt → EntrySt) : (s.modEntry e f).adapters = s.adapters := rfl

@[simp] theorem modTrc_pending (s : State) (r : Fin 10) (f : TrcUnit → TrcUnit) : (s.modTrc r f).pending = s.pending := rfl
@[simp] theorem modTrc_fresh (s : State) (r : Fin 10) (f : TrcUnit → TrcUnit) : (s.modTrc r f).fresh = s.fresh := rfl
@[simp] theorem modTrc_epoch (s : State) (r : Fin 10) (f : TrcUnit → TrcUnit) : (s.modTrc r f).epoch = s.epoch := rfl
@[simp] theorem modTrc_dev (s : State) (r : Fin 10) (f : TrcUnit → TrcUnit) : (s.modTrc r f).dev = s.dev := rfl
@[simp] theorem modTrc_cfg (s : State) (r : Fin 10) (f : TrcUnit → TrcUnit) : (s.modTrc r f).cfg = s.cfg := rfl
@[simp] theorem modTrc_sched (s : State) (r : Fin 10) (f : TrcUnit → TrcUnit) : (s.modTrc r f).sched = s.sched := rfl
@[simp] theorem modTrc_clusters (s : State) (r : Fin 10) (f : TrcUnit → TrcUnit) : (s.modTrc r f).clusters = s.clusters := rfl
@[simp] theorem modTrc_globalLocks (s : State) (r : Fin 10) (f : TrcUnit → TrcUnit) : (s.modTrc r f).globalLocks = s.globalLocks := rfl
@[simp] theorem modTrc_globalIn (s : State) (r : Fin 10) (f : TrcUnit → TrcUnit) : (s.modTrc r f).globalIn = s.globalIn := rfl
@[simp] theorem modTrc_barges (s : State) (r : Fin 10) (f : TrcUnit → TrcUnit) : (s.modTrc r f).barges = s.barges := rfl
@[simp] theorem modTrc_nextBid (s : State) (r : Fin 10) (f : TrcUnit → TrcUnit) : (s.modTrc r f).nextBid = s.nextBid := rfl
@[simp] theorem modTrc_cargos (s : State) (r : Fin 10) (f : TrcUnit → TrcUnit) : (s.modTrc r f).cargos = s.cargos := rfl
@[simp] theorem modTrc_dram (s : State) (r : Fin 10) (f : TrcUnit → TrcUnit) : (s.modTrc r f).dram = s.dram := rfl
@[simp] theorem modTrc_host (s : State) (r : Fin 10) (f : TrcUnit → TrcUnit) : (s.modTrc r f).host = s.host := rfl
@[simp] theorem modTrc_poison (s : State) (r : Fin 10) (f : TrcUnit → TrcUnit) : (s.modTrc r f).poison = s.poison := rfl
@[simp] theorem modTrc_parts (s : State) (r : Fin 10) (f : TrcUnit → TrcUnit) : (s.modTrc r f).parts = s.parts := rfl
@[simp] theorem modTrc_ctxs (s : State) (r : Fin 10) (f : TrcUnit → TrcUnit) : (s.modTrc r f).ctxs = s.ctxs := rfl
@[simp] theorem modTrc_used (s : State) (r : Fin 10) (f : TrcUnit → TrcUnit) : (s.modTrc r f).used = s.used := rfl
@[simp] theorem modTrc_period (s : State) (r : Fin 10) (f : TrcUnit → TrcUnit) : (s.modTrc r f).period = s.period := rfl
@[simp] theorem modTrc_rings (s : State) (r : Fin 10) (f : TrcUnit → TrcUnit) : (s.modTrc r f).rings = s.rings := rfl
@[simp] theorem modTrc_mboxes (s : State) (r : Fin 10) (f : TrcUnit → TrcUnit) : (s.modTrc r f).mboxes = s.mboxes := rfl
@[simp] theorem modTrc_posts (s : State) (r : Fin 10) (f : TrcUnit → TrcUnit) : (s.modTrc r f).posts = s.posts := rfl
@[simp] theorem modTrc_pcie (s : State) (r : Fin 10) (f : TrcUnit → TrcUnit) : (s.modTrc r f).pcie = s.pcie := rfl
@[simp] theorem modTrc_glb (s : State) (r : Fin 10) (f : TrcUnit → TrcUnit) : (s.modTrc r f).glb = s.glb := rfl
@[simp] theorem modTrc_status (s : State) (r : Fin 10) (f : TrcUnit → TrcUnit) : (s.modTrc r f).status = s.status := rfl
@[simp] theorem modTrc_log (s : State) (r : Fin 10) (f : TrcUnit → TrcUnit) : (s.modTrc r f).log = s.log := rfl
@[simp] theorem modTrc_img (s : State) (r : Fin 10) (f : TrcUnit → TrcUnit) : (s.modTrc r f).img = s.img := rfl
@[simp] theorem modTrc_aud (s : State) (r : Fin 10) (f : TrcUnit → TrcUnit) : (s.modTrc r f).aud = s.aud := rfl
@[simp] theorem modTrc_dsps (s : State) (r : Fin 10) (f : TrcUnit → TrcUnit) : (s.modTrc r f).dsps = s.dsps := rfl
@[simp] theorem modTrc_link (s : State) (r : Fin 10) (f : TrcUnit → TrcUnit) : (s.modTrc r f).link = s.link := rfl
@[simp] theorem modTrc_time (s : State) (r : Fin 10) (f : TrcUnit → TrcUnit) : (s.modTrc r f).time = s.time := rfl
@[simp] theorem modTrc_pwr (s : State) (r : Fin 10) (f : TrcUnit → TrcUnit) : (s.modTrc r f).pwr = s.pwr := rfl
@[simp] theorem modTrc_casc (s : State) (r : Fin 10) (f : TrcUnit → TrcUnit) : (s.modTrc r f).casc = s.casc := rfl
@[simp] theorem modTrc_health (s : State) (r : Fin 10) (f : TrcUnit → TrcUnit) : (s.modTrc r f).health = s.health := rfl
@[simp] theorem modTrc_nor (s : State) (r : Fin 10) (f : TrcUnit → TrcUnit) : (s.modTrc r f).nor = s.nor := rfl
@[simp] theorem modTrc_fw (s : State) (r : Fin 10) (f : TrcUnit → TrcUnit) : (s.modTrc r f).fw = s.fw := rfl
@[simp] theorem modTrc_jtag (s : State) (r : Fin 10) (f : TrcUnit → TrcUnit) : (s.modTrc r f).jtag = s.jtag := rfl
@[simp] theorem modTrc_jobs (s : State) (r : Fin 10) (f : TrcUnit → TrcUnit) : (s.modTrc r f).jobs = s.jobs := rfl
@[simp] theorem modTrc_adapters (s : State) (r : Fin 10) (f : TrcUnit → TrcUnit) : (s.modTrc r f).adapters = s.adapters := rfl

/-- The element changed. -/
@[simp] theorem vset_same {α : Type} {n : Nat} (v : Vector α n) (i : Fin n) (x : α) : (vset v i x)[i.val] = x := by
  simp [vset]

/-- Every other element. -/
theorem vset_other {α : Type} {n : Nat} (v : Vector α n) (i j : Fin n) (x : α) (h : j ≠ i) :
    (vset v i x)[j.val] = v[j.val] := by
  have : i.val ≠ j.val := fun e => h (Fin.ext e.symm)
  simp [vset, this]

/-- The element a function was applied to. -/
@[simp] theorem vmod_same {α : Type} {n : Nat} (v : Vector α n) (i : Fin n) (f : α → α) : (vmod v i f)[i.val] = f v[i.val] := by
  simp [vmod]

/-- Every other element of a group with one changed. -/
theorem vmod_other {α : Type} {n : Nat} (v : Vector α n) (i j : Fin n) (f : α → α) (h : j ≠ i) :
    (vmod v i f)[j.val] = v[j.val] :=
  vset_other v i j _ h

/-- The changed cluster. -/
@[simp] theorem modCl_same (s : State) (c : Fin 4) (f : Cluster → Cluster) : (s.modCl c f).clusters[c.val] = f s.clusters[c.val] :=
  vmod_same _ _ _

/-- The changed mailbox. -/
@[simp] theorem modMbox_same (s : State) (m : Fin 8) (f : Mbox → Mbox) : (s.modMbox m f).mboxes[m.val] = f s.mboxes[m.val] :=
  vmod_same _ _ _

/-- The changed DSP. -/
@[simp] theorem modDsp_same (s : State) (d : Fin 4) (f : Dsp → Dsp) : (s.modDsp d f).dsps[d.val] = f s.dsps[d.val] :=
  vmod_same _ _ _

/-- The changed partition. -/
@[simp] theorem modPart_same (s : State) (p : Fin 4) (f : Part → Part) : (s.modPart p f).parts[p.val] = f s.parts[p.val] :=
  vmod_same _ _ _

end Sys2Proof.Laws
end

