-- ==== Sys2Proof/Laws/Ops.lean ====
section
/-! SUPPORT. What the shared operations of Ops can change: one lemma for each, naming the fields that may differ. -/

namespace Sys2Proof.Laws
open Sys2Proof.Machine

/-- A fold of changes that each leave the state but for some fields does so as a whole. -/
theorem foldl_frame {α σ : Type} (P : σ → σ → Prop) (r : ∀ s, P s s) (tr : ∀ s t u, P s t → P t u → P s u)
    (f : σ → α → σ) (h : ∀ s a, P s (f s a)) (l : List α) (s : σ) : P s (l.foldl f s) := by
  induction l generalizing s with
  | nil => exact r s
  | cons a t ih => exact tr _ _ _ (h s a) (ih _)

theorem sendVec_frame (s : State) (v : Nat) : ∃ p, s.sendVec v = { s with pcie := p } := by
  unfold State.sendVec
  split <;> exact ⟨_, rfl⟩

theorem irqSync_frame (s : State) : ∃ p g, s.irqSync = { s with pcie := p, glb := g } := by
  unfold State.irqSync
  have h := foldl_frame (fun a b : State => ∃ p, b = { a with pcie := p }) (fun s => ⟨s.pcie, rfl⟩)
    (by rintro s t u ⟨p, rfl⟩ ⟨q, rfl⟩; exact ⟨q, rfl⟩)
    (fun (s' : State) v => if s.pending64.getLsbD v && !s'.glb.prevP.getLsbD v then s'.sendVec v else s')
    (fun s a => by
      split
      · exact sendVec_frame _ _
      · exact ⟨s.pcie, rfl⟩) (List.range 64) s
  obtain ⟨p, h⟩ := h
  simp only [h]
  exact ⟨_, _, rfl⟩

theorem setCause_frame (s : State) (i : Nat) : ∃ p g, s.setCause i = { s with pcie := p, glb := g } := by
  obtain ⟨p, g, h⟩ := irqSync_frame { s with glb := { s.glb with cause := s.glb.cause ||| (1#16 <<< i) } }
  exact ⟨p, g, h⟩

theorem audErr_frame (s : State) (n : Fin 5) (b : BitVec 7) :
    ∃ p g, s.audErr n b = { s.modAud n (fun p => { p with err := p.err ||| b }) with pcie := p, glb := g } :=
  irqSync_frame _

theorem lnkErr_frame (s : State) (b : BitVec 15) :
    ∃ p g, s.lnkErr b = { s with link := { s.link with err := s.link.err ||| b }, pcie := p, glb := g } :=
  irqSync_frame { s with link := { s.link with err := s.link.err ||| b } }

theorem trace_frame (s : State) (r : Fin 10) (cls ty hi : Nat) (data : List Byte) :
    ∃ x, s.trace r cls ty hi data = { s with trc := x } := by
  unfold State.trace
  split
  · exact ⟨_, rfl⟩
  · exact ⟨s.trc, rfl⟩

theorem traceMarker_frame (s : State) (r : Fin 10) (ty : Nat) (data : List Byte) (must : Bool) :
    ∃ x, s.traceMarker r ty data must = { s with trc := x } := by
  unfold State.traceMarker
  split
  · exact ⟨_, rfl⟩
  · exact ⟨s.trc, rfl⟩

theorem traceSync_frame (s : State) (r : Fin 10) : ∃ x, s.traceSync r = { s with trc := x } := by
  unfold State.traceSync
  dsimp only
  split
  · exact ⟨_, rfl⟩
  · exact ⟨s.trc, rfl⟩

theorem traceReachOn_frame (s : State) (r : Fin 10) (c : Nat) : ∃ x, s.traceReachOn r c = { s with trc := x } := by
  unfold State.traceReachOn
  obtain ⟨x, h⟩ := traceMarker_frame s r 0x03 (leBytes 1 c) true
  rw [h]
  exact traceSync_frame _ _

theorem traceLost_frame (s : State) (r : Fin 10) : ∃ x, s.traceLost r = { s with trc := x } := by
  unfold State.traceLost
  split
  · exact ⟨s.trc, rfl⟩
  · exact traceSync_frame _ _

theorem count_frame (s : State) (i n : Nat) : ∃ x, s.count i n = { s with trc := x } := ⟨_, rfl⟩

theorem logEvent_frame (s : State) (code flags : Nat) (data : List Byte) (lines : Nat) :
    ∃ l p g, s.logEvent code flags data lines = { s with log := l, pcie := p, glb := g } := by
  unfold State.logEvent
  split
  · exact ⟨_, s.pcie, s.glb, rfl⟩
  · obtain ⟨p, g, h⟩ := setCause_frame { s with log := s.log.write code flags s.now s.now data lines } 12
    exact ⟨_, p, g, h⟩

theorem ringPut_frame (s : State) (r : Nat) (e : List Byte) :
    ∃ a b p, s.ringPut r e = { s with host := a, rings := b, pcie := p } := by
  unfold State.ringPut
  split
  · exact ⟨s.host, s.rings, s.pcie, rfl⟩
  · dsimp only
    split
    · obtain ⟨p, h⟩ := sendVec_frame (State.modRing { s with host := s.host.writeBytes (Ring.slot _ _) (padTo 64 e) } r
        (fun g => { g with dev := g.dev + 1, arm := false })) _
      exact ⟨_, _, p, h⟩
    · exact ⟨_, _, s.pcie, rfl⟩

theorem eventLost_frame (s : State) (r : Nat) :
    ∃ a b p, s.eventLost r = { s with host := a, rings := b, pcie := p } := by
  unfold State.eventLost
  split
  · exact ⟨s.host, s.rings, s.pcie, rfl⟩
  · split
    · exact ⟨s.host, s.rings, s.pcie, rfl⟩
    · split
      · exact ⟨s.host, s.rings, s.pcie, rfl⟩
      · dsimp only
        obtain ⟨a, b, p, h⟩ := ringPut_frame s r _
        rw [h]
        exact ⟨a, _, p, rfl⟩

theorem ringEvent_frame (s : State) (r code ctx w : Nat) (log : Bool) (data : List Byte) :
    ∃ a b p, s.ringEvent r code ctx w log data = { s with host := a, rings := b, pcie := p } := by
  unfold State.ringEvent
  obtain ⟨a, b, p, h⟩ := eventLost_frame s r
  simp only [h]
  split
  · exact ⟨a, b, p, rfl⟩
  · split
    · exact ⟨a, _, p, rfl⟩
    · obtain ⟨a', b', p', h'⟩ := ringPut_frame { s with host := a, rings := b, pcie := p } r _
      rw [h']
      exact ⟨a', _, p', rfl⟩

theorem event_frame (s : State) (code ctx w : Nat) (log : Bool) (data : List Byte) :
    ∃ l a b p g, s.event code ctx w log data = { s with log := l, host := a, rings := b, pcie := p, glb := g } := by
  unfold State.event
  dsimp only
  have h : ∃ l p g, (if log = true then s.logEvent code (b2n (s.eventRing ctx).isSome) data 1 else s)
      = { s with log := l, pcie := p, glb := g } := by
    split
    · exact logEvent_frame _ _ _ _ _
    · exact ⟨s.log, s.pcie, s.glb, rfl⟩
  obtain ⟨l, p, g, h⟩ := h
  rw [h]
  split
  · exact ⟨l, s.host, s.rings, p, g, rfl⟩
  · obtain ⟨a', b', p', h'⟩ := ringEvent_frame { s with log := l, pcie := p, glb := g } _ code ctx w log data
    exact ⟨l, a', b', p', g, h'⟩

theorem logOnly_frame (s : State) (code : Nat) (data : List Byte) :
    ∃ l p g, s.logOnly code data = { s with log := l, pcie := p, glb := g } := logEvent_frame _ _ _ _ _

theorem groupChanged_frame (s : State) : ∃ x, s.groupChanged = { s with status := x } := ⟨_, rfl⟩

theorem stateChanged_frame (s : State) : ∃ x p g, s.stateChanged = { s with status := x, pcie := p, glb := g } := by
  obtain ⟨p, g, h⟩ := setCause_frame s.groupChanged 11
  exact ⟨_, p, g, h⟩

theorem setState_frame (s : State) (d : DevState) :
    ∃ x p g, s.setState d = { s with dev := { s.dev with state := d }, status := x, pcie := p, glb := g } := by
  unfold State.setState
  split
  · rename_i h; subst h; exact ⟨s.status, s.pcie, s.glb, rfl⟩
  · obtain ⟨x, p, g, h⟩ := stateChanged_frame { s with dev := { s.dev with state := d } }
    exact ⟨x, p, g, h⟩

theorem refresh_frame (s : State) :
    ∃ d x p g, s.refresh = { s with dev := { s.dev with state := d }, status := x, pcie := p, glb := g } := by
  unfold State.refresh
  split
  · obtain ⟨x, p, g, h⟩ := setState_frame s .degraded; exact ⟨_, x, p, g, h⟩
  · split
    · obtain ⟨x, p, g, h⟩ := setState_frame s .running; exact ⟨_, x, p, g, h⟩
    · exact ⟨s.dev.state, s.status, s.pcie, s.glb, rfl⟩

end Sys2Proof.Laws
end

