-- ==== Sys2Proof/Laws/Share.lean ====
section
/-! SUPPORT. What a change of the share on a core does to the runs. -/

namespace Sys2Proof.Laws
open Sys2Proof.Machine

/-- The first run of a number after the runs of a number changed. -/
theorem find_runs (l : List Run) (rid x : Nat) (f : Run → Run) (hf : ∀ r, (f r).rid = r.rid) :
    (l.map (fun r => if r.rid = rid then f r else r)).find? (fun r => r.rid = x) =
      (l.find? (fun r => r.rid = x)).map (fun r => if r.rid = rid then f r else r) := by
  induction l with
  | nil => rfl
  | cons r t ih =>
    have e : (if r.rid = rid then f r else r).rid = r.rid := by split <;> simp [hf]
    simp only [List.map_cons, List.find?_cons, e]
    split
    · rfl
    · exact ih

/-- The run of a number after the runs of a number changed. -/
theorem run_modRun (s : State) (rid x : Nat) (f : Run → Run) (hf : ∀ r, (f r).rid = r.rid) :
    (s.modRun rid f).run? x = (s.run? x).map (fun r => if r.rid = rid then f r else r) :=
  find_runs _ _ _ _ hf

/-- The run found has the number sought. -/
theorem run_rid {s : State} {x : Nat} {r : Run} (h : s.run? x = some r) : r.rid = x := by
  have := List.find?_some h
  simpa using this

/-- The share of an index after the share of an index changed. -/
theorem find_shares (l : List Share) (i j : Fin 4) (f : Share → Share) (hf : ∀ h, (f h).idx = h.idx) :
    (sharesMod f l i).find? (fun h => h.idx = j) =
      (l.find? (fun h => h.idx = j)).map (fun h => if h.idx = i then f h else h) := by
  unfold sharesMod
  induction l with
  | nil => rfl
  | cons r t ih =>
    have e : (if r.idx = i then f r else r).idx = r.idx := by split <;> simp [hf]
    simp only [List.map_cons, List.find?_cons, e]
    split
    · rfl
    · exact ih

/-- What a core's share tells: the core holds it, its run and index are as held. -/
theorem shareOn_some {s : State} {co : CoreId} {r : Run} {h : Share} (e : s.shareOn co = some (r, h)) :
    s.holds co = some (r.rid, h.idx) ∧ s.run? r.rid = some r ∧ r.shares.find? (fun x => x.idx = h.idx) = some h := by
  unfold State.shareOn at e
  unfold State.holds
  split at e
  · cases e
  · rename_i rid i hc
    simp only [Option.bind_eq_some_iff, Option.map_eq_some_iff] at e
    obtain ⟨r', hr, h', hh, e⟩ := e
    cases e
    have h1 := run_rid hr
    have h2 := List.find?_some hh
    simp only [decide_eq_true_eq] at h2
    subst h1; subst h2
    exact ⟨hc, hr, hh⟩

/-- A state whose cores hold the same shares and whose runs are those of `modShare` differs from the first only in the share. -/
theorem onlyShare_of {s t : State} {co : CoreId} {r : Run} {h : Share} {f : Share → Share} (e : s.shareOn co = some (r, h))
    (hf : ∀ h, (f h).idx = h.idx) (hh : ∀ co', t.holds co' = s.holds co') (hs : t.sched = (s.modShare co f).sched) :
    s.onlyShare t co r (f h) := by
  obtain ⟨h1, h2, h3⟩ := shareOn_some e
  have hm : s.modShare co f = s.modRun r.rid (fun r => { r with shares := sharesMod f r.shares h.idx }) := by
    unfold State.modShare
    unfold State.holds at h1
    rw [h1]
  rw [hm] at hs
  have hrun : ∀ x, t.run? x = (s.run? x).map (fun q => if q.rid = r.rid then { q with shares := sharesMod f q.shares h.idx } else q) := by
    intro x
    have := run_modRun s r.rid x (fun r => { r with shares := sharesMod f r.shares h.idx }) (fun _ => rfl)
    rw [← this]
    unfold State.run?
    rw [hs]
  have hon : ∀ co', t.shareOn co' = match s.holds co' with
      | none => none
      | some (x, i) => (t.run? x).bind (fun r => (r.shares.find? (fun h => h.idx = i)).map (fun h => (r, h))) := by
    intro co'
    rw [← hh]
    rfl
  refine ⟨by rw [hs]; rfl, ⟨{ r with shares := sharesMod f r.shares h.idx }, ?_, rfl⟩, ?_, ?_⟩
  · rw [hon, h1]
    simp [hrun, h2, find_shares _ _ _ _ hf, h3]
  · intro co' hne
    rw [hon]
    have hs' : s.shareOn co' = match s.holds co' with
      | none => none
      | some (x, i) => (s.run? x).bind (fun r => (r.shares.find? (fun h => h.idx = i)).map (fun h => (r, h))) := rfl
    rw [hs']
    cases hc : s.holds co' with
    | none => rfl
    | some p =>
      obtain ⟨x, i⟩ := p
      simp only [hrun]
      cases hr : s.run? x with
      | none => rfl
      | some q =>
        have hq := run_rid hr
        simp only [Option.map_some, Option.bind_some]
        by_cases hx : q.rid = r.rid
        · rw [if_pos hx, find_shares _ _ _ _ hf]
          have hi : i ≠ h.idx := by
            intro hi; apply hne; rw [hc, h1, ← hq, hx, hi]
          cases hfi : q.shares.find? (fun h => h.idx = i) with
          | none => rfl
          | some g =>
            have := List.find?_some hfi
            simp only [decide_eq_true_eq] at this
            simp [this, hi]
        · rw [if_neg hx]
  · intro x hx
    rw [hrun]
    cases hr : s.run? x with
    | none => rfl
    | some q =>
      have hq := run_rid hr
      simp [hq, hx]

/-- A change of the share on a core changes the runs only. -/
theorem modShare_frame (s : State) (co : CoreId) (f : Share → Share) : s.modShare co f = { s with sched := (s.modShare co f).sched } := by
  unfold State.modShare
  split <;> rfl

/-- A change of the share on a core, as the relation of states. -/
theorem onlyShare_modShare {s : State} {co : CoreId} {r : Run} {h : Share} {f : Share → Share} (e : s.shareOn co = some (r, h))
    (hf : ∀ h, (f h).idx = h.idx) : s.onlyShare (s.modShare co f) co r (f h) :=
  onlyShare_of e hf (fun co' => by rw [modShare_frame]; rfl) rfl

/-- What an instruction does while its share executes. -/
theorem shareStep_executes {s : State} {co : CoreId} {r : Run} {h : Share} (e : s.executes co r h) (f : Run → Share → State) :
    s.shareStep co f = f r h := by
  obtain ⟨e1, e2, e3, e4⟩ := e
  unfold State.shareStep
  rw [e1]
  simp [e2, e3, e4]

end Sys2Proof.Laws
end

