-- ==== Sys2Proof/Tests/Slice0.lean ====
section
/-! SUPPORT. Tests of the model: well-formedness, one step of a few commands with results taken from the rules, and a state that
meets the hypotheses of each statement. -/

namespace Sys2Proof.Tests
open Sys2Proof Sys2Proof.Machine
set_option Elab.async false

/-! ### States for the tests -/

/-- Ready and serving: every reach up, firmware running, Bus Master Enable set. -/
def up : State :=
  { State.reset with
    dev := { Dev.reset with powered := 0x3FF, state := .ready, index := 0, systime := 5000000 },
    fw := { Fw.reset with running := true, slot := 0 }, pcie := { Pcie.reset with busMaster := true },
    pwr := { Pwr.reset with mode := 3 } }

/-- The command's next state, tested. -/
def gives (c : Instr) (s : State) (p : State → Bool) : Bool :=
  match exec c s with
  | .next t => p t
  | _ => false

/-- Mailbox 0 holds a command taken. -/
def asked (s : State) (code ctx : Nat) (p : List Byte) : State :=
  s.modMbox 0 (fun b => { b with page := b.page.putLe 7 1 2, taken := some ⟨code, ctx, p⟩ })

/-- An entry of source 0 on cluster 0. -/
def ent : Entry := ⟨1, 0, 0, 1, 2, 1, 0, 0, 0, 100, 100, 0, 0, 0, [], []⟩

/-- A share in execution on core 0, its register s3 set. -/
def shr : Share :=
  { idx := 0, core := some 0, st := .running, ended := false, pc := 4, regs := (Vector.replicate 16 (0 : W32)).set 3 0xFFFFFFFE, ops := [],
    opSeq := 0, execs := 0, barges := [], words := (0, 0, 0), parity := none, vreg := Mem.empty, vmask := BitVec.allOnes 256 }

/-- A run in progress with that share and one that has not started. -/
def run0 : Run :=
  { rid := 7, entry := ent, ctx := 0, old := false, count := 9, stamp := 0, iv := 1000000, r31 := false, phase := .running, alt := false,
    budget := 100, ticks := 0, lastSel := 0, passed := 0, cause := none, faulted := false, noRaise := false, waitsLeft := [], pf := [],
    pfBad := false, start := some 0, cyc4 := 0, since := none, flags := 0, full := false, degr := false, info := TickInfo.plain, repaired := 0,
    stopped := false, shares := [shr, { shr with idx := 1, core := none, st := .notStarted }] }

def entSt : EntrySt := ⟨1, 0, 0, 0, 0, false, false, none, none⟩

/-- The state with a run whose first share executes on core 0 of cluster 0. -/
def withRun (r : Run) : State :=
  State.modCl { up with sched := { up.sched with runs := [r], entries := [entSt] } } 0
    (fun k => { k with cores := vmod k.cores 0 (fun y => { y with cur := some (7, 0) }) })

def busy : State := withRun run0
def co0 : CoreId := ⟨0, 0⟩
def va0 (f : VFmt) : VArgs := ⟨1, 2, 3, f, false⟩

/-! ### Well-formedness: one ill-formed term for each check -/

theorem wf_fma : Instr.wf (.vecFma co0 (va0 .int8)) = false := by decide
theorem wf_recip : Instr.wf (.vecRecip co0 (va0 .int16)) = false := by decide
theorem wf_sqrt : Instr.wf (.vecSqrt co0 (va0 .int32)) = false := by decide
theorem wf_rsqrt : Instr.wf (.vecRsqrt co0 (va0 .int8)) = false := by decide
theorem wf_exp2 : Instr.wf (.vecExp2 co0 (va0 .fp16)) = false := by decide
theorem wf_log2 : Instr.wf (.vecLog2 co0 (va0 .bf16)) = false := by decide
theorem wf_adds : Instr.wf (.vecAdds co0 (va0 .fp32)) = false := by decide
theorem wf_subs : Instr.wf (.vecSubs co0 (va0 .fp16)) = false := by decide
theorem wf_muls : Instr.wf (.vecMuls co0 (va0 .fp32)) = false := by decide
theorem wf_bitwise : Instr.wf (.vecAnd co0 (va0 .fp32)) = false ∧ Instr.wf (.vecOr co0 (va0 .fp32)) = false ∧
    Instr.wf (.vecXor co0 (va0 .fp32)) = false ∧ Instr.wf (.vecNot co0 (va0 .fp32)) = false := by decide
theorem wf_shifts : Instr.wf (.vecShl co0 (va0 .bf16)) = false ∧ Instr.wf (.vecLsr co0 (va0 .bf16)) = false ∧
    Instr.wf (.vecAsr co0 (va0 .bf16)) = false := by decide
theorem wf_narrow : Instr.wf (.vecNarrow co0 (va0 .int8) .int16) = false := by decide
theorem wf_reduce : Instr.wf (.vecRsum co0 (va0 .int16)) = false ∧ Instr.wf (.vecRmax co0 (va0 .fp16)) = false ∧
    Instr.wf (.vecRmin co0 (va0 .int8)) = false := by decide
theorem wf_span_registers : Instr.wf (.vld co0 31 2 0 256) = false := by decide
theorem wf_span_memory : Instr.wf (.vst co0 0 1 0x3FFF01 0) = false := by decide
theorem wf_span_none : Instr.wf (.vld co0 0 0 0 256) = false := by decide

/-! ### Other checks -/

theorem wf_arbiter : Instr.wf (.arbiterWindow 0 0 1 1 1 1 257 false) = false := by decide
theorem wf_bar2 : Instr.wf (.bar2Read 4095 2) = false ∧ Instr.wf (.bar2Read 0 0) = false ∧ Instr.wf (.bar2Write 0x800000000 [1]) = false := by
  decide
theorem wf_i3c : Instr.wf (.i3cTransferDone 0 4 0 []) = false ∧ Instr.wf (.i3cIbi 0 1 (List.replicate 9 0)) = false := by decide
theorem wf_pdm : Instr.wf (.pdmFrame [0]) = false := by decide
theorem wf_rep : Instr.wf (.rep 0 (.imm 0)) = false ∧ Instr.wf (.rep 0 (.imm 4097)) = false := by decide
theorem wf_loop : Instr.wf (.loop 0 33 (.imm 1)) = false ∧ Instr.wf (.loop 0 1 (.imm 0)) = false := by decide
theorem wf_moveblk : Instr.wf (.moveblk 0 .xx 0 0 (.imm 0)) = false := by decide
theorem wf_acc_shifts : Instr.wf (.lda 0 0 1 41) = false ∧ Instr.wf (.dspNarrow 0 0 1 41) = false ∧ Instr.wf (.asra 0 0 41) = false := by decide
theorem wf_frame : Instr.wf (.transitFrame 0 ⟨2, 0, 0, 0, 0, 0, 0, [0], true, false⟩) = false ∧
    Instr.wf (.dataFrame 0 ⟨1, 0, 0, 0, 0, 0, 0, zeros 266, true, false⟩) = false := by decide +kernel
theorem wf_register : Instr.wf (.registerWrite 0x3FFFFFF [0, 0]) = false := by decide
theorem wf_credits : Instr.wf (.zorudCreditReturn 0 false 257) = false := by decide

/-! ### Shares: one step, results by hand from R217 to R222 -/

/-- 0xFFFFFFFE + 5 = 3 modulo 2^32 (R218). -/
theorem test_add_wraps : gives (.scalarAdd co0 4 3 (.imm 5)) busy
    (fun t => match t.shareOn co0 with
      | some (_, h) => h.regs[4] == 3 && h.pc == 5
      | none => false) = true := by decide +kernel

/-- A shift by the width gives 0, and ASR of a negative word all ones (R69). -/
theorem test_shift_width : gives (.scalarAsr co0 4 3 (.imm 32)) busy
    (fun t => match t.shareOn co0 with
      | some (_, h) => h.regs[4] == 0xFFFFFFFF
      | none => false) = true := by decide +kernel

/-- BLT of a negative register by an offset of -1 from word 4 (R219). -/
theorem test_blt_negative : gives (.shareBlt co0 3 0xFFFF) busy
    (fun t => match t.shareOn co0 with
      | some (_, h) => h.pc == 3
      | none => false) = true := by decide +kernel

/-- A bitwise operation has no floating-point form (R222). -/
theorem test_vec_illegal : exec (.vecAnd co0 (va0 .fp32)) busy = .fault .illegalVectorForm := by rfl

/-! ### States that meet the hypotheses of the statements -/

theorem witness_step : ({ up with pending := [] } : State).pending = [] := rfl

theorem witness_executes : busy.executes co0 run0 shr := by unfold State.executes; decide

theorem witness_engine_idle : shr.ops = [] := rfl

/-- A share with an engine operation outstanding. -/
def shrOp : Share := { shr with ops := [⟨0, .matrix, 1, 0, none, 0, 0, none⟩] }
def runOp : Run := { run0 with shares := [shrOp] }

theorem witness_engine_busy : (withRun runOp).executes co0 runOp shrOp ∧ shrOp.ops ≠ [] := by unfold State.executes; decide

/-- The last word of local memory, and the first. -/
theorem witness_local_memory : busy.clusters[co0.c].lmem[shr.idx].wf = true ∧
    (shr.regs[3] + (BitVec.setWidth 32 (2 : BitVec 19))).toNat = 0 ∧ (shr.regs[0] + (BitVec.setWidth 32 (0x7FFFC : BitVec 19))).toNat % 4 = 0 ∧
    (shr.regs[0] + (BitVec.setWidth 32 (0x7FFFC : BitVec 19))).toNat < 0x400000 := by decide

/-- A FILL of two bytes of the own cluster's memory, at operand 0 of local memory. -/
def fillDesc : List Byte :=
  [0x41, 0, 0, 0] ++ leBytes 4 2 ++ leBytes 2 1 ++ leBytes 2 1 ++ zeros 28 ++ leBytes 8 0x100000000000 ++ zeros 16
def busyFill : State :=
  State.modCl busy 0 (fun k => { k with lmem := vmod k.lmem 0 (fun m => m.writeBytes 0 fillDesc) })

theorem witness_barge_issue :
    (busyFill.bargeCheck true (busyFill.shareBytes 0 0 0 64)).1 = none ∧
    (∀ p ∈ (busyFill.bargeCheck true (busyFill.shareBytes 0 0 0 64)).2.parts, busyFill.clusters[p].reset = none) ∧
    busyFill.moverFull ((busyFill.bargeCheck true (busyFill.shareBytes 0 0 0 64)).2.mover co0) = false ∧
    refValid (busyFill.bargeCheck true (busyFill.shareBytes 0 0 0 64)).2.wait = false := by decide +kernel

/-- References of scope 0, 1 (of cluster 2) and 2, for lock 5 and count 1. -/
theorem witness_raises : refValid 0 = false ∧ (refValid 0x80002808 = true ∧ refScope 0x80002808 = 0 ∧ refLock 0x80002808 = 5) ∧
    (refValid 0xA0402808 = true ∧ refScope 0xA0402808 = 1 ∧ refCluster 0xA0402808 ≠ co0.c) ∧
    (refValid 0xC0002808 = true ∧ refScope 0xC0002808 = 2) ∧ (∀ x ∈ busy.clusters[co0.c].keeper.waiters, x.lock ≠ refLock 0x80002808) := by
  decide

/-- Lock 5 at 1, and at 0. -/
def busyLock (n : Nat) : State := State.modCl busy 0 (fun k => { k with keeper := ⟨[(5, n)], []⟩ })

/-- A wait at the lock of 511 others. -/
theorem witness_lockw_behind : let s := State.modCl busy 0 (fun k => { k with keeper := ⟨[], List.replicate 511 ⟨5, 1, 10, .share co0 7 0⟩⟩ })
    s.clusters[co0.c].keeper.waiters.length < 512 ∧ ∃ x ∈ s.clusters[co0.c].keeper.waiters, x.lock = refLock 0x80002808 :=
  ⟨by decide +kernel, ⟨5, 1, 10, .share co0 7 0⟩, by decide +kernel, by decide⟩

theorem witness_lockw_passes : refCount 0x80002808 ≤ (busyLock 1).clusters[co0.c].keeper.level (refLock 0x80002808) := by decide
theorem witness_lockw_waits : busy.clusters[co0.c].keeper.level (refLock 0x80002808) < refCount 0x80002808 ∧
    busy.clusters[co0.c].keeper.waiters.length < 512 := by decide

def withRaises : State := State.modCl { up with globalIn := [(3, 2)] } 1 (fun k => { k with raisesIn := [(1023, 255)] })

theorem witness_raises_arrive : withRaises.clusters[(1 : Fin 4)].raisesIn = [(1023, 255)] ∧ withRaises.clusterUp 1 = true ∧
    (∀ x ∈ withRaises.clusters[(1 : Fin 4)].keeper.waiters, x.lock ≠ 1023) ∧ withRaises.globalIn = [(3, 2)] ∧ withRaises.fwUp = true ∧
    (∀ x ∈ withRaises.globalLocks.waiters, x.lock ≠ 3) := by decide

/-- A share whose LOCKW has waited beyond its time, in a run in overrun. -/
def shrWait : Share := { shr with st := .inLockw }
def runLate : Run := { run0 with cause := some 0, shares := [shrWait] }
def late : State :=
  State.modCl (withRun runLate) 0 (fun k => { k with keeper := ⟨[], [⟨5, 1, 10, .share co0 7 0⟩]⟩ })

theorem witness_lockw_timeout : late.lockwLate co0 = some (7, 0, ⟨5, 1, 10, .share co0 7 0⟩) ∧ late.run? 7 = some runLate ∧
    runLate.cause ≠ none ∧ runLate.shares.find? (fun g => g.idx = 0) = some shrWait := by decide +kernel

/-! Vectors -/

theorem witness_vector_forms : vfloat VFmt.fp32 ≠ none ∧ floatForm .int32 = false ∧ floatForm .bf16 = true ∧ narrowForm .int32 .int8 = true ∧
    narrowForm .int8 .int16 = false := by decide

theorem witness_lanes : Mem.empty.wf = true ∧ 63 < vlanes .fp32 ∧ 255 < vlanes .int8 ∧ laneOn (BitVec.allOnes 256) true 255 = true ∧
    laneOn 0 true 0 = false := by decide

theorem witness_vector_span : vectorSpan 31 1 0x3FFF00 0 = true ∧ vectorSpan 0 32 0 256 = true ∧ shr.vreg.wf = true ∧
    busy.localBlockers run0 shr (vecRanges (vecSpans 32 0 256) false) = [] ∧
    busy.localBlockers run0 shr (vecRanges (vecSpans 32 0 256) true) = [] := by decide +kernel

/-! Ticks and runs -/

/-- Source 0 CONTROL, 1 ROWGROUP with a BLANK owed, 3 FRAME; on the 1 ms grid. -/
def ticking : State :=
  { up with
    sched := { up.sched with
      src := (((up.sched.src.set 0 { TickSrc.off with kind := 4, periodUs := 1000, phaseUs := 0, due := 4000000 }).set 1
        { TickSrc.off with kind := 1, bind := 0, blanks := 2, blankNo := 1, blankAt := 1000, last := some 1000 }).set 3 { TickSrc.off with kind := 3 }) },
    img := { up.img with frameSrc := 2, genNext := 4000000, genPeriod := 1000000, genPhase := 0 } }

theorem witness_control_tick : ticking.sched.running = false ∧ ticking.noStop ∧
    ticking.sched.src[(0 : Fin 16)].kind = 4 ∧ 0 < ticking.sched.src[(0 : Fin 16)].periodUs ∧
    ticking.sched.src[(0 : Fin 16)].due ≤ ticking.now ∧ ticking.tooSoon 0 = false := by unfold State.noStop; decide +kernel

theorem witness_blank_tick : ticking.sched.src[(1 : Fin 16)].kind = 1 ∧ 0 < ticking.sched.src[(1 : Fin 16)].blanks ∧
    ticking.sched.src[(1 : Fin 16)].blankAt * 1000 + ((ticking.sched.src[(1 : Fin 16)].blankNo + 1 : Nat) * ticking.srcIntervalQ 1).floor.toNat ≤
      ticking.now * 1000 ∧ ticking.tooSoon 1 = false := by decide +kernel

theorem witness_tick_lost : ticking.sched.src[(1 : Fin 16)].kind ≠ 0 ∧ ticking.sched.src[(1 : Fin 16)].kind ≠ 4 ∧ ticking.sched.src[(1 : Fin 16)].lost = false ∧
    1000 * 1000 + 4 * ticking.srcInterval 1 < ticking.now * 1000 := by decide +kernel

theorem witness_frame_tick : ticking.sched.src[(3 : Fin 16)].kind = 3 ∧
    (∀ j : Fin 16, j ≠ 3 → ticking.sched.src[j].kind ≠ 3) ∧ ticking.tooSoon 3 = false ∧ ticking.on 4 = true ∧
    ticking.img.frameSrc = 2 ∧ ticking.img.genNext ≤ ticking.now ∧
    ({ ticking with img := { ticking.img with frameSrc := 0 } } : State).img.frameSrc = (if true then 0 else 1) := by decide +kernel

def runWait : Run := { run0 with phase := .waiting, shares := [] }
def waiting : State := { up with sched := { up.sched with runs := [runWait], entries := [entSt] } }

theorem witness_run_start : waiting.run? 7 = some runWait ∧ runWait.phase = .waiting ∧ runWait.waitsLeft = [] ∧ runWait.pf = [] ∧
    runWait.pfBad = false ∧ waiting.clusterUp runWait.entry.cluster = true ∧ 3 ≤ waiting.clusters[runWait.entry.cluster].healthy := by decide +kernel

/-- The share of run 7 suspended on core 0, which is idle. -/
def suspended : State :=
  State.modCl { up with sched := { up.sched with runs := [run0], entries := [entSt] } } 0
    (fun k => { k with cores := vmod k.cores 0 (fun y => { y with susp := [(7, 0)] }) })

theorem witness_run_resume : suspended.run? 7 = some run0 ∧ suspended.clusters[(0 : Fin 4)].cores[(0 : Fin 4)].usable = true ∧
    suspended.clusters[(0 : Fin 4)].cores[(0 : Fin 4)].cur = none ∧ suspended.nextShare 0 0 = some (run0, 0, true) ∧ run0.rid = 7 ∧
    suspended.clusterUp run0.entry.cluster = true ∧
    (∀ q ∈ suspended.sched.runs, q.entry.cluster = run0.entry.cluster → q.entry.cls = 0 → q.phase ≠ .waiting) := by
  decide +kernel

def shrEnd : Share := { shr with ended := true }
def runEnd : Run := { run0 with shares := [shrEnd, { shr with idx := 1, core := none, st := .notStarted }] }

theorem witness_share_retire : (withRun runEnd).shareOn co0 = some (runEnd, shrEnd) ∧ shrEnd.ended = true ∧ shrEnd.ops = [] ∧ shrEnd.barges = [] ∧
    (withRun runEnd).clusterUp co0.c = true ∧ (withRun runEnd).noStop ∧
    (∃ g ∈ runEnd.shares, g.idx ≠ shrEnd.idx ∧ g.st ≠ .retired) ∧ (∀ g ∈ runEnd.shares, g.idx = shrEnd.idx → g = shrEnd) ∧
    (∀ q ∈ (withRun runEnd).sched.runs, q.rid = runEnd.rid → q = runEnd) := by unfold State.noStop; decide +kernel

/-- No run waits behind another. -/
def State.idleRuns (s : State) : Prop := ∀ q ∈ s.sched.runs, q.phase ≠ .pending
def withPolicy (r : Run) (n : Nat) : Run := { r with entry := { r.entry with policy := n } }

def runOver : Run := { run0 with cyc4 := 401 }
theorem witness_over_budget : ∀ n ∈ [0, 1, 2], let r := withPolicy runOver n
    (withRun r).run? 7 = some r ∧ r.phase = .running ∧ r.cause = none ∧ r.entry.policyAt r.alt ≠ 3 ∧ State.idleRuns (withRun r) ∧
    r.budget * 4 < (withRun r).elapsed4 r ∧ (withRun r).entry? r.entry.id = some entSt ∧ (withRun r).noStop ∧
    r.entry.policyAt r.alt = n ∧ r.old = false := by unfold State.noStop State.idleRuns; decide +kernel

def runDue : Run := { run0 with stamp := 0, iv := 1 }
theorem witness_deadline : let r : Run := { withPolicy runDue 0 with cause := some 0 }
    let d := withPolicy runDue 1
    (∀ x ∈ [r, d], (withRun x).run? 7 = some x ∧ x.current = true ∧ x.passed = 0 ∧ (withRun x).due1 x = true ∧ x.stopped = false ∧
      (withRun x).quiescing x.entry.cluster = false ∧ (withRun x).noStop) ∧
    r.cause ≠ none ∧ r.entry.policyAt r.alt ≠ 2 ∧ d.phase = .running ∧ d.cause = none ∧ d.entry.policyAt d.alt = 1 ∧ d.old = false ∧
    (withRun d).entry? d.entry.id = some entSt := by unfold State.noStop; decide +kernel

def runOld : Run := { run0 with phase := .waiting, waitsLeft := [0], entry := { ent with timeout := 1, policy := 1 } }
theorem witness_entry_timeout : ∀ c ∈ [none, some 0], let r : Run := { runOld with cause := c }
    let s : State := { withRun r with dev := { (withRun r).dev with systime := 5000000 } }
    s.run? 7 = some r ∧ r.phase = .waiting ∧ r.passed = 0 ∧ s.beyond r.stamp (r.entry.timeout * 1000000) = true ∧ r.waitsLeft ≠ [] ∧
    State.idleRuns s ∧ s.noStop ∧ r.cause = c ∧ r.entry.policyAt (r.alt || s.runAlt r) ≠ 2 ∧ r.entry.policyAt (r.alt || s.runAlt r) ≠ 3 := by
  unfold State.noStop State.idleRuns; decide +kernel

def runGone : Run := { run0 with phase := .dropped, old := true, noRaise := true, iv := 1 }
theorem witness_dropped : (withRun runGone).run? 7 = some runGone ∧ runGone.phase = .dropped ∧ (withRun runGone).due1 runGone = true ∧
    State.idleRuns (withRun runGone) ∧ (withRun runGone).noStop := by unfold State.noStop State.idleRuns; decide +kernel

/-- A step of one element that was not clipped, ended; and one that was, in progress. -/
def step0 : ClipStep :=
  { rid := 7, addr := 0, source := 0, count := 9, ceiling := 0x40000000, fb := true, clipped := 0, total := 1, stepMax := 0, ended := true }
def step1 : ClipStep := { step0 with rid := 8, count := 10, clipped := 1, ended := false }

/-- A clip slot in fallback at its 63rd quiet step. -/
def slot0 : ClipSlot :=
  { cargo := 0, slot := 0, num := 511, record := 0, cCal := 0x3F800000, ceiling := 0x40000000, threshold := 100, depth := 2, linked := false,
    inFallback := true, streak := 63, hist := [0x40000000], live := [step0, step1], reload := none, steps := 0,
    lastShare := 0, lastClipped := 0, lastTotal := 0, fbNow := true, next := none }

theorem witness_clip_step : slot0.reload = none ∧ clipShare 0 1 ≤ slot0.threshold ∧ slot0.inFallback = true ∧ slot0.streak = 63 ∧
    slot0.threshold < clipShare 1 1 ∧ ({ slot0 with streak := 62 } : ClipSlot).streak ≠ 63 ∧
    ({ slot0 with inFallback := false } : ClipSlot).inFallback = false := by decide +kernel

def clipping : State := State.modCl up 3 (fun k => { k with slots := [slot0] })
theorem witness_clip_due : clipping.fwUp = true ∧ clipping.clusterUp 3 = true ∧
    clipping.clusters[(3 : Fin 4)].slots.find? (fun y => y.num = (511 : Fin 512).val) = some slot0 ∧ slot0.linked = false ∧
    slot0.live.find? (fun y => y.ended) = some step0 := by
  decide +kernel

/-- The 64th quiet step restores C_cal (R82). -/
theorem test_clip_restores : gives (.clipStepEvaluation 3 511) clipping
    (fun t => t.clusters[3].slots.all (fun x => x.ceiling == 0x3F800000 && !x.inFallback && x.live == [step1])) = true := by decide +kernel

/-! Engines -/

/-- An operation of each engine, of the op given, ready on core 0. -/
def opOf (k : EngKind) (op : Nat) : EngOp := ⟨0, k, op, 0, none, 0, 0, none⟩
def shrWith (k : EngKind) (op : Nat) : Share := { shr with ops := [opOf k op] }
def runWith (k : EngKind) (op : Nat) : Run := { run0 with shares := [shrWith k op] }

theorem witness_engine_matrix :
    (withRun (runWith .matrix 1)).readyOp co0 .matrix [0x01] = some (runWith .matrix 1, shrWith .matrix 1, opOf .matrix 1) := by
  decide +kernel

theorem witness_engine_stripe : ∀ op ∈ [0x10, 0x11, 0x12, 0x13, 0x14],
    (withRun (runWith .stripe op)).readyOp co0 .stripe [op] = some (runWith .stripe op, shrWith .stripe op, opOf .stripe op) := by
  decide +kernel

theorem witness_engine_attention : ∀ op ∈ [0x30, 0x31, 0x32],
    (withRun (runWith .attn op)).readyOp co0 .attn [op] = some (runWith .attn op, shrWith .attn op, opOf .attn op) := by decide +kernel

/-- The clip slot of the layer: one with an ended step of another run holds it back, one with none does not. -/
theorem witness_held : let r := runWith .matrix 1
    let h (l : List ClipStep) : State :=
      State.modCl (withRun r) 0 (fun k => { k with slots := [{ slot0 with live := l }] })
    r.entry.cls ≠ 3 ∧
    (h [{ step0 with rid := 6 }]).readyOp co0 .matrix [0x01] = some (r, shrWith .matrix 1, opOf .matrix 1) ∧
    (h [{ step0 with rid := 6 }]).slot? 0 r.entry.cargo 0 = some { slot0 with live := [{ step0 with rid := 6 }] } ∧
    ({ slot0 with live := [{ step0 with rid := 6 }] } : ClipSlot).holds r.rid 0 = true ∧
    ({ slot0 with live := [] } : ClipSlot).holds r.rid 0 = false ∧ (withRun r).slot? 0 r.entry.cargo 0 = none := by decide +kernel

/-- The ranges of an attention operation whose descriptor lies at 0 of local memory. -/
def attnRanges (s : State) : List (Nat × Nat) :=
  let d := AttnDesc.ofBytes (s.shareBytes 0 0 0 128)
  d.dram (SetDesc.ofBytes (s.shareBytes 0 0 d.set 64))

/-- The attention operations of a run of class TICK, with no copy of a row range in progress, and with a copy of the first megabyte. -/
theorem witness_attention : ∀ op ∈ [0x30, 0x31, 0x32], let r : Run := { runWith .attn op with entry := { ent with cls := 0 } }
    let s := withRun r
    let c := s.modPart 0 (fun q => { q with test := some ⟨0, 0, .copying⟩ })
    r.entry.cls = 0 ∧ (opOf .attn op).owed = none ∧ (attnRanges s).any (fun x => s.copying x.1 x.2) = false ∧
    (attnRanges c).any (fun x => c.copying x.1 x.2) = true ∧ c.readyOp co0 .attn [op] = some (r, shrWith .attn op, opOf .attn op) := by
  decide +kernel

theorem witness_parity : let h := shrWith .matrix 1
    h.parity ≠ some 2 ∧ ({ h with parity := some 2 } : Share).parity = some 2 ∧ (runWith .matrix 1).passed = 0 ∧ h.barges = [] ∧
    (withRun (runWith .matrix 1)).clusterUp co0.c = true ∧ (withRun (runWith .matrix 1)).noStop := by
  unfold State.noStop; decide +kernel

theorem witness_shifts : 0 < 8 ∧ 7 < 8 ∧ 255 < 2 ^ 8 ∧ intMin 8 ≤ (-128 : Int).tdiv (2 ^ 0) ∧ (-128 : Int).tdiv (2 ^ 0) ≤ intMax 8 := by decide

/-- The worked values of R69: NARROW of -3 by 1 gives -1. -/
theorem test_narrow_truncates : sgn 8 (narrowInt 8 (-3) 1).1 = -1 := by decide +kernel

/-! Barges and DRAM -/

/-- Two bytes from the end of DRAM of partition 0 to the end of cluster 1's memory. -/
def desc0 : BDesc :=
  { op := 0x40, ctl := 0, timeout := 1, xBytes := 2, yCount := 1, zCount := 1, srcY := 0, srcZ := 0, dstY := 0, dstZ := 0, wait := 0,
    src := 0x1FFFFFFFE, dst := 0x100001FFFFFE, raise := 0, fill := 0, tag := 7, remote := false, dev := 0 }
def barge0 : Barge := ⟨4, .share 7 0 co0, .dram 0, desc0, 0, 1, 0, [], false, false, false, [], none⟩
def carrying (b : Barge) : State := { up with barges := [b], nextBid := 5 }
def started : Barge := { barge0 with started := true }
def bargeWait : Barge := { barge0 with waiting := true, desc := { desc0 with wait := 0x80002808 } }

theorem witness_barge_start : (carrying barge0).barge? 4 = some barge0 ∧ (carrying barge0).bargeReady barge0 = true ∧
    (carrying barge0).sourceUe desc0 = false := by decide +kernel

theorem witness_barge_complete : (carrying started).barge? 4 = some started ∧ started.started = true ∧ started.owed = [] ∧
    (carrying started).clusterUp started.cluster = true ∧ started.desc.remote = false ∧ (carrying started).sourceUe started.desc = false ∧
    started.desc.op = 0x40 ∧ spaceOf started.desc.src = .dram 0 0x1FFFFFFFE ∧ 0x1FFFFFFFE + started.desc.xBytes ≤ 0x800000000 ∧
    spaceOf started.desc.dst = .clus 1 0xFFFFFE ∧ 0xFFFFFE + started.desc.xBytes ≤ 0x1000000 ∧
    (carrying started).bargeHeld started.desc = false ∧ (carrying started).poisoned 0x1FFFFFFFE started.desc.xBytes = [] ∧ refValid started.desc.raise = false ∧
    bit started.desc.ctl 2 = false ∧ (carrying started).clusters[(1 : Fin 4)].mem.wf = true := by decide +kernel

/-- The barge moves the bytes (R229). -/
theorem test_barge_copies : gives (.bargeComplete 4) { carrying started with dram := Mem.empty.writeBytes 0x1FFFFFFFE [0xAB, 0xCD] }
    (fun t => t.clusters[1].mem.readBytes 0xFFFFFE 2 == [0xAB, 0xCD]) = true := by decide +kernel

theorem witness_barge_timeout : let s := State.modCl (carrying bargeWait) 0 (fun k => { k with keeper := ⟨[], [⟨5, 1, 10, .barge 4⟩]⟩ })
    s.barge? 4 = some bargeWait ∧ bargeWait.started = false ∧ (∀ x ∈ s.barges, x.held = false) ∧ bargeWait.by_ = .share 7 0 co0 ∧
    (s.keeper (waitKeeper bargeWait.cluster bargeWait.desc.wait)).waiters.find? (fun x => x.who = .barge 4 && decide (x.expiry < s.now)) =
      some ⟨5, 1, 10, .barge 4⟩ := by decide +kernel

theorem witness_dram_shared : up.clusterUp 3 = true ∧ up.now / 1000 ≠ up.period ∧ (∀ b ∈ up.barges, b.owed = []) ∧
    (∀ r ∈ up.sched.runs, ∀ h ∈ r.shares, ∀ o ∈ h.ops, o.owed = none) ∧
    spaceOf 0x7FFFFFFFF = .dram 3 0x7FFFFFFFF ∧ bar2Ok 0x7FFFFFFFF 1 = true ∧ up.copying 0x7FFFFFFFF 1 = false ∧ up.poisoned 0x7FFFFFFFF 1 = [] ∧
    (∀ l ∈ linesOf 0x7FFFFFFFF 1, l ∉ up.poison) ∧ up.dram.wf = true ∧
    (up.modPart 3 (fun q => { q with test := some ⟨0x7FFF00000, 0, .copyBack⟩ })).copying 0x7FFFFFFFF 1 = true := by decide +kernel

theorem witness_dram_errors : ([up.now] : List Nat).length < up.key .memCeLimit ∧ lineOf 0x7FFFFFFFF ∉ up.poison ∧
    up.key .memCeLimit ≤ (List.replicate (up.key .memCeLimit) up.now).length ∧ rowRange 0 ∉ up.parts[(0 : Fin 4)].queue ∧
    up.parts[(0 : Fin 4)].test = none := by decide +kernel

def testing (ph : TestPhase) : State := up.modPart 0 (fun q => { q with test := some ⟨0, 0, ph⟩, spares := [(0, 0)] })
def queued : State := up.modPart 0 (fun q => { q with queue := [0] })
/-- The same with a tick to come to the cluster, the tick of its detection over, and the range repaired by spare 1 before. -/
def queuedKept : State :=
  { up.modPart 0 (fun q => { q with queue := [0], ready := [0], kept := [(0, 1)], spares := [(1, 0)] }) with
    sched := { up.sched with running := true } }

theorem witness_row_test : queued.parts[(0 : Fin 4)].queue = [0] ∧ queued.fwUp = true ∧ queued.clusterUp 0 = true ∧
    queued.parts[(0 : Fin 4)].test = none ∧ queued.fed 0 = false ∧
    (assoc queued.parts[(0 : Fin 4)].kept 0).or queued.parts[(0 : Fin 4)].freeSpare = some 0 ∧
    0 ∈ queuedKept.parts[(0 : Fin 4)].ready ∧ (assoc queuedKept.parts[(0 : Fin 4)].kept 0).or queuedKept.parts[(0 : Fin 4)].freeSpare = some 1 ∧
    (testing .copying).parts[(0 : Fin 4)].held = [] ∧ (∀ ch : Fin 2, queued.parts[(0 : Fin 4)].retrain[ch].state ≠ 1) ∧
    (testing .copying).parts[(0 : Fin 4)].test = some ⟨0, 0, .copying⟩ ∧ (testing .testing).parts[(0 : Fin 4)].test = some ⟨0, 0, .testing⟩ ∧
    (testing .copyBack).parts[(0 : Fin 4)].test = some ⟨0, 0, .copyBack⟩ := by decide +kernel

/-- A scrub at the start of a pass that is due, and in a pass. -/
theorem witness_scrub : let q := up.parts[(0 : Fin 4)]
    let r := (up.modPart 0 (fun q => { q with scrub := 64, scrubDue := 10 ^ 18 })).parts[(0 : Fin 4)]
    q.test = none ∧ (∀ ch : Fin 2, q.retrain[ch].state ≠ 1) ∧ q.scrubState ≠ 2 ∧ q.scrub = 0 ∧ q.scrubDue ≤ up.now ∧ r.scrubState ≠ 2 ∧
    r.scrub ≠ 0 := by decide +kernel

/-- A retraining last done at 1 ns, 40 degrees: due by a change of temperature, and, of both channels, by time. -/
def trained : State := up.modPart 0 (fun q => { q with retrain := Vector.replicate 2 ⟨0, 1, some 640⟩ })
def trainedLong : State := { trained with dev := { up.dev with systime := 200000000 } }
def retraining : State := up.modPart 0 (fun q => { q with retrain := q.retrain.set 0 ⟨1, 0, none⟩ })
theorem witness_retrain : trained.parts[(0 : Fin 4)].testDue = false ∧ trained.parts[(0 : Fin 4)].retrainNext = [] ∧
    trained.parts[(0 : Fin 4)].retrain[(0 : Fin 2)].due trained.now 768 = true ∧ trained.parts[(0 : Fin 4)].retrain[(0 : Fin 2)].due trained.now 640 = false ∧
    (trained.modPart 0 (fun q => { q with retrain := q.retrain.set 0 ⟨0, 5000000, none⟩ })).parts[(0 : Fin 4)].retrain[(0 : Fin 2)].due trained.now 768 = false ∧
    (∀ ch : Fin 2, trainedLong.parts[(0 : Fin 4)].retrain[ch].state = 0 ∧ trainedLong.parts[(0 : Fin 4)].retrain[ch].due trainedLong.now 640 = true) ∧
    trainedLong.clusterUp 0 = true ∧
    retraining.parts[(0 : Fin 4)].retrain[(0 : Fin 2)].state = 1 ∧ retraining.parts[(0 : Fin 4)].retrainNext = [] ∧
    retraining.parts[(0 : Fin 4)].testDue = false ∧
    (∀ e : Fin 2, e ≠ 0 → retraining.parts[(0 : Fin 4)].retrain[e].state = 0) := by decide +kernel

/-- A REGION_ALLOC whose zero fill is in flight. -/
def region0 : Region := { slot := 0, gen := 1, base := 0x100000, blocks := 1, owner := 0, retain := false, stale := false, update := true }
def filling : State :=
  (asked (up.modPart 0 (fun q => { q with regions := [region0] })) 0x0412 0 []).modMbox 0 (fun b => { b with flight := some ⟨0x0412, [0, 0], []⟩ })

theorem witness_zero_fill : filling.mboxes[(0 : Fin 8)].taken = some ⟨0x0412, 0, []⟩ ∧
    filling.mboxes[(0 : Fin 8)].flight = some ⟨0x0412, [0, 0], []⟩ ∧ filling.serving = true ∧
    filling.parts[(0 : Fin 4)].regions.find? (fun r => r.slot = 0) = some region0 ∧
    filling.copying region0.base region0.len = false ∧ filling.dram.wf = true := by decide +kernel

/-! Host commands -/

/-- A SYS_INFO posted to mailbox 0 of context 0, with no payload. -/
def posted : State :=
  { up.modMbox 0 (fun b => { b with page := (b.page.putLe 0 2 0x0101).putLe 7 1 1, posted := 0, postTime := 0 }) with posts := 1 }

theorem witness_mailbox : up.on 3 = true ∧ up.mboxes[(7 : Fin 8)].page.wf = true ∧ up.mboxes[(7 : Fin 8)].st = 0 ∧
    posted.serving = true ∧ posted.firstPost = some 0 ∧ posted.mboxes[(0 : Fin 8)].kept = none ∧ posted.mboxes[(0 : Fin 8)].page.wf = true ∧
    posted.gate 0x0101 0 0 [] = none ∧
    State.rejectedBusy (posted.modMbox 0 (fun b => { b with
      page := b.page.putLe 7 1 2, taken := some ⟨0x0101, 0, []⟩, flight := none,
      order := 1 + (posted.mboxes.toList.map (·.order)).foldl max 0 })) 0 ⟨0x0101, 0, []⟩ = false := by decide +kernel

/-- A command taken is BUSY: state 2 (R400, R401). -/
theorem test_take_is_busy : gives .mailboxTake posted (fun t => t.mboxes[0].st == 2) = true := by decide +kernel

theorem witness_sys_info : (asked up 0x0101 0 []).holdsTaken 0 0x0101 0 [] ∧ (asked up 0x0101 0 []).fw.slot ≠ 0xFF := by
  unfold State.holdsTaken; decide +kernel

theorem witness_supervisor : posted.on 3 = true ∧ posted.dev.state ≠ .off ∧ posted.mboxes[(0 : Fin 8)].st = 1 ∧
    posted.mboxes[(0 : Fin 8)].page.le 0 2 = 0x0101 ∧ posted.mboxes[(0 : Fin 8)].page.le 4 2 = 0 ∧
    posted.mboxes[(0 : Fin 8)].postTime + 500000 ≤ posted.now ∧ posted.fw.slot ≠ 0xFF := by decide +kernel

/-- A transaction opened at 0, and one ten seconds old. -/
def txn (w : KeySet) : State := { up with cfg := { up.cfg with txn := some (w, 0) } }
theorem witness_abandon : let s : State := { txn [] with dev := { up.dev with systime := 10000000000 } }
    s.cfg.txn = some ([], 0) ∧ s.fwUp = true ∧ 0 + 10000000000 ≤ s.now ∧ KeySet.same [] s.cfg.committed = true := by decide +kernel

/-! A cargo of one entry point, whose program is END, and a timetable of one entry of a CONTROL source on it. -/

/-- The bytes of both, as memory lists them: the cargo's image at 0 (320 bytes), the timetable at 0x100000 (96 bytes). -/
def imageMem : Mem :=
  ⟨[(0, 1), (3, 1), (4, 64), (5, 1), (8, 166), (9, 58), (10, 183), (11, 10), (12, 1), (16, 128), (37, 1), (40, 64), (128, 192), (136, 4),
    (192, 10), (196, 10), (259, 1)] ++
   [(1048576, 1), (1048578, 1), (1048580, 96), (1048584, 132), (1048585, 139), (1048586, 221), (1048587, 100), (1048608, 1),
    (1048611, 4), (1048612, 1), (1048616, 10), (1048620, 10), (1048624, 232), (1048625, 3), (1048628, 192)], []⟩
def ttImage : List Byte := imageMem.readBytes 0x100000 96

/-- Regions of context 0: one with the cargo's image, RETAIN, and one with the timetable's; and their handles. -/
def regC : Region := { slot := 0, gen := 1, base := 0, blocks := 1, owner := 0, retain := true, stale := false, update := false }
def regT : Region := { slot := 1, gen := 1, base := 0x100000, blocks := 1, owner := 0, retain := false, stale := false, update := false }
def hC : Nat := regC.handle 0
def hT : Nat := regT.handle 0
def images : State :=
  { up.modPart 0 (fun q => { q with regions := [regC, regT] }) with dram := imageMem }
def imgRd : Rd := fun o n => images.dram.readBytes (regC.base + 0 + o) n
def loadReq : List Byte := leBytes 4 hC ++ leBytes 4 0 ++ leBytes 4 320 ++ [1, 0, 0, 0]

theorem witness_cargo_load_region : let s := asked images 0x0301 0 loadReq
    s.holdsTaken 0 0x0301 0 loadReq ∧ s.region? (field loadReq 0 4) = some (0, regC) ∧ regC.owner = 0 ∧ regC.retain = true ∧
    s.on (clusterReach 0) = true ∧ s.regionBusy (field loadReq 0 4) = false ∧ field loadReq 12 1 = 1 ∧ field loadReq 13 3 = 0 ∧
    s.poisoned 0 320 = [] ∧ s.cargos.length < 64 ∧ (List.range 255).find? (fun i => (s.cargo? i).isNone) = some 0 := by
  unfold State.holdsTaken; decide +kernel

/-- The CRC of a string of bytes, from a state to a state. -/
def crcFrom (c : Nat) (l : List Byte) : Nat :=
  l.foldl (fun c b => (List.range 8).foldl (fun c _ => crcBit 0x82F63B78 c) (c ^^^ b.toNat)) c
theorem crcFrom_append (c : Nat) (k l : List Byte) : crcFrom c (k ++ l) = crcFrom (crcFrom c k) l := List.foldl_append

theorem crcFrom_start (l : List Byte) : crc32c l = crcFrom 0xFFFFFFFF l ^^^ 0xFFFFFFFF := rfl

theorem crc_image : crc32c (imgRd 0 8 ++ zeros 4 ++ imgRd 12 (320 - 12)) = 179780262 := by
  have e : imgRd 0 8 ++ zeros 4 ++ imgRd 12 (320 - 12) =
      (imgRd 0 8 ++ zeros 4 ++ imgRd 12 52) ++ (imgRd 64 64 ++ (imgRd 128 64 ++ (imgRd 192 64 ++ imgRd 256 64))) := by decide +kernel
  have a1 : crcFrom 0xFFFFFFFF (imgRd 0 8 ++ zeros 4 ++ imgRd 12 52) = 3104917157 := by decide +kernel
  have a2 : crcFrom 3104917157 (imgRd 64 64) = 1975031983 := by decide +kernel
  have a3 : crcFrom 1975031983 (imgRd 128 64) = 2789445957 := by decide +kernel
  have a4 : crcFrom 2789445957 (imgRd 192 64) = 1706842221 := by decide +kernel
  have a5 : crcFrom 1706842221 (imgRd 256 64) = 4115187033 := by decide +kernel
  rw [crcFrom_start, e, crcFrom_append, crcFrom_append, crcFrom_append, crcFrom_append, a1, a2, a3, a4, a5]
  decide

theorem witness_cargo_format : CargoHdr.format imgRd 320 = none := by
  have step (x : Nat) (h : crc32c (imgRd 0 8 ++ zeros 4 ++ imgRd 12 (320 - 12)) = x) (ok : imgRd.le 8 4 = x) :
      CargoHdr.format imgRd 320 = if imgRd.le 8 4 = x then none else some 8 := by
    subst h
    unfold CargoHdr.format
    rw [if_pos ok]
    generalize crc32c (imgRd 0 8 ++ zeros 4 ++ imgRd 12 (320 - 12)) = y at ok
    subst ok
    decide +kernel
  rw [step _ crc_image (by decide +kernel)]
  decide +kernel

theorem witness_cargo_descriptors : let hd := CargoHdr.read imgRd
    cargoDesc imgRd hd [0] images.inRegions (fun c => (images.cargos.filter (fun g => c ∈ g.clusters)).flatMap (·.prot)) = none ∧
    images.residentBad hd [0] = false ∧ hd.points = 1 ∧ images.adaptBad (pointOf imgRd hd 0) [0] = false ∧
    setForeign imgRd (cargoSets hd (cargoReach imgRd hd)) (images.inRetain 0) = none ∧ images.cargos = [] := by decide +kernel

/-- The cargo so loaded, with a clip slot. -/
def cargo0 : Cargo :=
  { handle := 0, owner := 0, region := hC, base := 0, len := 320, clusters := [0], points := [pointOf imgRd (CargoHdr.read imgRd) 0],
    slots := 1, lockFirst := 0, lockInit := [], resOff := 256, resLen := 64, resDest := 0, prot := [], layers := [], sets := [], setsOff := 0,
    setCount := 0, videoL := 0, videoS := 0, audioA := 0, adapterOff := 0, adapterLen := 0 }
def loaded : State :=
  State.modCl { images with cargos := [cargo0] } 0 (fun k => { k with slots := [{ slot0 with live := [] }] })

theorem witness_cargo_unload : loaded.cargo? (field [0, 0, 0, 0] 0 1) = some cargo0 ∧ field [0, 0, 0, 0] 1 3 = 0 ∧
    (loaded.cargoRegions cargo0).any loaded.regionBusy = false ∧ loaded.cargoUsed 0 = false := by decide +kernel

theorem witness_cargo_ceiling : let p : List Byte := [0, 1, 0, 0] ++ leBytes 4 0x3F800000
    field p 1 1 = 1 ∧ field p 2 2 < cargo0.slots ∧ posNormal (field p 4 4) = true ∧ (0 : Fin 4) ∈ cargo0.clusters ∧
    loaded.clusterUp 0 = true ∧ loaded.slot? 0 0 0 = some { slot0 with live := [] } ∧ slot0.linked = false := by decide +kernel

/-- Keys: source 0 CONTROL of 1 ms, the timetable named. -/
def keys0 : KeySet := KeySet.put (KeySet.put (KeySet.put [] (.tick 0 .kind) 4) (.tick 0 .period) 1000) .runTimetable (hT * 0x100000000)
def committing (w : KeySet) : State := asked { loaded with cfg := { up.cfg with txn := some (w, 0) } } 0x0203 0 []

theorem witness_commit_passes : let s := committing keys0
    (s.ttBytes (KeySet.get keys0 .runTimetable / 0x100000000) (KeySet.get keys0 .runTimetable % 0x100000000)) = some (ttImage, 0) ∧
    s.commitCheck keys0 (some ttImage) false = none ∧ s.active = false := by decide +kernel

theorem witness_commit_fails : (committing []).commitCheck [] none false = some (badKey 0x8104 .runTimetable) := by decide +kernel

theorem witness_cfg_set : let p := leBytes 2 1 ++ leBytes 2 0 ++ cfgRecord .memCeLimit 5
    (∃ l w, cfgRecords p (field p 0 2) 4 = .ok l ∧ setRecords [] l = .ok w) ∧ 1 ≤ field p 0 2 ∧ field p 2 2 = 0 := by
  refine ⟨⟨_, _, rfl, rfl⟩, by decide +kernel, by decide +kernel⟩

theorem witness_cfg_get : let p : List Byte := zeros 4 ++ ((cfgRecord .memCeLimit 5).take 32)
    field p 1 3 = 0 ∧ field p 0 1 = 0 ∧ Key.find ((p.drop 4).take 32) = some .memCeLimit := by decide +kernel

def tt0 : Timetable := ttOf ttImage 0
theorem witness_run_start_command : let s : State := asked { loaded with sched := { up.sched with committed := some tt0 } } 0x0401 0 []
    s.holdsTaken 0 0x0401 0 [] ∧ s.sched.committed = some tt0 ∧ s.dev.state = .ready := by unfold State.holdsTaken; decide +kernel

theorem witness_run_stop : let s : State := { asked up 0x0402 0 [] with dev := { up.dev with state := .running } }
    s.active = true ∧ s.sched.runs = [] ∧ (∀ d : Fin 4, s.dsps[d].tasks = []) ∧ (∀ k : Fin 8, k ≠ 0 → s.mboxes[k].flight = none) := by
  decide +kernel

theorem witness_run_stage : let s : State := { loaded with cfg := { up.cfg with committed := keys0 } }
    s.region? hT = some (0, regT) ∧ s.ttBytes hT 0 = some (ttImage, 0) ∧ s.ttCheck s.cfg.committed ttImage = none ∧
    s.delayChanges (ttOf ttImage 0) = none := by decide +kernel

theorem witness_run_info : let p : List Byte := [1, 0, 0, 0]
    let s : State := asked { loaded with sched := { up.sched with committed := some tt0 } } 0x0405 0 p
    s.holdsTaken 0 0x0405 0 p ∧ field p 0 2 ≠ 0xFFFF ∧ field p 2 2 = 0 ∧ s.sched.committed = some tt0 ∧
    tt0.entries.find? (fun x => x.id = field p 0 2) = tt0.entries.head? ∧ tt0.entries ≠ [] ∧
    (asked up 0x0405 0 [0xFF, 0xFF, 0, 0]).holdsTaken 0 0x0405 0 [0xFF, 0xFF, 0, 0] := by unfold State.holdsTaken; decide +kernel

/-- Context 1 with a quota of 4 blocks and a region of 5. -/
def ctx1 : Ctx := { cls := 1, quota := 4, budget := 0, budgetSet := 0, setStamp := none, overQuota := false }
def withCtx : State := { up with ctxs := [(0, Ctx.zero), (1, ctx1)] }
theorem witness_contexts : ((List.range 63).map (· + 1)).find? (fun c => !up.ctxExists c) = some 1 ∧
    ((List.range 63).map (· + 1)).find? (fun c => !withCtx.ctxExists c) = some 2 ∧ withCtx.ctxExists 1 = true ∧
    withCtx.ctxOwns 1 = false ∧ assoc withCtx.ctxs 1 = some ctx1 ∧ withCtx.use 1 ≤ 4 ∧
    4 < (withCtx.modPart 0 (fun q => { q with regions := [{ regC with owner := 1, blocks := 5 }] })).use 1 := by decide +kernel

theorem witness_regions : up.on (clusterReach 3) = true ∧ assoc up.ctxs 0 = some Ctx.zero ∧ Ctx.zero.overQuota = false ∧
    up.use 0 + 4096 ≤ Ctx.zero.quota ∧ up.fit 3 4096 = some 0x600000000 ∧
    (List.range 256).find? (fun i => !up.parts[(3 : Fin 4)].regions.any (fun r => r.slot = i)) = some 0 ∧
    images.region? hT = some (0, regT) ∧ images.regionBusy hT = false ∧ images.regionUsed hT = false := by decide +kernel

/-- Ring 0 a submission ring with entries 2 and 3 to take, ring 1 its completion ring, ring 2 context 0's event ring. -/
def subRing : Ring :=
  { kind := 1, n := 4, vector := 0xFF, pair := 1, base := 0, ctx := 0, host := 4, dev := 2, arm := false, badIndex := false, lost := false,
    lostCount := 0, held := [], dropped := none, seq := 0 }
def cplRing : Ring := { subRing with kind := 2, pair := 0, base := 0x1000, host := 0, dev := 3, vector := 5 }
def evRing : Ring := { subRing with kind := 3, pair := 0, base := 0x2000, host := 0, dev := 0 }
def withRings (e : List Byte) : State :=
  { up with rings := [(0, subRing), (1, cplRing), (2, evRing)], host := Mem.empty.writeBytes 128 e }

theorem witness_rings : (∀ e ∈ up.rings, ¬ (e.2.kind = 3 ∧ e.2.ctx = 0)) ∧ (List.range 512).find? (fun r => (up.ring? r).isNone) = some 0 ∧
    (withRings []).ring? 2 = some evRing ∧ evRing.kind ≠ 1 ∧ (withRings []).streamRing 2 = false ∧
    (∀ e ∈ (withRings []).rings, ¬ (e.2.kind = 1 ∧ e.2.pair = 2)) ∧ (withRings []).ring? 0 = some subRing ∧
    (withRings []).streamRing 0 = false ∧ (∀ e ∈ (withRings []).rings, ¬ (e.2.kind = 1 ∧ e.2.pair = 0)) := by decide +kernel

/-! ### Audio -/

/-- Port 0 with two input slots and one output slot, on APLL 1. -/
def pcfg (slave : Bool) : PortCfg := { PortCfg.reset with inMask := 5, outMask := 1, slave := slave, apll := 1 }
def port0 (slave : Bool) : Port :=
  { Port.reset with cfg := pcfg slave, running := true, inBuf := if slave then [] else [(0, 0), (0, 0)], outBuf := [7], lastFs := 0 }
def withPort (p : Port) : State := { up.modAud 0 (fun _ => p) with dev := { up.dev with state := .running } }

/-- Keys of a port 0 with one slot each way. -/
def portKeys : KeySet := KeySet.put (KeySet.put [] (.tdm 0 .inMask) 1) (.tdm 0 .outMask) 1
theorem witness_port_start : let s : State := { asked up 0x0601 0 ([1] ++ zeros 15) with cfg := { up.cfg with committed := portKeys } }
    s.holdsTaken 0 0x0601 0 ([1] ++ zeros 15) ∧ s.aud.port[(0 : Fin 5)].live = false ∧ (s.portCfg 0).inMask ≠ 0 ∧
    (s.portCfg 0).apll = 0 ∧ ∀ k : Fin 5, s.aud.port[k].live = false := by unfold State.holdsTaken; decide +kernel
theorem witness_port_stop : let s := withPort (port0 true)
    s.aud.port[(0 : Fin 5)].running = true ∧ s.aud.port[(0 : Fin 5)].cfg.slave = true ∧ field ([1] ++ zeros 7) 1 7 = 0 := by decide +kernel
theorem witness_chan_set : let p : List Byte := [0, 0, 0, 0, 4, 0, 0, 0] ++ [0, 8, 1, 0]
    (maskSlots (field p 4 4)) = [2] ∧ field p 10 1 = 1 ∧ field p 11 1 = 0 ∧ field p 2 2 = 0 ∧
    ∀ k ∈ maskSlots (field p 4 4), bit (withPort (port0 true)).aud.port[(0 : Fin 5)].cfg.inMask k = true := by decide +kernel

theorem witness_tdm : let s := withPort (port0 true)
    let q := withPort { port0 true with noClock := true }
    let r := withPort { port0 true with outBuf := [] }
    let m := withPort (port0 false)
    s.on 2 = true ∧ s.aud.port[(0 : Fin 5)].noClock = false ∧ q.aud.port[(0 : Fin 5)].noClock = true ∧
    m.aud.port[(0 : Fin 5)].inBuf.length = (pcfg false).eIn ∧ s.aud.port[(0 : Fin 5)].inBuf.length < 8 * (pcfg true).eIn ∧
    s.aud.port[(0 : Fin 5)].restart = 0 ∧ s.active = true ∧ s.aud.port[(0 : Fin 5)].quiet = false ∧
    s.aud.port[(0 : Fin 5)].outBuf = [7] ∧ r.aud.port[(0 : Fin 5)].outBuf = [] ∧ r.aud.port[(0 : Fin 5)].quiet = false ∧
    s.aud.port[(0 : Fin 5)].lastFs * (s.aud.apll[(1 : Fin 2)]).fs + 4000000000 ≤ s.now * (s.aud.apll[(1 : Fin 2)]).fs := by decide +kernel

/-- A master whose FIFO holds a frame beside the words in emission; a slot not of the port, high impedance or not. -/
theorem witness_tdm_master : let p : Port := { port0 false with outBuf := [7, 8, 9, 10] }
    let s := withPort p
    s.aud.port[(0 : Fin 5)] = p ∧ s.on 2 = true ∧ p.running = true ∧ p.cfg.slave = false ∧ bit p.cfg.outMask 0 = true ∧ s.active = true ∧
    p.outBuf.length = 4 * p.cfg.eOut ∧ bit p.cfg.outMask 1 = false ∧ p.cfg.hiz = false ∧
    ({ p with cfg := { p.cfg with hiz := true } } : Port).cfg.hiz = true := by decide +kernel

/-- An APLL started in a mode. -/
def withApll (mode : Nat) : State := up.modApll 0 (fun a => { a with started := true, mode := mode, wclkOut := false })
theorem witness_apll : (withApll 0).on 2 = true ∧ (withApll 0).audQuiescing = false ∧ (withApll 0).strobeWaits 0 = false ∧ (withApll 0).noStop ∧
    (withApll 0).aud.apll[(0 : Fin 2)].started = true ∧ (withApll 0).aud.apll[(0 : Fin 2)].mode = 0 ∧
    (∀ n : Fin 5, (withApll 0).aud.port[n].running = false) ∧ (withApll 2).aud.apll[(0 : Fin 2)].unpaired = [] ∧
    (withApll 2).aud.apll[(0 : Fin 2)].refLost = false ∧ (withApll 2).refGone 0 = true := by
  unfold State.noStop; decide +kernel

theorem witness_vaux : let v (x : Vaux) (c : Bool) : State := { up with aud := { up.aud with vaux := x, pdmClk := c } }
    let p := up.modAud 4 (fun p => { p with running := true })
    up.on 1 = true ∧ (v ⟨true, true, false, false, none⟩ false).aud.vaux.ramping = true ∧
    (v ⟨true, false, true, false, some 4000000⟩ false).now = 5000000 ∧ p.pdmRuns = true ∧
    p.aud.port[(4 : Fin 5)].inBlk.frame + 1 < p.aud.port[(4 : Fin 5)].cfg.block := by decide +kernel

/-! ### The cascade -/

def sess0 : Session :=
  { num := 0, mark := 0, code := 1, conf := 2, next := 7, slot := 1, credit := true, waiting := false, since := none }
def rec7 : RingRec := { seq := 7, stamp := 4000000, flags := 0, rflags := 0, data := [1, 2, 3, 4] }
def withSession (x : Session) : State :=
  { up with casc := { up.casc with ring := [rec7], stage := vmod up.casc.stage 0 (fun t => { t with session := some x }) } }
theorem witness_cascade : let s := withSession sess0
    let r := { withSession { sess0 with since := some 0 } with dev := { up.dev with systime := 200000000000 } }
    s.casc.stage[(0 : Fin 2)].session = some sess0 ∧ s.casc.ring.find? (fun r => r.seq = sess0.next) = some rec7 ∧ s.stageUp 0 = true ∧
    s.pwr.level < 2 ∧ s.clusters[s.stageCluster 0].mem.wf = true ∧ 0 + 100000000 < r.now ∧
    sess0.mark + r.key (.stage 0 .limit) * 1000000000 < r.now := by decide +kernel

/-! ### Imaging -/

def frame0 : FrameRec := ⟨0, 0xFFFFFFFF, 0, 0, none, false, false, 0, 0, false, []⟩
/-- Receiver 0 of 8 pixels by 32 rows, in frame 0 or before it, at a row. -/
def withRx (inFrame : Bool) (row : Nat) : State :=
  { up.modRx 0 (fun x => { x with cfg := { x.cfg with phy := 1, width := 8, height := 32 }, inFrame := inFrame, row := row }) with
    dev := { up.dev with state := .running } } |> fun s => { s with img := { s.img with frames := s.img.frames.set 0 [frame0] } }

theorem witness_packets : (withRx false 0).rxOn 0 = true ∧ (withRx false 0).noStop ∧ (withRx false 0).active = true ∧
    (withRx true 0).img.rx[(0 : Fin 2)].ended = false ∧ (withRx true 32).img.rx[(0 : Fin 2)].cfg.height ≤ 32 ∧
    (withRx true 3).img.frames[(0 : Fin 2)] = [frame0] ∧ (3 / (withRx true 3).img.rx[(0 : Fin 2)].cfg.perRow + 1) % (withRx true 3).rowsPer 0 ≠ 0 ∧
    3 / (withRx true 3).img.rx[(0 : Fin 2)].cfg.perRow + 1 ≠ (withRx true 3).img.rx[(0 : Fin 2)].cfg.planeH ∧
    (withRx true 3).img.rx[(0 : Fin 2)].cfg.dt < 256 ∧ (0 : BitVec 4).toNat = (withRx true 3).img.rx[(0 : Fin 2)].cfg.vc ∧
    (1 : BitVec 4).toNat ≠ (withRx true 3).img.rx[(0 : Fin 2)].cfg.vc := by unfold State.noStop; decide +kernel

def held0 : HeldRow := ⟨1, 0, 0, [(0x100, [1, 2])]⟩
theorem witness_rows : let s : State := (withRx true 3).modRx 0 (fun x => { x with gen := some 4000 })
    let h : State := (withRx true 3).modRx 0 (fun x => { x with held := [held0] })
    let l : State := { (withRx true 3).modRx 0 (fun x => { x with lock := true }) with dev := { up.dev with systime := 1000000000 } }
    s.img.rx[(0 : Fin 2)].gen = some 4000 ∧ 4000 ≤ s.now * 1000 ∧ s.noStop ∧ s.rxOn 0 = true ∧ h.rxOn 0 = true ∧ h.noStop ∧
    h.clusterUp held0.c = true ∧ h.slotHeld 0 held0.c (held0.row / h.rowsPer 0 % h.img.rx[(0 : Fin 2)].cfg.slots) = false ∧
    h.clusters[held0.c].mem.wf = true ∧ h.img.rx[(0 : Fin 2)].heldTicks = [] ∧ l.img.rx[(0 : Fin 2)].lock = true ∧
    l.img.rx[(0 : Fin 2)].lastBurst * 1000 + l.img.rx[(0 : Fin 2)].cfg.lines * l.img.rx[(0 : Fin 2)].cfg.linePs ≤ l.now * 1000 := by
  unfold State.noStop; decide +kernel

theorem witness_triggers : let a : State := { up with img := { up.img with trig := up.img.trig.set 0 ⟨false, [(10, 20)]⟩ } }
    a.on 4 = true ∧ 20 ≤ a.now ∧ a.img.trig[(0 : Fin 2)].pulses = [(10, 20)] := by decide +kernel

def grp0 : TxGroup := { frame := 0, group := 0, rows := 16, start := 100, iv := 1000, tick := 0, last := false }
def withTx (f : Tx → Tx) (run : Bool) : State :=
  { up.modTx 0 (fun x => f { x with cfg := { x.cfg with phy := 1 } }) with dev := { up.dev with state := if run then .running else .ready } }
theorem witness_tx : let s := withTx (fun x => { x with groups := [grp0], inFrame := some 0, ready := [(0, 0, 0, 0)] }) true
    let o := withTx (fun x => { x with groups := [grp0] }) true
    let r := withTx (fun x => { x with cur := some grp0, inFrame := some 0 }) true
    let a := withTx (fun x => { x with groups := [grp0], inFrame := some 0, ahead := true }) true
    s.img.tx[(0 : Fin 2)].ahead = false ∧ a.img.tx[(0 : Fin 2)].ahead = true ∧ bit a.img.tx[(0 : Fin 2)].cfg.pcie 15 = false ∧
    s.on 4 = true ∧ s.active = true ∧ s.img.tx[(0 : Fin 2)].cur = none ∧ grp0.start ≤ s.now * 1000 ∧ s.clusterUp 0 = true ∧
    (0, grp0.group % 3, grp0.frame % 2 ^ 32, grp0.group % 65536) ∈ s.img.tx[(0 : Fin 2)].ready ∧
    o.img.tx[(0 : Fin 2)].inFrame = none ∧ bit o.img.tx[(0 : Fin 2)].cfg.pcie 15 = false ∧ o.img.tx[(0 : Fin 2)].cfg.phy ≠ 0 ∧
    grp0.start + 0 * grp0.iv / r.img.tx[(0 : Fin 2)].cfg.group ≤ r.now * 1000 ∧ r.img.tx[(0 : Fin 2)].buf = none ∧
    r.img.tx[(0 : Fin 2)].row + 1 < grp0.rows ∧ (withTx (fun x => { x with inFrame := some 0 }) false).active = false := by
  decide +kernel

def i3cReq : List Byte := [0, 1, 0x30, 0] ++ leBytes 4 0xFFFFFFFF ++ zeros 4 ++ [4, 0, 0, 0]
def xfer0 : I3cXfer :=
  { mbox := 0, kind := 1, addr := 0x30, ccc := 0, refSeq := 0xFFFFFFFF, delay := 0, len := 4, data := [], due := some 10, started := none }
def withXfer (x : I3cXfer) : State :=
  { asked up 0x0501 0 i3cReq with img := { up.img with i3c := up.img.i3c.set 0 [x] } } |>.modMbox 0
    (fun b => { b with flight := some ⟨0, [0], []⟩ })
theorem witness_i3c : (asked up 0x0501 0 i3cReq).holdsTaken 0 0x0501 0 i3cReq ∧ field i3cReq 4 4 = 0xFFFFFFFF ∧ field i3cReq 14 2 = 0 ∧
    up.img.i3c[(0 : Fin 2)].length < 16 ∧ (withXfer xfer0).img.i3c[(0 : Fin 2)] = [xfer0] ∧ 10 ≤ (withXfer xfer0).now ∧
    (withXfer { xfer0 with started := some 20 }).mboxes[xfer0.mbox].taken = some ⟨0x0501, 0, i3cReq⟩ ∧
    (withXfer { xfer0 with started := some 20 }).mboxes[xfer0.mbox].flight = some ⟨0, [0], []⟩ := by
  unfold State.holdsTaken; decide +kernel

/-! ### The link and time -/

def withLink (i : Byte) (f : ZPort → ZPort) : State :=
  { up.modZp 0 (fun z => f { z with enabled := true, up := true }) with dev := { up.dev with index := i } }
theorem witness_link_commands : let q (c : Nat) (p : List Byte) := asked up c 0 p
    let v := asked (withLink 0xFF id) 0x0710 0 ([2, 0, 0, 0] ++ leBytes 2 125 ++ zeros 26)
    up.on 5 = true ∧ (q 0x0701 [3, 2, 0, 0]).holdsTaken 0 0x0701 0 [3, 2, 0, 0] ∧ (q 0x0702 [5, 48, 0, 0]).holdsTaken 0 0x0702 0 [5, 48, 0, 0] ∧
    (∀ d : Fin 48, up.link.route[d] = 0xFF) ∧ (∀ r : Fin 16, up.link.txs[r].kind = 0 ∧ up.link.rxs[r].on = false) ∧
    (∀ q : Fin 4, up.link.port[q].nbrHello.isSome = false) ∧ (q 0x0704 [1, 0, 0, 0]).dev.index = 0 ∧
    (let p := [1, 1, 4, 0] ++ [7, 2]; field p 0 1 = 1 ∧ field p 4 1 ≤ 47 ∧ field p 5 1 ≤ 3 ∧ up.dev.index ≠ 0xFF) ∧
    v.link.port[(0 : Fin 4)].up = true ∧
    (q 0x0703 (4 :: zeros 7)).active = false := by unfold State.holdsTaken; decide +kernel

theorem witness_streams : let tx : List Byte := [2, 3, 0, 0, 2, 0, 4, 0] ++ leBytes 4 0x1000 ++ leBytes 4 64 ++ leBytes 8 6
    let rx : List Byte := [3, 2, 0, 0, 0, 0, 4, 0] ++ leBytes 4 0x2000 ++ leBytes 4 64 ++ [9, 1] ++ zeros 6 ++ leBytes 4 10000 ++ leBytes 4 50 ++
      leBytes 4 0
    audPlace (field tx 8 4) = .cluster 0 0x1000 ∧ unitLegal (field tx 12 4) = true ∧ slotsLegal (field tx 6 1) = true ∧
    field tx 16 8 < 2 ^ 48 ∧ up.ringClash 0x1000 (4 * 64) none = false ∧ slotsLegal (field rx 6 1) = true ∧ field rx 18 6 = 0 ∧
    refLegal (BitVec.ofNat 32 (field rx 32 4)) = true ∧ up.ringClash (field rx 8 4) (4 * 128) (some 2) = false := by decide +kernel

def zf (ty : Byte) (payload : List Byte) : ZFrame :=
  { type := ty, dst := 5, src := 9, ttl := 31, id := 0, seq := 0, part := 0, payload := payload, crcOk := true, stomped := false }
def atIndex5 : State := withLink 5 id
def clusterWord : List Byte := leBytes 8 0x100000000040
theorem witness_frames : let f := zf 0x01 (clusterWord ++ [1, 2])
    let g := zf 0x01 (leBytes 8 0x200000000000 ++ [1, 2])
    let r : W32 := 0x80000808
    atIndex5.portOn 0 = true ∧ atIndex5.dev.state ≠ .outOfService ∧ atIndex5.mine 0 f 0x01 = true ∧
    atIndex5.dataOk (bits (field f.payload 0 8) 0 48) 2 = true ∧ spaceOf (bits (field f.payload 0 8) 0 48) = .clus 0 64 ∧
    atIndex5.clusters[(0 : Fin 4)].mem.wf = true ∧ atIndex5.link.trackers = [] ∧
    atIndex5.dataOk (bits (field g.payload 0 8) 0 48) 2 = false ∧
    refValid r = true ∧ refCount r = 1 ∧ field (zf 0x02 (leBytes 4 r.toNat ++ zeros 4)).payload 4 4 = 0 ∧
    atIndex5.clusterUp (refCluster r) = true ∧ atIndex5.clusters[refCluster r].keeper.waiters = [] ∧
    atIndex5.mine 0 (zf 0x04 [0]) 0x04 = true ∧ atIndex5.link.seen = [] ∧ atIndex5.fwUp = true := by decide +kernel

def rxs0 : RxStream := { RxStream.off with on := true, ring := 0x2000, unitBytes := 512, src := 9, stream := 0, periodNs := 100000, dueUs := 1, started := true }
def withStream : State :=
  { atIndex5 with link := { atIndex5.link with rxs := vset atIndex5.link.rxs 2 rxs0 }, dev := { atIndex5.dev with state := .running } }
def out0 (sends : Nat) : CtrlOut := { id := 0, dst := 9, payload := [0], sends := sends, first := 0, last := 0, why := .answer }
def withOut (sends : Nat) : State := { atIndex5 with link := { atIndex5.link with out := [out0 sends] } }
theorem witness_stream : let f := zf 0x03 (zeros 256)
    withStream.mine 0 f 0x03 = true ∧ rxs0.src = bits f.src.toNat 0 6 ∧ (∀ q : Fin 16, q ≠ 2 → withStream.link.rxs[q].on = false) ∧
    withStream.active = true ∧ withStream.audUp (audPlace rxs0.ring) = true ∧ f.seq = rxs0.unit ∧ bits f.part.toNat 0 12 < rxs0.total ∧
    f.part.getLsbD 15 = false ∧ rxs0.predicted rxs0.unit + rxs0.periodNs + rxs0.dueUs * 1000 < withStream.now ∧
    rxs0.lastFrame + 4 * rxs0.periodNs ≤ withStream.now ∧ 1 ∉ rxs0.parts ∧ 1 < rxs0.total := by decide +kernel
theorem witness_ctrl : (withOut 1).link.out.find? (fun o => o.id = 0 && decide (o.dst.toNat = frameFrom (zf 0x05 []))) = some (out0 1) ∧
    (withOut 1).mine 0 (zf 0x05 []) 0x05 = true ∧ (out0 1).last + 200000 ≤ (withOut 1).now ∧ 5 ≤ (out0 5).sends := by decide +kernel
theorem witness_transit : let s : State := { withLink 4 id with link := { (withLink 4 id).link with route := (withLink 4 id).link.route.set 5 0 } }
    let f := zf 0x01 (clusterWord ++ [1, 2])
    routed f = true ∧ bits f.dst.toNat 0 6 ≠ s.dev.index.toNat ∧ bits f.ttl.toNat 0 5 ≠ 0 ∧ bits ({ f with ttl := 0 } : ZFrame).ttl.toNat 0 5 = 0 ∧
    (s.link.route.toList.getD (f.dst.toNat % 64) 0xFF).toNat = 0 ∧ s.portOn 0 = true ∧ framePrio1 f = true ∧
    s.link.port[(0 : Fin 4)].q1 = [] ∧ frameUnits f ≤ s.link.port[(0 : Fin 4)].credit1 := by decide +kernel
theorem witness_hello_and_time : let s : State := { atIndex5 with time := { atIndex5.time with role := 2, req := some 77, misses := 8, locked := true } }
    (BitVec.ofNat 8 (field (zf 0x08 [3, 0, 0, 0]).payload 0 1) ≠ atIndex5.dev.index) ∧ s.time.role ≠ 0 ∧ s.link.port[(0 : Fin 4)].q0 = [] ∧
    1 ≤ s.link.port[(0 : Fin 4)].credit0 ∧ s.time.upstream = 0 ∧ s.time.req = some 77 ∧ field (zf 0x0A (leBytes 8 77 ++ zeros 16)).payload 0 8 = 77 ∧
    s.time.reqAt + s.time.interval * 1000 ≤ s.now ∧ 8 ≤ s.time.misses ∧ s.link.port[(0 : Fin 4)].up = true := by decide +kernel

theorem witness_ports : let down := up.modZp 0 (fun z => { z with enabled := true })
    let storm := withLink 5 (fun z => { z with storm := true })
    let q0 := withLink 5 (fun z => { z with q0 := [(zf 0x08 [], 0)] })
    let q1 := withLink 5 (fun z => { z with q1 := [(zf 0x01 [], 0)] })
    let old := withLink 5 (fun z => { z with nbrHello := some 0 })
    down.link.port[(0 : Fin 4)].retry ≤ down.now ∧ down.link.port[(0 : Fin 4)].storm = false ∧ down.flights (fun c _ => c = 0x0701) = [] ∧
    storm.fwUp = true ∧ storm.health.tests = [] ∧ 0 + 20000 ≤ q0.now ∧ q0.link.port[(0 : Fin 4)].q0 = [(zf 0x08 [], 0)] ∧
    q1.link.port[(0 : Fin 4)].q1 = [(zf 0x01 [], 0)] ∧ atIndex5.link.port[(0 : Fin 4)].helloDue ≤ atIndex5.now ∧ 0 + 1000000 < old.now ∧
    old.link.port[(0 : Fin 4)].nbrHello = some 0 ∧
    ((asked up 0x0701 0 [3, 2, 0, 0]).modMbox 0 (fun b => { b with flight := some ⟨0x0701, [], []⟩ })).flights (fun c _ => c = 0x0701) = [0] := by
  decide +kernel

/-! ### Power, health and firmware -/

def change0 : ModeChange := { old := 3, new := 1, down := [5, 4], up := [], by_ := .host 0, dropped := false }
theorem witness_power : let req : List Byte := [1, 0, 0, 0]
    let c : State := { up with pwr := { up.pwr with change := some change0 } }
    let u : State := { up with pwr := { up.pwr with change := some { change0 with down := [], up := [4, 5] } } }
    let o : State := { up with pwr := { up.pwr with ctrlOff := some 10 } }
    (asked up 0x0801 0 req).holdsTaken 0 0x0801 0 req ∧ (asked up 0x0801 0 [3, 0, 0, 0]).holdsTaken 0 0x0801 0 [3, 0, 0, 0] ∧
    up.pwr.mode = 3 ∧ up.pwr.linkReq = false ∧ up.pwr.change = none ∧ up.pwr.armed = none ∧
    ((4 : Fin 10) ∈ upOrder ∧ up.on 4 = true ∧ modePowers 1 false 0 4 = false) ∧ c.quiesced 5 = true ∧ c.pwr.change = some change0 ∧
    u.pwr.change = some { change0 with down := [], up := [4, 5] } ∧ 10 ≤ o.now ∧ (∀ m : Fin 8, o.mboxes[m].taken = none) ∧
    up.dev.towpath = true ∧ throttle up.pwr.level 1679 ≠ up.pwr.level := by unfold State.holdsTaken; decide +kernel

theorem witness_health : let q (k : Byte) : List Byte := [k, 1, 0, 0, 0, 0, 0, 0] ++ leBytes 8 (if k = 2 then 0x200000000 else 0)
    (asked up 0x0901 0 (q 0)).holdsTaken 0 0x0901 0 (q 0) ∧ spaceOf (field (q 2) 8 8) = .dram 1 0x200000000 ∧ field (q 1) 8 8 = 0 ∧
    up.clusterUp 1 = true ∧ up.dsps[(1 : Fin 4)].cond ≠ 1 ∧ up.hostUnits 0 1 ≠ [] ∧ up.hostUnits 1 1 ≠ [] ∧ up.hostUnits 3 1 ≠ [] ∧
    up.health.host = [] ∧ up.begun.2.2 = false ∧ (field [1, 63, 0xFF, 3] 2 2 ≤ 1023) := by unfold State.holdsTaken; decide +kernel

def loading : State := { up with fw := { up.fw with load := some (1, 512, 64, 0) } }
def dataReq : List Byte := [1, 0, 0, 0] ++ leBytes 4 64 ++ leBytes 4 64 ++ zeros 4 ++ List.replicate 64 7
theorem witness_fw_load : let b : List Byte := zeros 4 ++ zeros 4 ++ leBytes 4 512 ++ zeros 4
    (asked up 0x0A01 0 b).holdsTaken 0 0x0A01 0 b ∧ up.fw.load = none ∧ up.bootRec.trial ≠ up.fw.slot.toNat ∧ up.nor.wf = true ∧
    field dataReq 4 4 = 64 ∧ field dataReq 8 4 = 64 ∧ dataReq.length = 16 + 64 ∧ (∀ i, i < 64 → loading.norByte (slotBase 1 + 64 + i) = 0xFF) ∧
    ({ loading with dev := { up.dev with systime := 60000000000 } } : State).serving = true := by unfold State.holdsTaken; decide +kernel

/-- A boot record in copy 0: slot 0 confirmed and valid, slot 1 valid and the trial where asked; its crc by R580. -/
def bootImage (confirmed trial : Nat) : State :=
  { up with nor := (up.norProgram 0 { BootRec.none_ with seq := 1, confirmed := confirmed, trial := trial, valid := 3, owner0 := 0 }.bytes).nor }
theorem witness_fw_confirm : (bootImage 0 0xFF).bootRec.confirmed = (bootImage 0 0xFF).fw.slot.toNat ∧ (bootImage 0 0xFF).nor.wf = true ∧
    (bootImage 1 0).bootRec.confirmed ≠ (bootImage 1 0).fw.slot.toNat ∧ (bootImage 1 0).bootRec.trial = 0 ∧
    bit (field (bootImage 1 0).fw.image 14 2) 0 = false := by decide +kernel
theorem witness_fw_revert : bit (bootImage 0 0xFF).bootRec.valid 1 = true ∧ (bootImage 0 0xFF).fw.load = none ∧
    (bootImage 0 0xFF).bootRec.trial ≠ 0 ∧ (bootImage 0 0xFF).begun.2.2 = false := by decide +kernel
theorem witness_fw_floor : up.floor = 0 := by decide +kernel
theorem witness_settings_save : up.bootRec.savePlan 0 ((up.areaOf up.bootRec 0).map (·.1)) = some (0, none, up.bootRec.setOwner 0 0) ∧
    (asked up 0x0A10 0 (zeros 48)).holdsTaken 0 0x0A10 0 (zeros 48) := by unfold State.holdsTaken; decide +kernel
/-- That state with empty settings in area 0. -/
def settingsHead : List Byte := leBytes 2 1 ++ zeros 2 ++ leBytes 4 1 ++ zeros 4
def withSettings : State :=
  (bootImage 1 0).norProgram (areaBase 0) (settingsHead ++ leBytes 4 (settingsCrc (settingsHead ++ zeros 52) []) ++ zeros 48)
theorem witness_fw_confirm_settings : (withSettings.areaOf withSettings.bootRec 0).isSome = true := by decide +kernel
theorem witness_fw_revert_floor : (bootImage 0 0xFF).floor ≤ field ((bootImage 0 0xFF).slotHdr 1) 12 2 := by decide +kernel

/-! ### DSPs and adaptation -/

def task0 : DspTask := { entry := 200, tick := 1, level := 3, policy := 0, divide := 1, phase := 0, handler := 0x100, budget := 100, alt := 0 }
def dspImg : DspImage := { p := Mem.empty, x := Mem.empty, y := Mem.empty, tasks := [task0] }
/-- P memory whose word 0 is of class 8, a multiply-accumulate: a fetch there raises no fault, whatever codes the implementation gives. -/
def pmem : Mem := ⟨[(3, 0x80)], []⟩
def withDsp (f : Dsp → Dsp) : State :=
  up.modDsp 1 (fun x => f { x with p := pmem, cond := 1, owner := some 0, image := some dspImg, tasks := [TaskSt.reset] })
def dspUp : State := withDsp id
theorem witness_dsp_ready : dspUp.dspReady 1 := by unfold State.dspReady; decide +kernel

/-- A region with a DSP image: 64 bytes that declare one word of P memory and no task, and that word. -/
def dspBytes : Mem := ⟨[(0, 1)], []⟩
def withImage : State := { up.modPart 0 (fun q => { q with regions := [regC] }) with dram := dspBytes }
theorem witness_dsp_load : let p : List Byte := [1, 0, 0, 0] ++ leBytes 4 hC ++ zeros 4 ++ leBytes 4 68
    let l := withImage.dram.readBytes (regC.base + 0) 68
    field p 0 1 = (1 : Fin 4).val ∧ field p 8 4 % 64 = 0 ∧ withImage.region? (field p 4 4) = some (0, regC) ∧ withImage.on (clusterReach 0) = true ∧
    withImage.dsps[(1 : Fin 4)].fenced = false ∧ withImage.dsps[(1 : Fin 4)].cond ≠ 1 ∧ withImage.poisoned 0 68 = [] ∧
    imageBad withImage.cfg.committed l = none ∧ withImage.taskClash 1 ((imageOf l).tasks.map (·.entry)) = none ∧ withImage.health.tests = [] ∧
    withImage.on (dspReach 1) = true := by decide +kernel
theorem witness_dsp_start : let s := withDsp (fun x => { x with cond := 0 })
    (asked s 0x0B02 0 [1, 0, 0, 0]).holdsTaken 0 0x0B02 0 [1, 0, 0, 0] ∧ s.dsps[(1 : Fin 4)].owner = some 0 ∧ s.dsps[(1 : Fin 4)].cond ≠ 1 ∧
    s.dsps[(1 : Fin 4)].image.isSome = true ∧ s.noStop := by unfold State.holdsTaken State.noStop; decide +kernel

theorem witness_dsp_moves : let x := dspUp.dsps[(1 : Fin 4)]
    x.address 0 0 0 = some (0, none) ∧ x.address 1 0 0 = some (0, some 1) ∧ x.badX = [] ∧ x.badY = [] ∧ x.x.wf = true ∧ x.y.wf = true ∧
    (x.regs.p[(0 : Fin 8)]).toNat < 0x10000 ∧ x.modify 0 1 = some 1 ∧ x.modify 1 1 = some 1 ∧ x.ctlRead 16 0 = some 0 ∧
    (x.ctlWrite 16 (x.reg 0)).isSome = true ∧ x.holds .always = true ∧ x.holds .z = false := by decide +kernel
/-- MAC forms with both loads, of one word and of a pair. -/
theorem witness_mac : let x := dspUp.dsps[(1 : Fin 4)]
    let a : MacArgs := ⟨false, 0, 1, 2, some ⟨0, 0⟩, some ⟨1, 1⟩⟩
    x.address 0 0 0 = some (0, none) ∧ x.address 1 1 0 = some (0, some 1) ∧ 0 ∉ x.badX ∧ 1 ∉ x.badX ∧ 0 ∉ x.badY ∧ 1 ∉ x.badY ∧
    (∀ lx ly, a.xload = some lx → a.yload = some ly → lx.ptr = ly.ptr → (none : Option Nat) = some 1) := by
  refine ⟨by decide +kernel, by decide +kernel, by decide +kernel, by decide +kernel, by decide +kernel, by decide +kernel, ?_⟩
  intro lx ly h1 h2 h3
  cases h1; cases h2; revert h3; decide

/-- A DSP with its window on cluster 2 enabled and pointer 0 at the window's start, 1 at its last word. -/
def windowed : State :=
  withDsp (fun x => { x with
    xwin := 0x80000002, bank := Vector.replicate 3 { DspBank.reset with p := (DspBank.reset.p.set 0 0x400000).set 1 0x7FFFFF } })
theorem witness_dsp_window : let x := windowed.dsps[(1 : Fin 4)]
    windowed.dspRuns 1 = true ∧ x.address 0 0 0 = some (0x400000, none) ∧ x.address 0 1 0 = some (0x7FFFFF, none) ∧
    x.xwin.getLsbD 31 = true ∧ windowed.clusterUp (Fin.ofNat 4 (x.xwin.toNat % 4)) = true ∧ windowed.protectedIn 2 0 4 = false ∧
    x.address 7 0 0 = none ∧ x.address 5 0 128 = none := by decide +kernel

/-- A MOVEBLK of 4096 words from X to Y, and one within X memory. -/
theorem witness_moveblk : let x := (withDsp (fun x => { x with bank := Vector.replicate 3 { DspBank.reset with p := DspBank.reset.p.set 1 0x1000 } })).dsps[(1 : Fin 4)]
    x.countOf (.imm 4096) = some 4096 ∧ (x.regs.p[(0 : Fin 8)]).toNat + 4096 ≤ (x.regs.p[(1 : Fin 8)]).toNat ∧
    (x.regs.p[(1 : Fin 8)]).toNat + 4096 ≤ 0x10000 ∧ x.badX = [] ∧ x.badY = [] ∧ (x.regs.m[(0 : Fin 8)]).toNat < 2 ^ 30 ∧
    (x.regs.m[(1 : Fin 8)]).toNat < 2 ^ 30 ∧ x.x.wf = true ∧ x.y.wf = true := by decide +kernel

/-- Counts of 5 and 0; MOVC of the interrupt stack's top with a stack and with none, and of a number no register has; PMOD by a legal
amount and, of a modulo pointer, by none. -/
theorem witness_dsp_counts : let x := dspUp.dsps[(1 : Fin 4)]
    let m := (withDsp (fun x => { x with bank := Vector.replicate 3 { DspBank.reset with m := DspBank.reset.m.set 0 0xC0000000 } })).dsps[(1 : Fin 4)]
    x.countOf (.imm 5) = some 5 ∧ x.countOf (.reg 0) = some 0 ∧ x.stack = [] ∧ ({ x with stack := [⟨3, 0, 0, 0, 0, 0xFF⟩] } : Dsp).stack ≠ [] ∧
    28 ≤ (28 : BitVec 6).toNat ∧ (x.pc + 1) % 32768 ∉ x.badP ∧ m.modify 0 1 = none := by decide +kernel

/-- Where the implementation gives ADD and MAC code 0, the word after a REP is read as each. -/
theorem witness_rep (h4 : Config.dspOperation 4 0 = 0) (h3 : Config.dspOperation 3 0 = 1) :
    dspDecode 0x40000000 = some (.alu .add ⟨0, 0, .reg 0⟩) ∧ dspDecode 0x30000000 = some (.mac .mac ⟨false, 0, 0, 0, none, none⟩) := by
  have a : bits 0x40000000 22 6 = 0 := by decide
  have b : bits 0x30000000 25 3 = 0 := by decide
  constructor
  · show ([DspOp.alu .add _, _, _, _, _, _, _, _, _, _, _, _, _, _, _, _, _, _, _, _] : List DspOp)[Config.dspOperation 4 (bits 0x40000000 22 6)]? = _
    rw [a, h4]; rfl
  · show (match Config.dspOperation 3 (bits 0x30000000 25 3) with
      | 0 => some (DspOp.mac .mpy _) | 1 => some (.mac .mac _) | 2 => some (.mac .msu _) | 3 => some (.mac .mpyd _)
      | 4 => some (.mac .macd _) | 5 => some (.mac .msud _) | _ => none) = _
    rw [b, h3]; rfl

/-- P memory with loads and stores in the body of a LOOP. -/
theorem witness_loop : let s := withDsp (fun x => { x with p := ⟨[(3, 0x80), (7, 0x70)], []⟩ })
    loopWord (s.dsps[(1 : Fin 4)].pword 1) none = true ∧ 1 ∉ s.dsps[(1 : Fin 4)].badP ∧ s.dsps[(1 : Fin 4)].pc + 1 + 1 ≤ 0x8000 := by decide +kernel
theorem witness_lraise : refValid 0 = false ∧ (refValid 0x80002808 = true ∧ refScope 0x80002808 = 0) ∧
    (refValid 0xC0002808 = true ∧ refScope 0xC0002808 = 2) ∧ refValid 0xA0200808 = true ∧ refScope 0xA0200808 = 1 ∧ refCluster 0xA0200808 = 1 := by decide

theorem witness_interrupts : let s := withDsp (fun x => { x with swi := 0x10, ie := 0x10 })
    let r := withDsp (fun x => { x with stack := [⟨3, 0, 0, 0, 0, 0xFF⟩], task := 0xFF })
    let run : TaskRun := { count := 3, stamp := 0, iv := 1000000, alt := false, started := true, cycles := 101, cause := none, ticks := 0, lastSel := 0, passed := 0 }
    let o := withDsp (fun x => { x with tasks := [{ TaskSt.reset with cur := some run }] })
    s.dspRuns 1 = true ∧ s.dsps[(1 : Fin 4)].nextLevel = some 4 ∧ s.dsps[(1 : Fin 4)].swi.getLsbD 4 = true ∧
    (∀ y ∈ s.dsps[(1 : Fin 4)].taskList, ¬ (y.1.level = 4 ∧ y.2.requested = true)) ∧
    r.dsps[(1 : Fin 4)].stack = [⟨3, 0, 0, 0, 0, 0xFF⟩] ∧ r.dsps[(1 : Fin 4)].taskList[r.dsps[(1 : Fin 4)].task]? = none ∧
    r.health.tests = [] ∧ r.noStop ∧
    o.dsps[(1 : Fin 4)].taskList[0]? = some (task0, { TaskSt.reset with cur := some run }) ∧ task0.budget < run.cycles := by
  unfold State.noStop; decide +kernel
theorem witness_rti_ready : (withDsp (fun x => { x with stack := [⟨3, 0, 0, 0, 0, 0xFF⟩], task := 0xFF })).dspReady 1 := by
  unfold State.dspReady; decide +kernel
theorem witness_division : let x := { dspUp.dsps[(1 : Fin 4)] with bank := Vector.replicate 3 { DspBank.reset with x := Vector.replicate 8 7 } }
    (x.srcB (.reg 0)).toInt ≠ 0 ∧ ¬ ((x.reg 0).toInt = -2147483648 ∧ (x.srcB (.reg 0)).toInt = -1) := by decide +kernel

def adaptEntry : Entry := ⟨9, 15, 0, 3, 1, 1, 0, 0, 0, 100, 100, 0, 0, 0, [], []⟩
def adaptTt : Timetable := { tt0 with entries := [adaptEntry] }
def adaptReq : List Byte := [0, 9, 0, 0] ++ leBytes 4 hT ++ leBytes 2 1 ++ leBytes 2 1 ++ leBytes 4 10 ++ leBytes 4 10
def job0 (phase : Nat) (auto : Bool) : Job :=
  { cargo := 0, entry := 9, owner := 0, auto := auto, region := hT, black := 1, footage := 1, captured := 0, want := 10, done := 0, dropped := 0,
    stale := 0, limit := 1000, phase := phase, pos := 0, before := 0, after := 0, groups := [] }
def adapting (l : List Job) : State :=
  { loaded with jobs := l, sched := { up.sched with tt := some adaptTt, src := up.sched.src.set 15 { up.sched.src[(15 : Fin 16)] with kind := 4 } } }
theorem witness_adapt_start : let s := adapting []
    (asked s 0x0C01 0 adaptReq).holdsTaken 0 0x0C01 0 adaptReq ∧ s.cargo? 0 = some cargo0 ∧ s.region? (field adaptReq 4 4) = some (0, regT) ∧
    adaptTt.entries.find? (fun e => e.id = field adaptReq 1 1) = some adaptEntry ∧ s.sched.src[adaptEntry.source].kind = 4 ∧
    s.jobOf 0 = none ∧ s.on (clusterReach 0) = true ∧ s.regionBusy (field adaptReq 4 4) = false ∧ field adaptReq 10 2 = 1 ∧ field adaptReq 12 4 = 10 := by
  unfold State.holdsTaken; decide +kernel
theorem witness_adapt_jobs : (adapting [job0 3 false]).jobOf 0 = some (job0 3 false) ∧ (adapting [job0 1 true]).fwUp = true ∧
    (job0 1 true).limit ≤ up.now := by decide +kernel
/-- A commit of a cargo with an adapter area of 64 bytes at 4096 from its image. -/
def committing1 : State :=
  { adapting [job0 3 true] with cargos := [{ cargo0 with adapterOff := 4096, adapterLen := 64 }], adapters := [{ cargo := 0, half := 0, generation := 0, groups := [] }] }
theorem witness_adapt_commit : let s := committing1
    let g : Cargo := { cargo0 with adapterOff := 4096, adapterLen := 64 }
    s.jobOf 0 = some (job0 3 true) ∧ s.fwUp = true ∧ s.cargo? 0 = some g ∧ (job0 3 true).auto = true ∧ (job0 3 true).phase = 3 ∧
    (fcmp fp32 .lt 0x3F000000 0x3F800000).1 = true ∧ g.adapterOff ≠ 0 ∧
    (let half := ((s.adapters.find? (fun a => a.cargo = 0)).map (fun a => 1 - a.half)).getD 1
     let at_ := g.base + g.adapterOff + half * g.adapterLen
     half = 1 ∧ (∀ q, partOf at_ = some q → s.clusterUp q = true) ∧ s.copying at_ g.adapterLen = false) := by
  refine ⟨by decide +kernel, by decide +kernel, by decide +kernel, by decide +kernel, by decide +kernel, by decide +kernel, by decide +kernel,
    by decide +kernel, ?_, by decide +kernel⟩
  intro q h
  have e : partOf 4160 = some 0 := by decide
  cases (e.symm.trans h); decide +kernel
theorem witness_capture : let s : State := (adapting [job0 1 false]).modRx 0 (fun x => { x with inFrame := true, row := 5 })
    let v : State := { s with sched := { s.sched with
      tt := some { adaptTt with entries := [{ adaptEntry with source := 2 }] }, src := s.sched.src.set 2 { s.sched.src[(2 : Fin 16)] with kind := 1 } } }
    let x := v.img.rx[(0 : Fin 2)]
    v.videoRx = some 0 ∧ x.inFrame = true ∧ x.row < x.cfg.height ∧ (job0 1 false).pos < x.frame.toNat * 65536 + (x.row - 1) ∧
    (job0 1 false).captured ≠ (job0 1 false).black + (job0 1 false).footage ∧ v.region? (job0 1 false).region = some (0, regT) ∧
    v.clusterUp 0 = true ∧ v.copying regT.base regT.len = false := by
  decide +kernel

/-! ### The queue manager, the function, the status map, faults, supply and trace -/

theorem witness_ring_indices : (withRings []).host.wf = true ∧ (∃ g e, assoc (withRings []).rings 1 = some g ∧ (withRings []).ringHead 0 = some e) ∧
    ({ evRing with dev := 16 } : Ring).full = true ∧ (evRing.dev - evRing.host).toNat ≤ 2 ^ evRing.n ∧ (withRings []).on 3 = true ∧
    2 ^ subRing.n < ((19 : Nat) + 2 ^ 32 - subRing.dev.toNat) % 2 ^ 32 := by
  refine ⟨by decide +kernel, ⟨cplRing, _, rfl, rfl⟩, ?_⟩; decide +kernel

/-- A barge of one row of 64 bytes within cluster 0's memory, with no wait and no raise. -/
def bargeEntry : List Byte := leBytes 1 0x40 ++ zeros 3 ++ leBytes 4 64 ++ leBytes 2 1 ++ leBytes 2 1 ++ zeros 20 ++ leBytes 8 0x100000000000 ++
  leBytes 8 0x100000001000 ++ zeros 8 ++ leBytes 4 77 ++ zeros 4
theorem witness_submissions : let s := withRings bargeEntry
    let e := s.host.readBytes 128 64
    s.host.wf = true ∧ (s.rings.map (·.1)).Nodup ∧ s.ring? 0 = some subRing ∧ s.ringHead 0 = some (2, e) ∧ assoc s.rings 1 = some cplRing ∧
    cplRing.used + 1 ≤ 2 ^ cplRing.n ∧ field e 0 1 = 0x40 ∧ s.streamRing 0 = false ∧ (s.bargeCheck false e).1 = none ∧
    s.hostCluster (s.bargeCheck false e).2 = some 0 ∧ (s.bargeCheck false e).2.parts.all (fun p => s.clusters[p].reset.isNone) = true ∧
    s.moverFull (.dram 0) = false ∧ refValid (s.bargeCheck false e).2.wait = false ∧
    (s.bargeCheck false (e.set 24 1)).1.isSome = true := by decide +kernel
/-- A transmitter that wants a host buffer from ring 0, and a BUFFER entry in it. -/
def bufEntry : List Byte := leBytes 1 0x50 ++ zeros 3 ++ leBytes 4 4096 ++ leBytes 8 0x1000 ++ leBytes 4 5 ++ zeros 44
def wanting : State := (withRings bufEntry).modTx 0 (fun x => { x with buf := some .wanted, cfg := { x.cfg with pcie := 0x8000 } })
theorem witness_buffers : let s : State := { wanting with cfg := { up.cfg with committed := KeySet.put [] (.tx 0 .pcie) 0x8000 } }
    s.ringHead 0 = some (2, s.host.readBytes 128 64) ∧ field (s.host.readBytes 128 64) 0 1 = 0x50 ∧ s.streamRing 0 = true ∧ wanting.streamRing 0 = false ∧
    bufferOk (s.host.readBytes 128 64) = true ∧ s.img.tx[(0 : Fin 2)].buf = some .wanted ∧ bit s.img.tx[(0 : Fin 2)].cfg.pcie 15 = true ∧
    bits s.img.tx[(0 : Fin 2)].cfg.pcie 0 9 = 0 := by decide +kernel
theorem witness_arm : (withRings []).ring? 2 = some evRing ∧ evRing.host = evRing.dev ∧ ({ evRing with dev := 1 } : Ring).host ≠ 1 := by decide +kernel

theorem witness_function : let off : State := { up with dev := { up.dev with powered := 0x3DF } }
    up.supervised = true ∧ up.on 5 = true ∧ off.on 5 = false ∧ off.supervised = true ∧ (∀ e ∈ up.rings, e.2.held = [] ∧ e.2.dropped = none) ∧
    ({ up with pcie := { up.pcie with d3hot := true } } : State).supervised = true ∧
    ({ up with glb := { up.glb with cause := 0x4000, enable := 0x4000 } } : State).supervised = true := by decide +kernel

theorem witness_status : let s : State := { up with status := { up.status with stateDue := true } }
    let h : State := { up with health := { up.health with seen := true } }
    let l : State := { up with health := { up.health with missed := 2 } }
    s.supervised = true ∧ s.status.map.wf = true ∧ s.status.healthDue ≤ s.now ∧ s.fwUp = true ∧ h.health.due ≤ h.now ∧ h.fw.running = true ∧
    l.health.seen = false ∧ 2 + 1 = l.health.misses ∧ l.actsOnMisses = true ∧ l.healthKeys.begun.2.2 = false ∧ l.dev.state ≠ .boot ∧
    up.health.missed.toNat + 1 ≠ up.health.misses := by decide +kernel

theorem witness_boot : let s := State.reset
    let f : State := { s with fw := { s.fw with starting := true, slot := 0 }, dev := { s.dev with powered := 9 } }
    s.dev.state = .boot ∧ s.fw.running = false ∧ s.fw.starting = false ∧ s.bootRec.expired = false ∧ s.bootCurrent = none ∧ f.on 3 = true ∧
    f.settingsArea 0 = none ∧ f.settingsArea 1 = none ∧ f.health.restart = none ∧ f.health.tests = [] ∧ f.dsps[(0 : Fin 4)].fenced = false := by
  decide +kernel
/-- A state in which the running image verifies meets what a restart's end asks. -/
theorem witness_restart (h : up.verifySlot 0 true = none) :
    let s : State := { up with health := { up.health with restart := some (3, 0, 0) } }
    s.health.restart = some (3, 0, 0) ∧ s.verifySlot s.fw.slot.toNat true = none := ⟨rfl, h⟩

def test0 (u : TestUnit) : Test := { tid := 4, unit := u, st := .running, trigger := 0x0A01, found := 0, start := some 0, zeroed := 0, mbox := none }
theorem witness_errors : let s := busy
    let b := carrying barge0
    let k : State := { s with dsps := dspUp.dsps }
    s.shareOn co0 = some (run0, shr) ∧ s.clusterUp 0 = true ∧ s.noStop ∧ shr.barges = [] ∧ run0.passed = 0 ∧ b.barge? 4 = some barge0 ∧
    k.dspRuns 1 = true ∧ s.on (dspReach 1) = true ∧ s.begun.2.2 = false ∧ s.fwUp = true ∧ s.on 3 = true ∧ s.health.tests = [] := by
  unfold State.noStop; decide +kernel
/-- A run all of whose shares have started, with an operation outstanding; a local barge; corrected errors below and at the limit. -/
theorem witness_errors_more : let r : Run := { run0 with shares := [shrOp] }
    let l : Barge := { barge0 with mover := .loc co0 }
    (withRun r).shareOn co0 = some (r, shrOp) ∧ (∀ q ∈ (withRun r).sched.runs, ∀ x ∈ q.shares, x.st ≠ .notStarted) ∧ (withRun r).noStop ∧
    (carrying l).barge? l.bid = some l ∧ l.mover = .loc co0 ∧ ([up.now] : List Nat).length < up.key .healthCeLimit ∧
    (let s : State := { up with health := { up.health with sramCe := [((.clusterMem 1, 5), List.replicate (up.key .healthCeLimit) up.now)] } }
     s.key .healthCeLimit ≤ (s.now :: ((assoc s.health.sramCe (.clusterMem 1, 5)).getD []).filter (fun t => s.now < t + 1000000000)).length) := by
  unfold State.noStop; decide +kernel
theorem witness_engine_timeout : (withRun runOp).shareOn co0 = some (runOp, shrOp) ∧
    ((withRun runOp).engineBusy runOp shrOp .matrix).isSome = true ∧ shrOp.barges = [] := by decide +kernel

def underTest (u : TestUnit) : State :=
  { up with health := { up.health with tests := [test0 u] }, sched := { up.sched with running := true, tt := some { tt0 with entries := [ent] } } }
def inReset (phase : Nat) : State :=
  State.modCl up 1 (fun k => { k with reset := some ⟨3, 0, 0, 10, phase, [], false, zeros 48⟩ })
theorem witness_partitions : let s := underTest (.clusterRow 0 5)
    let e := underTest (.engine co0 .matrix)
    s.health.tests.find? (fun t => t.tid = 4 && t.st = .running) = some (test0 (.clusterRow 0 5)) ∧ s.noStop ∧ s.fwUp = true ∧
    s.sched.running = true ∧ ent.cluster = 0 ∧ e.clusters[(0 : Fin 4)].cores[(0 : Fin 4)].cur = none ∧
    e.clusters[(0 : Fin 4)].cores[(0 : Fin 4)].susp = [] ∧ (inReset 0).fwUp = true ∧ (inReset 1).on (clusterReach 1) = true ∧
    (inReset 2).clusters[(1 : Fin 4)].reset = some ⟨3, 0, 0, 10, 2, [], false, zeros 48⟩ ∧ (inReset 2).cargos = [] ∧
    (inReset 2).parts[(1 : Fin 4)].retrainNext = [] ∧ (∀ ch : Fin 2, (inReset 2).parts[(1 : Fin 4)].retrain[ch].state ≠ 2) ∧
    (inReset 2).parts[(1 : Fin 4)].scrubState ≠ 2 := by
  unfold State.noStop; decide +kernel

theorem witness_floods : let s : State := { up with log := { up.log with busyUntil := 5000001 } }
    let c : State := { up with log := { up.log with coal := some (2, 0x0101, 0x0102) } }
    s.now < s.log.busyUntil ∧ s.log.coal = none ∧ c.log.coal = some (2, 0x0101, 0x0102) ∧ c.log.busyUntil ≤ c.now ∧
    c.log.offset.toNat % 64 = 0 ∧ c.log.mem.wf = true ∧ (withRings []).eventRing 0 = some (2, evRing) := by decide +kernel

/-- The supply and PERST_L as given. -/
def supplied (vin towpath perst : Bool) (st : DevState) : State :=
  { up with dev := { up.dev with vin := vin, towpath := towpath, perst := perst, state := st } }
theorem witness_supply : (supplied false true false .off).dev.vinOver = false ∧ (supplied true false true .off).dev.towpath = false ∧
    (supplied true true false .ready).dev.state ≠ .off ∧ (supplied true true true .off).dev.perst = true := by decide

theorem witness_trace : let u (f : TrcUnit → TrcUnit) : State := up.modTrc 3 (fun x => f { x with filter := 0x80000001, last := 20 })
    let l := u (fun x => { x with lost := some (4, 1000) })
    (u id).trc.unit[(3 : Fin 10)].filter.getLsbD 31 = true ∧ (u id).on 3 = true ∧ 0 < (u id).trc.syncPeriod ∧
    (u id).trc.unit[(3 : Fin 10)].lastSync + 1000 * (u id).trc.syncPeriod ≤ (u id).now ∧
    (u id).trc.unit[(3 : Fin 10)].lastSync < (u id).trc.unit[(3 : Fin 10)].last ∧ l.trc.unit[(3 : Fin 10)].lost = some (4, 1000) ∧
    fifoUnits l.trc.unit[(3 : Fin 10)].fifo < 256 ∧ l.trc.refuses = false ∧ l.trc.unit[(3 : Fin 10)].last + 40 ≤ l.now := by decide +kernel
theorem witness_clip_select : let s := State.modCl up 1 (fun k => { k with slots := [slot0] })
    (s.clusters[(1 : Fin 4)].slots.find? (fun x => x.num = slot0.num)) = some slot0 ∧ s.clusterUp 1 = true ∧ slot0.hist.length ≤ 16 ∧
    slot0.streak ≤ 63 ∧ up.clusters[(0 : Fin 4)].slots = [] ∧ timedCounter 0 = false ∧ up.dev.state ≠ .off ∧
    (0x40000004 : W32).toNat / 2 ^ 30 = 1 := by decide +kernel

/-- No boot record stands in an erased NOR; that erased slots do not verify is the statement's own premise. -/
theorem witness_reset : State.reset.bootCurrent = none := by decide +kernel
theorem witness_steps : let s : State := { up with pending := [.mailboxTake] }
    s.pending = .mailboxTake :: [] ∧ s.outerCanonical ∧ (match step s with | .next _ => true | _ => false) = true := by
  unfold State.outerCanonical; decide +kernel

/-! ### One step of a few more commands, with results the rules give -/

/-- R329: a lost reference unlocks the loop. -/
theorem test_ref_lost : gives (.apllRefLost 0) (withApll 2) (fun t => t.aud.apll[(0 : Fin 2)].refLost) = true := by decide +kernel
/-- R347, R351: an external edge after a lost clock starts the restart. -/
theorem test_fs_edge : gives (.tdmFsEdge 0) (withPort { port0 true with noClock := true })
    (fun t => t.aud.port[(0 : Fin 5)].restart = 1) = true := by decide +kernel
/-- R483: a frame whose ttl is 0 is dropped. -/
theorem test_ttl : gives (.transitFrame 0 { zf 0x01 (clusterWord ++ [1, 2]) with ttl := 0 }) (withLink 4 id)
    (fun t => t.link.err.getLsbD 8) = true := by decide +kernel
/-- R484: a return of credit never exceeds 256 units. -/
theorem test_credit : gives (.zorudCreditReturn 0 true 9) (withLink 4 (fun z => { z with credit1 := 250 }))
    (fun t => t.link.port[(0 : Fin 4)].credit1 = 256) = true := by decide +kernel
/-- R488, R494: a DATA frame writes cluster memory. -/
theorem test_data_frame : gives (.dataFrame 0 (zf 0x01 (clusterWord ++ [1, 2]))) atIndex5
    (fun t => t.clusters[(0 : Fin 4)].mem.readBytes 64 2 = [1, 2]) = true := by decide +kernel
/-- R287: an early Frame End leaves rows to generate. -/
theorem test_short_frame : gives (.csiFrameEnd 0 0 false) (withRx true 3) (fun t => t.img.rx[(0 : Fin 2)].ended) = true := by decide +kernel
/-- R375: a DSP NOP takes one cycle. -/
theorem test_dsp_nop : gives (.dspNop 1) dspUp (fun t => t.dsps[(1 : Fin 4)].pc = 1 ∧ t.dsps[(1 : Fin 4)].cyc = 1) = true := by decide +kernel
/-- R230, R441: a barge of the host enters its mover's queue. -/
theorem test_host_barge : gives (.hostBargeEntry 0) (withRings bargeEntry) (fun t => t.barges.length = 1) = true := by decide +kernel
/-- R440: a host index beyond the ring is ignored. -/
theorem test_bad_index : gives (.qmDbHostWrite 0 19) (withRings []) (fun t => (assoc t.rings 0).map (·.badIndex) = some true) = true := by
  decide +kernel
/-- R62: an exact zero result is +0, the square root of -0 among them. -/
theorem test_sqrt_of_minus_zero : (fsqrt fp32 0x80000000).1 = 0 ∧ (fsqrt fp32 0x40800000).1 = 0x40000000 := by decide +kernel
/-- R374: a shift above 40 is a reserved field and raises ILLEGAL. -/
theorem test_shift_41 : gives (.lda 1 0 1 41) dspUp (fun t => t.dsps[(1 : Fin 4)].fcause.toNat = 1 ∧ (t.dsps[(1 : Fin 4)].acc[(0 : Fin 4)]).toNat = 0) = true := by decide +kernel
/-- R523: a fall of VIN leaves OFF. -/
theorem test_vin_fall : gives .vinFall (supplied true true false .running) (fun t => t.dev.state = .off) = true := by decide +kernel
/-- R528: the mode in force asked for again is answered at once. -/
theorem test_pwr_same : gives (.pwrMode 0) (asked up 0x0801 0 [3, 0, 0, 0]) (fun t => t.pwr.mode = 3 ∧ t.mboxes[(0 : Fin 8)].taken = none) = true := by
  decide +kernel

end Sys2Proof.Tests
end

section
/-! SUPPORT. What a command taken from a mailbox does, and what its reply changes. -/

namespace Sys2Proof.Proofs
open Sys2Proof.Machine Sys2Proof.Laws

/-- A command that the mailbox holds taken runs. -/
theorem withTaken_holdsTaken {s : State} {m : Fin 8} {code ctx : Nat} {p : List Byte} (h : s.holdsTaken m code ctx p)
    (f : Taken → State) : s.withTaken m code f = f ⟨code, ctx, p⟩ := by
  obtain ⟨taken, idle, serving, turn⟩ := h
  unfold State.withTaken
  rw [taken]
  exact if_pos ⟨rfl, idle, serving, turn⟩

/-- A reply changes its mailbox, the interrupt causes and the messages sent. -/
theorem reply_frame (s : State) (m : Fin 8) (r : Reply) :
    ∃ b p g, s.reply m r = { s with mboxes := b, pcie := p, glb := g } := by
  unfold State.reply State.writeReply
  dsimp only
  obtain ⟨p, g, h⟩ := setCause_frame (s.modMbox m _) m.val
  exact ⟨_, p, g, h⟩

/-- The mailboxes after a reply follow from those before it. -/
theorem reply_mboxes_congr {s t : State} (h : t.mboxes = s.mboxes) (m : Fin 8) (r : Reply) :
    (t.reply m r).mboxes = (s.reply m r).mboxes := by
  unfold State.reply State.writeReply
  dsimp only
  obtain ⟨p, g, hs⟩ := setCause_frame (s.modMbox m _) m.val
  obtain ⟨q, k, ht⟩ := setCause_frame (t.modMbox m _) m.val
  rw [hs, ht]
  simp only [State.modMbox, h]

/-- Every other mailbox. -/
theorem reply_mboxes_other (s : State) {m k : Fin 8} (h : k ≠ m) (r : Reply) : (s.reply m r).mboxes[k] = s.mboxes[k] := by
  unfold State.reply State.writeReply
  dsimp only
  obtain ⟨p, g, hs⟩ := setCause_frame (s.modMbox m _) m.val
  rw [hs]
  exact vmod_other _ _ _ _ h

/-- A reply to a state with the mailboxes of `s`. -/
theorem replied_reply (s t : State) (h : t.mboxes = s.mboxes) (m : Fin 8) (r : Reply) : s.replied (t.reply m r) m r := by
  refine ⟨by rw [reply_mboxes_congr h], fun k hk => ?_⟩
  rw [reply_mboxes_other t hk, h]

/-- A command whose effect is its reply. -/
theorem answers_of_reply {c : Instr} {s : State} {m : Fin 8} {r : Reply} (h : exec c s = .next (s.reply m r)) : Answers c s m r := by
  refine ⟨_, h, replied_reply s s rfl m r, ?_⟩
  obtain ⟨b, p, g, e⟩ := reply_frame s m r
  rw [e]

end Sys2Proof.Proofs
end

section
/-! SUPPORT. What step does with the queue of commands. -/

namespace Sys2Proof.Proofs
open Sys2Proof.Machine

theorem step_cons (c : Instr) (rest : List Instr) (s : State) :
    step { s with pending := c :: rest } = exec c { s with pending := rest } := rfl

theorem step_nil {s : State} (h : s.pending = []) : step s = .next s.idle := by
  unfold step
  rw [h]

/-- An idle cycle lets SYSTIME pass and the sink take a unit. -/
theorem idle_frame (s : State) :
    s.idle = { s with dev := { s.dev with systime := s.idle.dev.systime, frac := s.idle.dev.frac }, trc := s.idle.trc } := by
  unfold State.idle
  split <;> rfl

/-- Settles O1: step is its match on the queue, and the idle cycle changes what `idle_frame` says. -/
theorem stepRunsTheFrontCommand : Obligations.StepRunsTheFrontCommand :=
  ⟨step_cons, fun s h => ⟨s.idle, step_nil h, idle_frame s⟩⟩

end Sys2Proof.Proofs
end

section
/-! SUPPORT. What ends on a cluster that goes down, or is restored on one that comes up, leaves the power mode and TOWPATH alone: one
lemma for each operation, from the shared ones to `clusterDown` and `restoreCluster`. -/

namespace Sys2Proof.Proofs
open Sys2Proof.Machine Sys2Proof.Laws

/-- `t` has the power mode of `s` and all that TOWPATH holds: device state, reaches powered, SYSTIME. -/
@[simp] abbrev SamePower (s t : State) : Prop := t.pwr = s.pwr ∧ t.dev = s.dev

theorem SamePower.trans {s t u : State} (st : SamePower s t) (tu : SamePower t u) : SamePower s u :=
  ⟨tu.1.trans st.1, tu.2.trans st.2⟩

@[simp] theorem foldl_samePower {α : Type} {f : State → α → State} (h : ∀ s a, SamePower s (f s a)) (l : List α) (s : State) :
    SamePower s (l.foldl f s) :=
  foldl_frame SamePower (fun _ => ⟨rfl, rfl⟩) (fun _ _ _ => SamePower.trans) f h l s

/-- A fold that also gathers a value beside the state. -/
theorem foldl_fst_samePower {α β : Type} {f : State × β → α → State × β} (h : ∀ x a, SamePower x.1 (f x a).1) (l : List α)
    (x : State × β) : SamePower x.1 (l.foldl f x).1 :=
  foldl_frame (fun x y : State × β => SamePower x.1 y.1) (fun _ => ⟨rfl, rfl⟩) (fun _ _ _ => SamePower.trans) f h l x

@[simp] theorem irqSync_samePower (s : State) : SamePower s s.irqSync := by
  obtain ⟨p, g, h⟩ := irqSync_frame s
  rw [h]
  exact ⟨rfl, rfl⟩

@[simp] theorem setCause_samePower (s : State) (i : Nat) : SamePower s (s.setCause i) := by
  obtain ⟨p, g, h⟩ := setCause_frame s i
  rw [h]
  exact ⟨rfl, rfl⟩

@[simp] theorem event_samePower (s : State) (code ctx w : Nat) (log : Bool) (data : List Byte) :
    SamePower s (s.event code ctx w log data) := by
  obtain ⟨l, a, b, p, g, h⟩ := event_frame s code ctx w log data
  rw [h]
  exact ⟨rfl, rfl⟩

@[simp] theorem trace_samePower (s : State) (r : Fin 10) (cls ty hi : Nat) (data : List Byte) :
    SamePower s (s.trace r cls ty hi data) := by
  obtain ⟨x, h⟩ := trace_frame s r cls ty hi data
  rw [h]
  exact ⟨rfl, rfl⟩

@[simp] theorem count_samePower (s : State) (i n : Nat) : SamePower s (s.count i n) := ⟨rfl, rfl⟩

@[simp] theorem waitEnded_samePower (s : State) (w : Waiter) (result : Nat) : SamePower s (s.waitEnded w result) := by
  unfold State.waitEnded
  split
  · simp
  · dsimp only
    split
    · simp
    · split <;> simp

@[simp] theorem setKeeper_samePower (s : State) (k : KeeperId) (v : Keeper) : SamePower s (s.setKeeper k v) := by
  cases k <;> exact ⟨rfl, rfl⟩

@[simp] theorem release_samePower (s : State) (w : Waiter) : SamePower s (s.release w) := by
  unfold State.release
  dsimp only
  split <;> simp

@[simp] theorem settle_samePower (s : State) (k : KeeperId) (lock : Nat) : SamePower s (s.settle k lock) := by
  simp [State.settle]

@[simp] theorem dropWaiters_samePower (s : State) (p : Waiter → Bool) : SamePower s (s.dropWaiters p) := by
  unfold State.dropWaiters
  exact foldl_samePower (fun s k => by simp) _ s

@[simp] theorem prefetchGone_samePower (s : State) (entry bid : Nat) (ok : Bool) : SamePower s (s.prefetchGone entry bid ok) :=
  ⟨rfl, rfl⟩

@[simp] theorem ringPut_samePower (s : State) (r : Nat) (e : List Byte) : SamePower s (s.ringPut r e) := by
  obtain ⟨a, b, p, h⟩ := ringPut_frame s r e
  rw [h]
  exact ⟨rfl, rfl⟩

@[simp] theorem completeTo_samePower (s : State) (cr : Nat) (e extra : List Byte) : SamePower s (s.completeTo cr e extra) := by
  unfold State.completeTo
  split
  · simp
  · dsimp only
    split_ifs <;> simp

@[simp] theorem complete_samePower (s : State) (r kind status index tag bytes : Nat) (extra : List Byte) :
    SamePower s (s.complete r kind status index tag bytes extra) := by
  unfold State.complete
  split <;> simp

@[simp] theorem lockWait_samePower (s : State) (k : KeeperId) (lock n expiry : Nat) (who : WaiterId) :
    SamePower s (s.lockWait k lock n expiry who).1 := by
  unfold State.lockWait
  dsimp only
  split_ifs <;> simp

@[simp] theorem bargeRefused_samePower (s : State) (ctx : Nat) (c : Fin 4) (code : Nat) (tag : W32) (data : List Byte) :
    SamePower s (s.bargeRefused ctx c code tag data) := by
  simp [State.bargeRefused]

@[simp] theorem bargeWait_samePower (s : State) (b : Barge) : SamePower s (s.bargeWait b).1 := by
  unfold State.bargeWait
  dsimp only
  split
  · simp
  · split <;> simp

@[simp] theorem refillMover_samePower (m : Mover) (n : Nat) (s : State) : SamePower s (State.refillMover m n s) := by
  induction n generalizing s with
  | zero => simp [State.refillMover]
  | succ n ih =>
    unfold State.refillMover
    dsimp only
    split
    · simp
    · split
      · simp
      · split <;> simp [ih]

@[simp] theorem bargeGone_samePower (s : State) (b : Barge) (ok : Bool) (status bytes : Nat) :
    SamePower s (s.bargeGone b ok status bytes) := by
  unfold State.bargeGone
  dsimp only
  split <;> simp

@[simp] theorem bargeFails_samePower (s : State) (b : Barge) (code : Nat) (data : List Byte) :
    SamePower s (s.bargeFails b code data) := by
  unfold State.bargeFails
  dsimp only
  split <;> simp

@[simp] theorem devWrite_samePower (s : State) (loc : Option (Fin 4 × Fin 4)) (a : Nat) (data : List Byte) :
    SamePower s (s.devWrite loc a data).1 := by
  unfold State.devWrite
  split
  · exact ⟨rfl, rfl⟩
  · simp
  · split
    · exact ⟨rfl, rfl⟩
    · simp
  · simp

@[simp] theorem writeLines_samePower (s : State) (loc : Option (Fin 4 × Fin 4)) (l : List (Nat × List Byte)) :
    SamePower s (s.writeLines loc l).1 :=
  foldl_fst_samePower (fun (x : State × Bool) p => devWrite_samePower x.1 loc p.1 p.2) l (s, false)

@[simp] theorem writeSome_samePower (s : State) (b : Barge) : SamePower s (s.writeSome b) := by
  unfold State.writeSome
  dsimp only
  split <;> simp [State.draw]

@[simp] theorem abandonBarge_samePower (s : State) (b : Barge) (code : Nat) (data : List Byte) :
    SamePower s (s.abandonBarge b code data) := by
  simp [State.abandonBarge]

@[simp] theorem abandonShareBarges_samePower (s : State) (rid : Nat) : SamePower s (s.abandonShareBarges rid) :=
  foldl_samePower (fun s b => abandonBarge_samePower s b 0 []) _ s

@[simp] theorem withdrawRun_samePower (s : State) (rid : Nat) : SamePower s (s.withdrawRun rid) := dropWaiters_samePower s _

@[simp] theorem repairEvent_samePower (s : State) (r : Run) : SamePower s (s.repairEvent r) := by
  unfold State.repairEvent
  split <;> simp

@[simp] theorem restoreSaved_samePower (s : State) (r : Run) : SamePower s (s.restoreSaved r) := by
  unfold State.restoreSaved
  dsimp only
  split <;> simp

@[simp] theorem freeCores_samePower (s : State) (c : Fin 4) (rid : Nat) : SamePower s (s.freeCores c rid) := by
  simp [State.freeCores]

@[simp] theorem modOvr_samePower (s : State) (src : Fin 16) (count : Nat) (f : OvrRec → OvrRec) :
    SamePower s (s.modOvr src count f) := ⟨rfl, rfl⟩

@[simp] theorem modRxs_samePower (s : State) (r : Fin 16) (f : RxStream → RxStream) : SamePower s (s.modRxs r f) := ⟨rfl, rfl⟩

@[simp] theorem clWrite_samePower (s : State) (c : Fin 4) (off : Nat) (data : List Byte) : SamePower s (s.clWrite c off data) :=
  ⟨rfl, rfl⟩

@[simp] theorem audWrite_samePower (s : State) (a : AudPlace) (l : List Byte) : SamePower s (s.audWrite a l) := by
  cases a <;> exact ⟨rfl, rfl⟩

@[simp] theorem applyRaise_samePower (s : State) (k : KeeperId) (lock n : Nat) : SamePower s (s.applyRaise k lock n) := by
  simp [State.applyRaise, apply_ite State.pwr, apply_ite State.dev]

@[simp] theorem lnkErr_samePower (s : State) (b : BitVec 15) : SamePower s (s.lnkErr b) := by
  obtain ⟨p, g, h⟩ := lnkErr_frame s b
  rw [h]
  exact ⟨rfl, rfl⟩

@[simp] theorem routeFrame_samePower (s : State) (prio1 : Bool) (f : ZFrame) : SamePower s (s.routeFrame prio1 f) := by
  unfold State.routeFrame State.output
  dsimp only
  split_ifs <;> simp

@[simp] theorem sendFrame_samePower (s : State) (ty dst : Nat) (prio1 : Bool) (id seq part : Nat) (payload : List Byte) :
    SamePower s (s.sendFrame ty dst prio1 id seq part payload) := by
  unfold State.sendFrame
  split <;> simp

@[simp] theorem raiseRef_samePower (s : State) (own : Option (Fin 4)) (ref : W32) : SamePower s (s.raiseRef own ref) := by
  unfold State.raiseRef
  split
  · simp
  · split
    · split <;> simp
    · split <;> simp
    · simp
    · split_ifs <;> simp

@[simp] theorem finaliseUnit_samePower (s : State) (r : Fin 16) : SamePower s (s.finaliseUnit r) := by
  unfold State.finaliseUnit
  dsimp only
  split <;> simp

@[simp] theorem finaliseUnits_samePower (r : Fin 16) (n : Nat) (s : State) : SamePower s (State.finaliseUnits r n s) := by
  induction n generalizing s with
  | zero => simp [State.finaliseUnits]
  | succ n ih => simp [State.finaliseUnits, ih]

@[simp] theorem streamPart_samePower (s : State) (r : Fin 16) (f : ZFrame) : SamePower s (s.streamPart r f) := by
  simp [State.streamPart, State.localDrop, apply_ite State.pwr, apply_ite State.dev]

@[simp] theorem streamIn_samePower (s : State) (f : ZFrame) : SamePower s (s.streamIn f) := by
  unfold State.streamIn
  dsimp only
  split <;> simp [State.localDrop]

@[simp] theorem sendUnit_samePower (s : State) (stream dst seq stamp : Nat) (data : List Byte) :
    SamePower s (s.sendUnit stream dst seq stamp data) :=
  foldl_samePower (fun s n => by dsimp only; split <;> simp) _ s

@[simp] theorem streamSend_samePower (s : State) (t : Fin 16) (place : AudPlace) (n seq stamp : Nat) :
    SamePower s (s.streamSend t place n seq stamp) := by
  unfold State.streamSend
  dsimp only
  split <;> simp

@[simp] theorem bufferStreams_samePower (s : State) (entry count stamp : Nat) : SamePower s (s.bufferStreams entry count stamp) :=
  foldl_samePower (fun s n => by dsimp only; split <;> simp) _ s

@[simp] theorem audDone_samePower (s : State) (entry count : Nat) (completed bypassed : Bool) :
    SamePower s (s.audDone entry count completed bypassed) :=
  foldl_samePower (fun s n => by dsimp only; split <;> simp) _ s

@[simp] theorem txReady_samePower (s : State) (n : Fin 2) : SamePower s (s.txReady n) := ⟨rfl, rfl⟩

@[simp] theorem endSteps_samePower (s : State) (r : Run) (made : Bool) : SamePower s (s.endSteps r made) := ⟨rfl, rfl⟩

@[simp] theorem runEnd_samePower (s : State) (r : Run) (outcome : Nat) (bypassed : Bool) :
    SamePower s (s.runEnd r outcome bypassed) := by
  simp [State.runEnd, apply_ite State.pwr, apply_ite State.dev]

@[simp] theorem stopRun_samePower (s : State) (r : Run) (bypassed : Bool) : SamePower s (s.stopRun r bypassed) := by
  unfold State.stopRun
  dsimp only
  split_ifs <;> simp

@[simp] theorem modStage_samePower (s : State) (n : Fin 2) (f : Stage → Stage) : SamePower s (s.modStage n f) := ⟨rfl, rfl⟩

@[simp] theorem wakeSync_samePower (s : State) : SamePower s s.wakeSync := by
  unfold State.wakeSync
  split <;> exact ⟨rfl, rfl⟩

@[simp] theorem dropSession_samePower (s : State) (n : Fin 2) (reason : Nat) : SamePower s (s.dropSession n reason) := by
  unfold State.dropSession
  split
  · simp
  · dsimp only
    split <;> simp [State.holdWake]

@[simp] theorem dropSessions_samePower (s : State) (c : Fin 4) : SamePower s (s.dropSessions c).1 :=
  foldl_fst_samePower (fun x n => by dsimp only; split <;> simp) _ (s, false)

@[simp] theorem jobEnd_samePower (s : State) (j : Job) (outcome : Nat) : SamePower s (s.jobEnd j outcome) := by
  unfold State.jobEnd
  dsimp only
  split <;> simp

@[simp] theorem jobAbort_samePower (s : State) (j : Job) : SamePower s (s.jobAbort j) := by
  unfold State.jobAbort
  dsimp only
  split
  · split <;> simp [State.junkDram, State.newEpoch]
  · simp

@[simp] theorem offAccess_samePower (s : State) (a : Nat) : SamePower s (s.offAccess a) := by
  unfold State.offAccess
  split
  · split <;> simp
  · simp

@[simp] theorem hostStore_samePower (s : State) (p : Fin 4) (a : Nat) (data : List Byte) : SamePower s (s.hostStore p a data) := by
  unfold State.hostStore
  split
  · simp
  · simp [State.dramWrite]

@[simp] theorem releaseHeld_samePower (s : State) (p : Fin 4) : SamePower s (s.releaseHeld p) :=
  foldl_samePower (fun s h => by split <;> simp [State.hostRead]) _ _

@[simp] theorem abandonTests_samePower (s : State) (c : Fin 4) : SamePower s (s.abandonTests c) := by
  simp [State.abandonTests, State.selftestEvent]

/-- What ends on a cluster that goes down leaves the power mode and TOWPATH alone. -/
@[simp] theorem clusterDown_samePower (s : State) (c : Fin 4) : SamePower s (s.clusterDown c).1 := by
  simp [State.clusterDown]

/-! ### What comes back with a reach -/

@[simp] theorem initLocks_samePower (s : State) (g : Cargo) (c : Fin 4) : SamePower s (s.initLocks g c) := by
  unfold State.initLocks
  split <;> simp

@[simp] theorem placeResident_samePower (s : State) (g : Cargo) (c : Fin 4) : SamePower s (s.placeResident g c) := by
  unfold State.placeResident
  split <;> simp

@[simp] theorem keepReload_samePower (s : State) (cs : List (Fin 4)) (t : ClipSlot) (v : W32) :
    SamePower s (s.keepReload cs t v) := by
  simp [State.keepReload]

@[simp] theorem modSlot_samePower (s : State) (c : Fin 4) (cargo slot : Nat) (f : ClipSlot → ClipSlot) :
    SamePower s (s.modSlot c cargo slot f) := ⟨rfl, rfl⟩

@[simp] theorem restoreSlots_samePower (s : State) (c : Fin 4) : SamePower s (s.restoreSlots c) :=
  foldl_samePower (fun s t => by
    dsimp only
    split
    · simp
    · split <;> simp) _ s

@[simp] theorem restoreSet_samePower (s : State) (d : SetDesc) : SamePower s (State.restoreSet s d) := by
  simp [State.restoreSet]

@[simp] theorem restoreCluster_samePower (s : State) (c : Fin 4) : SamePower s (s.restoreCluster c) := by
  simp [State.restoreCluster]

@[simp] theorem dspOn_samePower (s : State) (d : Fin 4) : SamePower s (s.dspOn d) := by
  unfold State.dspOn State.dspTests
  split
  · simp
  · split <;> simp [State.runTest]

@[simp] theorem vauxSync_samePower (s : State) : SamePower s s.vauxSync := by
  unfold State.vauxSync
  dsimp only
  split_ifs <;> simp

@[simp] theorem alignApll_samePower (s : State) : SamePower s s.alignApll := by
  unfold State.alignApll
  dsimp only
  split <;> simp

end Sys2Proof.Proofs
end

section
/-! SUPPORT. Reaches that power off and up, one at a time, in a mode change (R524, R529). -/

namespace Sys2Proof.Proofs
open Sys2Proof.Machine Sys2Proof.Laws

/-! ### Reaches that power off -/

@[simp] theorem traceLost_samePower (s : State) (r : Fin 10) : SamePower s (s.traceLost r) := by
  obtain ⟨x, h⟩ := traceLost_frame s r
  rw [h]
  exact ⟨rfl, rfl⟩

@[simp] theorem traceMarker_samePower (s : State) (r : Fin 10) (ty : Nat) (data : List Byte) (must : Bool) :
    SamePower s (s.traceMarker r ty data must) := by
  obtain ⟨x, h⟩ := traceMarker_frame s r ty data must
  rw [h]
  exact ⟨rfl, rfl⟩

@[simp] theorem traceReachOn_samePower (s : State) (r : Fin 10) (cause : Nat) : SamePower s (s.traceReachOn r cause) := by
  obtain ⟨x, h⟩ := traceReachOn_frame s r cause
  rw [h]
  exact ⟨rfl, rfl⟩

@[simp] theorem groupChanged_samePower (s : State) : SamePower s s.groupChanged := ⟨rfl, rfl⟩

@[simp] theorem dspOff_samePower (s : State) (d : Fin 4) : SamePower s (s.dspOff d) := ⟨rfl, rfl⟩

@[simp] theorem txHalt_samePower (s : State) (n : Fin 2) : SamePower s (s.txHalt n) := ⟨rfl, rfl⟩

@[simp] theorem reply_samePower (s : State) (m : Fin 8) (r : Reply) : SamePower s (s.reply m r) := by
  simp [State.reply, State.writeReply]

@[simp] theorem replyFor_samePower (s : State) (m : Fin 8) (code : Nat) (r : Reply) : SamePower s (s.replyFor m code r) := by
  unfold State.replyFor
  split
  · split <;> simp
  · simp

@[simp] theorem i3cCancel_samePower (s : State) (n : Fin 2) : SamePower s (s.i3cCancel n) := by
  simp [State.i3cCancel]

@[simp] theorem timeUnlock_samePower (s : State) (cause : Nat) : SamePower s (s.timeUnlock cause) := by
  unfold State.timeUnlock
  split <;> simp

@[simp] theorem portDown_samePower (s : State) (p : Fin 4) (reason : Nat) (event : Bool) :
    SamePower s (s.portDown p reason event) := by
  simp [State.portDown, apply_ite State.pwr, apply_ite State.dev]

/-- A reach that powers off leaves the power mode alone, and takes only itself from the reaches powered. -/
theorem reachOff_power (s : State) (r : Fin 10) :
    (s.reachOff r).pwr = s.pwr ∧
      (s.on r.val = true → (s.reachOff r).dev = { s.dev with powered := s.dev.powered &&& ~~~(1#10 <<< r.val) }) := by
  unfold State.reachOff
  split
  · simp_all
  · dsimp only
    split <;> simp

@[simp] theorem reachOff_pwr (s : State) (r : Fin 10) : (s.reachOff r).pwr = s.pwr := (reachOff_power s r).1

theorem reachOff_on (s : State) (r : Fin 10) : (s.reachOff r).on r.val = false := by
  cases h : s.on r.val with
  | false => simp [State.reachOff, h]
  | true => simp [State.on, (reachOff_power s r).2 h]

@[simp] theorem clusterOff_pwr (s : State) (c : Fin 4) : (s.clusterOff c).1.pwr = s.pwr := by
  unfold State.clusterOff
  split <;> simp

theorem clusterOff_on (s : State) (c : Fin 4) : (s.clusterOff c).1.on (clusterReach c) = false := by
  unfold State.clusterOff
  split
  · simp_all
  · exact reachOff_on _ (clusterUnit c)

@[simp] theorem powerOff_pwr (s : State) (r : Fin 10) : (s.powerOff r).pwr = s.pwr := by
  unfold State.powerOff
  split <;> simp

/-- Whichever reach powers off is off. -/
theorem powerOff_on (s : State) (r : Fin 10) : (s.powerOff r).on r.val = false := by
  unfold State.powerOff
  split
  · next h =>
    have e := clusterOff_on s ⟨r.val - 6, by omega⟩
    rwa [clusterReach, Nat.add_sub_cancel' h] at e
  · exact reachOff_on s r

/-! ### What settles after a reach has switched -/

@[simp] theorem audSettle_samePower (s : State) : SamePower s s.audSettle := by
  simp [State.audSettle, State.replyAll]

@[simp] theorem audSettle_on (s : State) (r : Nat) : s.audSettle.on r = s.on r := by
  simp [State.on]

@[simp] theorem refresh_pwr (s : State) : s.refresh.pwr = s.pwr := by
  obtain ⟨d, x, p, g, h⟩ := refresh_frame s
  rw [h]

@[simp] theorem refresh_on (s : State) (r : Nat) : s.refresh.on r = s.on r := by
  obtain ⟨d, x, p, g, h⟩ := refresh_frame s
  rw [h]
  rfl

/-- A mode change with a reach left to switch goes on. -/
theorem advanceMode_of_left {s : State} {x : ModeChange} (h : s.pwr.change = some x) (left : x.down ≠ [] ∨ x.up ≠ []) :
    s.advanceMode = s := by
  unfold State.advanceMode
  rw [h]
  refine if_neg ?_
  simp only [Bool.and_eq_true, List.isEmpty_iff]
  tauto

/-- The state with a mode change in progress. -/
def withChange (s : State) (x : ModeChange) : State := { s with pwr := { s.pwr with change := some x } }

@[simp] theorem withChange_pwr (s : State) (x : ModeChange) : (withChange s x).pwr = { s.pwr with change := some x } := rfl
@[simp] theorem withChange_on (s : State) (x : ModeChange) (r : Nat) : (withChange s x).on r = s.on r := rfl

theorem advanceMode_withChange (s : State) {x : ModeChange} (left : x.down ≠ [] ∨ x.up ≠ []) :
    State.advanceMode (withChange s x) = withChange s x :=
  advanceMode_of_left rfl left

/-- REACH_POWER_DOWN of the reach next in order, once it has quiesced. -/
theorem exec_reachPowerDown_next {s : State} {r : Fin 10} {x : ModeChange} {rest : List (Fin 10)} (hx : s.pwr.change = some x)
    (hr : r ≠ 3) (hd : x.down = r :: rest) (hq : s.quiesced r = true) :
    ∃ d, exec (.reachPowerDown r) s =
      .next (State.advanceMode (withChange (s.powerOff r) { x with down := rest, dropped := d })).audSettle.refresh := by
  change ∃ d, execReachPowerDown r s = _
  unfold execReachPowerDown State.powerOff
  simp only [hr, hx, hd, hq, if_false, List.head?_cons, List.tail_cons, and_self, if_true]
  split <;> exact ⟨_, rfl⟩

/-- The reach next in order powers down, and the change goes on. -/
theorem reachPowerDown_goes_on {s : State} {r : Fin 10} {x : ModeChange} {rest : List (Fin 10)} (hx : s.pwr.change = some x)
    (hr : r ≠ 3) (hd : x.down = r :: rest) (hq : s.quiesced r = true) (left : rest ≠ [] ∨ x.up ≠ []) :
    ∃ t d, exec (.reachPowerDown r) s = .next t ∧ t.on r.val = false ∧ t.pwr.mode = s.pwr.mode ∧
      t.pwr.change = some { x with down := rest, dropped := d } := by
  obtain ⟨d, h⟩ := exec_reachPowerDown_next hx hr hd hq
  rw [advanceMode_withChange _ left] at h
  exact ⟨_, d, h, by simp [powerOff_on], by simp, by simp⟩

/-! ### Reaches that power up -/

/-- A reach that powers up leaves the power mode alone and is powered. -/
theorem reachOn_power (s : State) (r : Fin 10) (cause : Nat) :
    (s.reachOn r cause).pwr = s.pwr ∧ (s.reachOn r cause).on r.val = true := by
  unfold State.reachOn
  split
  · simp_all
  · dsimp only
    rw [refresh_pwr, refresh_on]
    split_ifs <;> simp [State.on, r.isLt]

/-- REACH_POWER_UP of the reach next in order, once those going down are off. -/
theorem exec_reachPowerUp_next {s : State} {r : Fin 10} {x : ModeChange} {rest : List (Fin 10)} (hx : s.pwr.change = some x)
    (hd : x.down = []) (hu : x.up = r :: rest) :
    exec (.reachPowerUp r) s =
      .next (State.advanceMode (withChange (s.reachOn r x.by_.reachCause) { x with up := rest })) := by
  change execReachPowerUp r s = _
  unfold execReachPowerUp
  simp only [hx, hd, hu, List.isEmpty_nil, List.head?_cons, List.tail_cons, and_self, if_true]
  rfl

/-- The reach next in order comes up, and the change goes on. -/
theorem reachPowerUp_goes_on {s : State} {r : Fin 10} {x : ModeChange} {rest : List (Fin 10)} (hx : s.pwr.change = some x)
    (hd : x.down = []) (hu : x.up = r :: rest) (left : rest ≠ []) :
    ∃ t, exec (.reachPowerUp r) s = .next t ∧ t.on r.val = true ∧ t.pwr.mode = s.pwr.mode ∧
      t.pwr.change = some { x with up := rest } := by
  have h := exec_reachPowerUp_next hx hd hu
  rw [advanceMode_withChange _ (Or.inr left)] at h
  obtain ⟨hpwr, hon⟩ := reachOn_power s r x.by_.reachCause
  exact ⟨_, h, hon, by rw [withChange_pwr, hpwr], rfl⟩

/-- CONTROL powers off at its time, with no command taken. -/
theorem reachPowerDown_control {s : State} {u : Nat} (hu : s.pwr.ctrlOff = some u) (due : u ≤ s.now)
    (idle : ∀ m : Fin 8, s.mboxes[m].taken = none) :
    exec (.reachPowerDown 3) s = .next (State.reachOff { s with pwr := { s.pwr with ctrlOff := none } } 3) := by
  change execReachPowerDown 3 s = _
  have all : s.mboxes.toList.all (fun b => b.taken.isNone) = true := by
    rw [List.all_eq_true]
    intro b hb
    obtain ⟨i, hi, rfl⟩ := List.mem_iff_getElem.1 hb
    have e := idle ⟨i, by simpa using hi⟩
    simpa using e
  simp [execReachPowerDown, hu, due, all]

/-- `t` has the package DRAM and the clusters of `s`. -/
@[simp] abbrev SameMemory (s t : State) : Prop := t.dram = s.dram ∧ t.clusters = s.clusters

@[simp] theorem traceLost_sameMemory (s : State) (r : Fin 10) : SameMemory s (s.traceLost r) := by
  obtain ⟨x, h⟩ := traceLost_frame s r
  rw [h]
  exact ⟨rfl, rfl⟩

@[simp] theorem traceMarker_sameMemory (s : State) (r : Fin 10) (ty : Nat) (data : List Byte) (must : Bool) :
    SameMemory s (s.traceMarker r ty data must) := by
  obtain ⟨x, h⟩ := traceMarker_frame s r ty data must
  rw [h]
  exact ⟨rfl, rfl⟩

@[simp] theorem irqSync_sameMemory (s : State) : SameMemory s s.irqSync := by
  obtain ⟨p, g, h⟩ := irqSync_frame s
  rw [h]
  exact ⟨rfl, rfl⟩

@[simp] theorem setCause_sameMemory (s : State) (i : Nat) : SameMemory s (s.setCause i) := by
  obtain ⟨p, g, h⟩ := setCause_frame s i
  rw [h]
  exact ⟨rfl, rfl⟩

@[simp] theorem event_sameMemory (s : State) (code ctx w : Nat) (log : Bool) (data : List Byte) :
    SameMemory s (s.event code ctx w log data) := by
  obtain ⟨l, a, b, p, g, h⟩ := event_frame s code ctx w log data
  rw [h]
  exact ⟨rfl, rfl⟩

/-- CONTROL's reach holds neither package DRAM nor clusters. -/
theorem reachOff_control_sameMemory (s : State) : SameMemory s (s.reachOff 3) := by
  unfold State.reachOff
  split
  · exact ⟨rfl, rfl⟩
  · simp [State.groupChanged]

/-- CONTROL powers off at its time: its reach is off, and its 10 ms are over. -/
theorem reachPowerDown_control_off {s : State} {u : Nat} (hu : s.pwr.ctrlOff = some u) (due : u ≤ s.now)
    (idle : ∀ m : Fin 8, s.mboxes[m].taken = none) :
    ∃ t, exec (.reachPowerDown 3) s = .next t ∧ t.on 3 = false ∧ t.pwr.ctrlOff = none ∧ t.dram = s.dram ∧
      t.clusters = s.clusters := by
  obtain ⟨dram, clusters⟩ := reachOff_control_sameMemory { s with pwr := { s.pwr with ctrlOff := none } }
  exact ⟨_, reachPowerDown_control hu due idle, reachOff_on _ 3, by rw [reachOff_pwr], dram, clusters⟩

end Sys2Proof.Proofs
end

section
/-! SUPPORT. An event does not depend on the runs or the power mode. -/

namespace Sys2Proof.Proofs
open Sys2Proof.Machine Sys2Proof.Laws

/-- The state with other runs and another power mode. -/
def withSchedPwr (a : Sched) (p : Pwr) (s : State) : State := { s with sched := a, pwr := p }

section
variable (a : Sched) (p : Pwr) (s : State)

theorem sendVec_withSchedPwr (v : Nat) : (withSchedPwr a p s).sendVec v = withSchedPwr a p (s.sendVec v) := by
  by_cases h : s.pcie.masked.getLsbD v <;> simp [State.sendVec, withSchedPwr, h]

theorem irqSync_withSchedPwr : (withSchedPwr a p s).irqSync = withSchedPwr a p s.irqSync := by
  unfold State.irqSync
  dsimp only
  have e : (withSchedPwr a p s).pending64 = s.pending64 := rfl
  rw [e, List.foldl_hom (withSchedPwr a p)
    (g₁ := fun s' v => if s.pending64.getLsbD v && !s'.glb.prevP.getLsbD v then s'.sendVec v else s')]
  · rfl
  · intro t v
    rw [sendVec_withSchedPwr, apply_ite (withSchedPwr a p)]
    rfl

theorem setCause_withSchedPwr (i : Nat) : (withSchedPwr a p s).setCause i = withSchedPwr a p (s.setCause i) :=
  irqSync_withSchedPwr a p { s with glb := { s.glb with cause := s.glb.cause ||| (1#16 <<< i) } }

theorem logEvent_withSchedPwr (code flags : Nat) (data : List Byte) (lines : Nat) :
    (withSchedPwr a p s).logEvent code flags data lines = withSchedPwr a p (s.logEvent code flags data lines) := by
  unfold State.logEvent
  rw [apply_ite (withSchedPwr a p), ← setCause_withSchedPwr]
  rfl

theorem ringPut_withSchedPwr (r : Nat) (e : List Byte) : (withSchedPwr a p s).ringPut r e = withSchedPwr a p (s.ringPut r e) := by
  unfold State.ringPut
  have rings : (withSchedPwr a p s).rings = s.rings := rfl
  rw [rings]
  split
  · rfl
  · dsimp only
    rw [apply_ite (withSchedPwr a p), ← sendVec_withSchedPwr]
    rfl

theorem eventLost_withSchedPwr (r : Nat) : (withSchedPwr a p s).eventLost r = withSchedPwr a p (s.eventLost r) := by
  unfold State.eventLost
  have rings : (withSchedPwr a p s).rings = s.rings := rfl
  rw [rings]
  split
  · rfl
  · split
    · rfl
    · dsimp only
      rw [apply_ite (withSchedPwr a p), ringPut_withSchedPwr]
      rfl

theorem ringEvent_withSchedPwr (r code ctx w : Nat) (log : Bool) (data : List Byte) :
    (withSchedPwr a p s).ringEvent r code ctx w log data = withSchedPwr a p (s.ringEvent r code ctx w log data) := by
  unfold State.ringEvent
  dsimp only
  rw [eventLost_withSchedPwr]
  have rings : (withSchedPwr a p (s.eventLost r)).rings = (s.eventLost r).rings := rfl
  rw [rings]
  split
  · rfl
  · rw [apply_ite (withSchedPwr a p), ringPut_withSchedPwr]
    rfl

theorem event_withSchedPwr (code ctx w : Nat) (log : Bool) (data : List Byte) :
    (withSchedPwr a p s).event code ctx w log data = withSchedPwr a p (s.event code ctx w log data) := by
  unfold State.event
  dsimp only
  have ring : (withSchedPwr a p s).eventRing ctx = s.eventRing ctx := rfl
  rw [ring, logEvent_withSchedPwr, ← apply_ite (withSchedPwr a p)]
  split
  · rfl
  · rw [ringEvent_withSchedPwr]

end

end Sys2Proof.Proofs
end

section
/-! SUPPORT. Thermal samples below the shutdown's threshold (R546). -/

namespace Sys2Proof.Proofs
open Sys2Proof.Machine Sys2Proof.Laws

/-- Power after a sample that arms no shutdown. -/
def sampledPwr (w : Pwr) (tj : W16) : Pwr := { w with tj := tj, level := throttle w.level tj.toInt, armed := none }

/-- THROTTLE of a new level, and its cause (R546). -/
def throttleReported (s : State) (old new : Nat) (tj : W16) : State :=
  (s.event 0x0805 0 0xFF true (leBytes 1 old ++ leBytes 1 new ++ leBytes 2 tj.toNat)).setCause 13

/-- A sample below 105 °C: the level is kept, a new one is reported, and beside that only runs and cascade sessions change. -/
theorem exec_thermalSample_below {s : State} {tj : W16} (up : s.dev.towpath = true) (cool : tj.toInt < 1680) :
    ∃ a k, exec (.thermalSample tj) s = .next
      { (if s.pwr.level = throttle s.pwr.level tj.toInt then withSchedPwr a (sampledPwr s.pwr tj) s
          else throttleReported (withSchedPwr a (sampledPwr s.pwr tj) s) s.pwr.level (throttle s.pwr.level tj.toInt) tj) with
        casc := k } := by
  have noArm : ¬ 1680 ≤ tj.toInt := by omega
  have noShutdown : ¬ 1760 ≤ tj.toInt := by omega
  change ∃ a k, execThermalSample tj s = _
  unfold execThermalSample
  simp only [up, noArm, noShutdown, Bool.not_true, Bool.false_eq_true, if_false, decide_false, Option.any_none, Bool.or_false,
    Bool.false_and, Option.isSome_none]
  cases level3 : decide (s.pwr.level = 3) == decide (throttle s.pwr.level tj.toInt = 3) with
  | true => exact ⟨s.sched, _, by simp only [if_true]; rfl⟩
  | false => exact ⟨{ s.sched with runs := s.sched.runs.map s.foldCycles }, _, by simp only [Bool.false_eq_true, if_false]; rfl⟩

theorem throttleReported_reports (s : State) (a : Sched) (w : Pwr) (old new : Nat) (tj : W16) :
    s.reports (throttleReported (withSchedPwr a w s) old new tj) 0x0805 0 0xFF true
      (leBytes 1 old ++ leBytes 1 new ++ leBytes 2 tj.toNat) := by
  unfold throttleReported
  rw [event_withSchedPwr]
  obtain ⟨p, g, h⟩ := setCause_frame
    (withSchedPwr a w (s.event 0x0805 0 0xFF true (leBytes 1 old ++ leBytes 1 new ++ leBytes 2 tj.toNat))) 13
  rw [h]
  exact ⟨rfl, rfl, rfl⟩

/-- A sample below 105 °C sets the level and reports a new one. -/
theorem thermalSample_sets_level {s : State} {tj : W16} (up : s.dev.towpath = true) (cool : tj.toInt < 1680) :
    ∃ t, exec (.thermalSample tj) s = .next t ∧ t.pwr = sampledPwr s.pwr tj ∧ t.dev = s.dev ∧ t.dram = s.dram ∧
      t.clusters = s.clusters ∧
      (throttle s.pwr.level tj.toInt ≠ s.pwr.level →
        s.reports t 0x0805 0 0xFF true
          (leBytes 1 s.pwr.level ++ leBytes 1 (throttle s.pwr.level tj.toInt) ++ leBytes 2 tj.toNat)) := by
  obtain ⟨a, k, h⟩ := exec_thermalSample_below up cool
  by_cases same : s.pwr.level = throttle s.pwr.level tj.toInt
  · rw [if_pos same] at h
    exact ⟨_, h, rfl, rfl, rfl, rfl, fun new => absurd same.symm new⟩
  · rw [if_neg same] at h
    refine ⟨_, h, ?_, ?_, ?_, ?_, fun _ => throttleReported_reports s a _ _ _ tj⟩ <;> simp [throttleReported, withSchedPwr]

end Sys2Proof.Proofs
end

section
/-! SUPPORT. PWR_MODE and PWR_INFO (R524, R528, R529, R534). -/

namespace Sys2Proof.Proofs
open Sys2Proof.Machine Sys2Proof.Laws

/-- PWR_MODE asks for what is in force: the mode, the LINK request and, for WATCH, its cluster. -/
abbrev modeInForce (s : State) (mode : Nat) (link : Bool) (c : Fin 4) : Prop :=
  mode = s.pwr.mode ∧ link = s.pwr.linkReq ∧ (mode = 2 → c = s.pwr.watch)

/-- Mailbox m holds a PWR_MODE of legal fields (R528), no change is in progress and no shutdown is armed. -/
structure LegalPwrMode (s : State) (m : Fin 8) (ctx : Nat) (p : List Byte) (c : Fin 4) : Prop where
  taken : s.holdsTaken m 0x0801 ctx p
  mode : field p 0 1 ≤ 3
  flags : field p 1 1 ≤ 1
  cluster : field p 2 1 = c.val
  onlyWatch : field p 0 1 ≠ 2 → c = 0
  reserved : field p 3 1 = 0
  noChange : s.pwr.change = none
  notArmed : s.pwr.armed = none

/-- A legal PWR_MODE is answered at once or begins the change. -/
theorem exec_pwrMode_legal {s : State} {m : Fin 8} {ctx : Nat} {p : List Byte} {c : Fin 4} (h : LegalPwrMode s m ctx p c) :
    exec (.pwrMode m) s = .next (
      if modeInForce s (field p 0 1) (bit (field p 1 1) 0) c then s.reply m (ok s.modeReply)
      else (s.fly m 0x0801 [] []).beginMode (field p 0 1) (bit (field p 1 1) 0) c (.host m)) := by
  change execPwrMode m s = _
  have cluster : Fin.ofNat 4 (field p 2 1) = c := by
    rw [h.cluster]
    exact Fin.ext (Nat.mod_eq_of_lt c.isLt)
  have legalCluster : ¬ (if field p 0 1 = 2 then 3 < field p 2 1 else field p 2 1 ≠ 0) := by
    rw [h.cluster]
    split
    · omega
    · next notWatch => simp [h.onlyWatch notWatch]
  unfold execPwrMode
  rw [withTaken_holdsTaken h.taken]
  simp [-Fin.ofNat_eq_cast, firstErr, cluster, legalCluster, h.reserved, h.noChange, h.notArmed, Nat.not_lt.2 h.mode,
    Nat.not_lt.2 h.flags]

/-- PWR_MODE to the mode in force is answered at once. -/
theorem pwrMode_in_force_answers {s : State} {m : Fin 8} {ctx : Nat} {p : List Byte} {c : Fin 4} (h : LegalPwrMode s m ctx p c)
    (same : modeInForce s (field p 0 1) (bit (field p 1 1) 0) c) : Answers (.pwrMode m) s m (ok s.modeReply) := by
  refine answers_of_reply ?_
  rw [exec_pwrMode_legal h, if_pos same]

/-- The reaches that a change to a mode powers down, CONTROL aside, in the reverse of R524's order. -/
def reachesDown (s : State) (mode : Nat) (link : Bool) (c : Fin 4) : List (Fin 10) :=
  upOrder.reverse.filter (fun r => s.on r.val && !modePowers mode link c r && decide (r ≠ 3))

/-- The reaches that a change to a mode powers up, in R524's order. -/
def reachesUp (s : State) (mode : Nat) (link : Bool) (c : Fin 4) : List (Fin 10) :=
  upOrder.filter (fun r => !s.on r.val && modePowers mode link c r)

theorem mem_reachesDown {s : State} {mode : Nat} {link : Bool} {c : Fin 4} {r : Fin 10} : r ∈ reachesDown s mode link c ↔
    r ∈ upOrder ∧ s.on r.val = true ∧ modePowers mode link c r = false ∧ r ≠ 3 := by
  simp [reachesDown, and_assoc]

theorem mem_reachesUp {s : State} {mode : Nat} {link : Bool} {c : Fin 4} {r : Fin 10} : r ∈ reachesUp s mode link c ↔
    r ∈ upOrder ∧ s.on r.val = false ∧ modePowers mode link c r = true := by
  simp [reachesUp]

/-- A mode switches a reach: CONTROL only up, since it powers down after the reply. -/
abbrev switchesReach (s : State) (mode : Nat) (link : Bool) (c : Fin 4) : Prop :=
  ∃ r ∈ upOrder, (s.on r.val = true ∧ modePowers mode link c r = false ∧ r ≠ 3) ∨
    (s.on r.val = false ∧ modePowers mode link c r = true)

theorem reaches_left {s : State} {mode : Nat} {link : Bool} {c : Fin 4} (h : switchesReach s mode link c) :
    reachesDown s mode link c ≠ [] ∨ reachesUp s mode link c ≠ [] := by
  obtain ⟨r, hr, down | up⟩ := h
  · exact Or.inl (List.ne_nil_of_mem (mem_reachesDown.2 ⟨hr, down⟩))
  · exact Or.inr (List.ne_nil_of_mem (mem_reachesUp.2 ⟨hr, up⟩))

/-- The change to a mode as it begins. -/
def changeTo (s : State) (mode : Nat) (link : Bool) (c : Fin 4) (by_ : ModeBy) : ModeChange :=
  { old := s.pwr.mode, new := mode, down := reachesDown s mode link c, up := reachesUp s mode link c, by_ := by_, dropped := false }

/-- A mode change that switches a reach is in progress once begun. -/
theorem beginMode_switches {s : State} {mode : Nat} {link : Bool} {c : Fin 4} (h : switchesReach s mode link c) (by_ : ModeBy) :
    s.beginMode mode link c by_ = { s with
      casc := { s.casc with autoWatch := s.casc.autoWatch && decide (by_ = .cascade) },
      pwr := { s.pwr with
        linkReq := link, watch := if mode = 2 then c else s.pwr.watch, ctrlOff := none, wake := false,
        change := some (changeTo s mode link c by_) } } := by
  unfold State.beginMode
  exact advanceMode_of_left (x := changeTo s mode link c by_) rfl (reaches_left h)

/-- PWR_MODE to a mode that switches reaches stays BUSY, with the reaches to power down and up of R524. -/
theorem pwrMode_begins_change {s : State} {m : Fin 8} {ctx : Nat} {p : List Byte} {c : Fin 4} (h : LegalPwrMode s m ctx p c)
    (other : field p 0 1 ≠ s.pwr.mode ∨ bit (field p 1 1) 0 ≠ s.pwr.linkReq)
    (switches : switchesReach s (field p 0 1) (bit (field p 1 1) 0) c) :
    ∃ t x, exec (.pwrMode m) s = .next t ∧ t.pwr.change = some x ∧ x.old = s.pwr.mode ∧ x.new = field p 0 1 ∧ x.by_ = .host m ∧
      t.pwr.mode = s.pwr.mode ∧ t.mboxes[m].flight.isSome = true ∧ t.dev = s.dev ∧ t.clusters = s.clusters ∧ t.dram = s.dram ∧
      (∀ r, r ∈ x.down ↔ r ∈ upOrder ∧ s.on r.val = true ∧ modePowers (field p 0 1) (bit (field p 1 1) 0) c r = false ∧ r ≠ 3) ∧
      ∀ r, r ∈ x.up ↔ r ∈ upOrder ∧ s.on r.val = false ∧ modePowers (field p 0 1) (bit (field p 1 1) 0) c r = true := by
  have notInForce : ¬ modeInForce s (field p 0 1) (bit (field p 1 1) 0) c := by tauto
  have flying : (s.fly m 0x0801 [] []).mboxes[m].flight.isSome = true := by simp [State.fly]
  have e := exec_pwrMode_legal h
  rw [if_neg notInForce, beginMode_switches (s := s.fly m 0x0801 [] []) switches] at e
  exact ⟨_, _, e, rfl, rfl, rfl, rfl, rfl, flying, rfl, rfl, rfl, fun _ => mem_reachesDown, fun _ => mem_reachesUp⟩

/-- What PWR_INFO answers before its free readings. -/
def infoHead (s : State) : List Byte :=
  leBytes 1 s.pwr.mode ++ leBytes 1 (b2n s.pwr.linkReq) ++ leBytes 1 s.pwr.watch.val ++ leBytes 1 s.pwr.level ++
    leBytes 2 s.dev.powered.toNat ++ leBytes 1 (b2n s.pwr.change.isSome) ++ [0] ++ leBytes 2 s.pwr.tj.toNat

theorem infoHead_length (s : State) : (infoHead s).length = 10 := by simp [infoHead]

theorem exec_pwrInfo_taken {s : State} {m : Fin 8} {ctx : Nat} {p : List Byte} (taken : s.holdsTaken m 0x0802 ctx p) :
    ∃ readings, exec (.pwrInfo m) s =
      .next (State.reply { s with fresh := s.fresh + 12 } m (ok (infoHead s ++ readings))) := by
  change ∃ readings, execPwrInfo m s = _
  unfold execPwrInfo State.answer
  rw [withTaken_holdsTaken taken]
  exact ⟨_, rfl⟩

/-- PWR_INFO answers the mode, the reaches powered, the throttle level and the temperature, and changes nothing but its mailbox and
the count of free values. -/
theorem pwrInfo_answers {s : State} {m : Fin 8} {ctx : Nat} {p : List Byte} (taken : s.holdsTaken m 0x0802 ctx p) :
    ∃ t r, exec (.pwrInfo m) s = .next t ∧ s.replied t m r ∧ r.status = 0 ∧ r.payload.take 10 = infoHead s ∧
      t = { s with fresh := t.fresh, mboxes := t.mboxes, glb := t.glb, pcie := t.pcie } := by
  obtain ⟨readings, h⟩ := exec_pwrInfo_taken taken
  refine ⟨_, _, h, replied_reply s { s with fresh := s.fresh + 12 } rfl m _, rfl, List.take_left' (infoHead_length s), ?_⟩
  obtain ⟨b, q, g, e⟩ := reply_frame { s with fresh := s.fresh + 12 } m (ok (infoHead s ++ readings))
  rw [e]

end Sys2Proof.Proofs
end

section
/-! The obligation of chapter 14's power modes. -/

namespace Sys2Proof.Proofs
open Sys2Proof.Machine

/-- Settles O40: PWR_MODE and PWR_INFO by what their commands do once taken, the switching of reaches by `SamePower` of all that a
switch touches, the sample by an event's independence of runs and power. -/
theorem powerModesChange : Obligations.PowerModesChange := by
  refine ⟨fun s m ctx p c => ⟨fun taken mode flags cluster onlyWatch reserved noChange notArmed => ?_, pwrInfo_answers⟩,
    fun s r x change => ⟨fun rest => reachPowerDown_goes_on change, fun rest => reachPowerUp_goes_on change⟩,
    fun s u => reachPowerDown_control_off, fun s tj => thermalSample_sets_level⟩
  have legal : LegalPwrMode s m ctx p c := ⟨taken, mode, flags, cluster, onlyWatch, reserved, noChange, notArmed⟩
  exact ⟨fun sameMode sameLink sameWatch => pwrMode_in_force_answers legal ⟨sameMode, sameLink, sameWatch⟩,
    pwrMode_begins_change legal⟩

end Sys2Proof.Proofs
end

section
/-! SUPPORT. What reporting leaves alone, and a RUN_STOP or a full table that nothing waits for (R242, R426). -/

namespace Sys2Proof.Proofs
open Sys2Proof.Machine Sys2Proof.Laws

/-- `t` has what `s` works on: mailboxes, runs, clusters, package DRAM, imaging, configuration, DSPs. -/
@[simp] abbrev SameWork (s t : State) : Prop :=
  t.mboxes = s.mboxes ∧ t.sched = s.sched ∧ t.clusters = s.clusters ∧ t.dram = s.dram ∧ t.img = s.img ∧ t.cfg = s.cfg ∧
    t.dsps = s.dsps

@[simp] theorem setCause_sameWork (s : State) (i : Nat) : SameWork s (s.setCause i) := by
  obtain ⟨p, g, h⟩ := setCause_frame s i
  simp [h]

@[simp] theorem lnkErr_sameWork (s : State) (b : BitVec 15) : SameWork s (s.lnkErr b) := by
  obtain ⟨p, g, h⟩ := lnkErr_frame s b
  simp [h]

@[simp] theorem event_sameWork (s : State) (code ctx w : Nat) (log : Bool) (data : List Byte) :
    SameWork s (s.event code ctx w log data) := by
  obtain ⟨l, a, b, p, g, h⟩ := event_frame s code ctx w log data
  simp [h]

@[simp] theorem trace_sameWork (s : State) (r : Fin 10) (cls ty hi : Nat) (data : List Byte) :
    SameWork s (s.trace r cls ty hi data) := by
  obtain ⟨x, h⟩ := trace_frame s r cls ty hi data
  simp [h]

@[simp] theorem count_sameWork (s : State) (i n : Nat) : SameWork s (s.count i n) := by
  simp [State.count]

@[simp] theorem setState_sameWork (s : State) (d : DevState) : SameWork s (s.setState d) := by
  obtain ⟨x, p, g, h⟩ := setState_frame s d
  simp [h]

@[simp] theorem setState_state (s : State) (d : DevState) : (s.setState d).dev.state = d := by
  obtain ⟨x, p, g, h⟩ := setState_frame s d
  rw [h]

@[simp] theorem refresh_sameWork (s : State) : SameWork s s.refresh := by
  obtain ⟨d, x, p, g, h⟩ := refresh_frame s
  simp [h]

/-- A device that runs is RUNNING or DEGRADED after its causes are looked at (R447). -/
theorem refresh_running {s : State} (h : s.dev.state = .running) :
    s.refresh.dev.state = .running ∨ s.refresh.dev.state = .degraded := by
  unfold State.refresh
  by_cases cause : s.degradedCause = true <;> simp [h, cause]

/-- The commands in flight follow from the mailboxes. -/
theorem flights_congr {s t : State} (h : t.mboxes = s.mboxes) (f : Nat → InFlight → Bool) : t.flights f = s.flights f := by
  unfold State.flights
  rw [h]

/-- Nothing waits to be settled where the mailboxes are as before and no waiting run found a table full. -/
theorem noStop_of {s t : State} (h : s.noStop) (mboxes : t.mboxes = s.mboxes)
    (runs : ∀ q ∈ t.sched.runs, q.phase = .waiting → q.full = false) : t.noStop :=
  ⟨(flights_congr mboxes _).trans h.1, runs⟩

theorem settleFull_of_none_full {s : State} (h : ∀ q ∈ s.sched.runs, q.phase = .waiting → q.full = false) (n : Nat) :
    State.settleFull n s = s := by
  cases n with
  | zero => rfl
  | succ n =>
    have none_full : s.sched.runs.find? (fun r => r.full && r.phase = .waiting) = none := by
      simp only [List.find?_eq_none, Bool.and_eq_true, decide_eq_true_eq, not_and]
      intro q hq full waiting
      simp [h q hq waiting] at full
    unfold State.settleFull
    rw [none_full]

theorem settleStop_of_noStop {s : State} (h : s.noStop) : s.settleStop = s := by
  obtain ⟨stop, full⟩ := h
  unfold State.settleStop
  simp [settleFull_of_none_full full, stop]

end Sys2Proof.Proofs
end

section
/-! SUPPORT. The RUN commands (R47 to R50, R425 to R429). -/

namespace Sys2Proof.Proofs
open Sys2Proof.Machine Sys2Proof.Laws

variable {s : State} {m : Fin 8} {ctx : Nat} {p : List Byte}

/-- A command whose reply comes at once, taken. -/
theorem answer_holdsTaken {code : Nat} (h : s.holdsTaken m code ctx p) (f : Taken → State × Reply) :
    s.answer m code f = (f ⟨code, ctx, p⟩).1.reply m (f ⟨code, ctx, p⟩).2 :=
  withTaken_holdsTaken h _

/-- A command that passes its checks. -/
theorem checked_of_none {l : List (Bool × Reply)} (h : l.find? (fun x => x.1) = none) (f : State → State × Reply) :
    s.checked l f = f s := by
  unfold State.checked
  rw [h]

/-! ### RUN_START -/

/-- Where the timetable that runs stays the same, or none ran, no ring is emptied. -/
theorem shareRings_stripes (s : State) (c : Fin 4) :
    s.shareRings.clusters[c] = { s.clusters[c] with stripe := s.shareRings.clusters[c].stripe } := by
  unfold State.shareRings
  split
  · rfl
  · simp

theorem shareRings_frame (s : State) : ∃ k, s.shareRings = { s with clusters := k } := by
  unfold State.shareRings
  split
  · exact ⟨s.clusters, rfl⟩
  · exact ⟨_, rfl⟩

/-- The clusters as RUN_START leaves them. -/
theorem startRunning_clusters (s : State) (t : Timetable) :
    (s.startRunning t).clusters = if s.sched.tt = some t then s.clusters else s.shareRings.clusters := by
  unfold State.startRunning
  by_cases same : s.sched.tt = some t <;> simp [same]

theorem startRunning_clusters_same {t : Timetable} (h : s.sched.tt = none ∨ s.sched.tt = some t) :
    (s.startRunning t).clusters = s.clusters := by
  rw [startRunning_clusters]
  obtain none | same := h
  · simp [State.shareRings, none]
  · rw [if_pos same]

theorem startRunning_stripes (s : State) (t : Timetable) (c : Fin 4) :
    (s.startRunning t).clusters[c] = { s.clusters[c] with stripe := (s.startRunning t).clusters[c].stripe } := by
  rw [startRunning_clusters]
  split
  · rfl
  · exact shareRings_stripes s c

/-- What RUN_START puts in force, and what it leaves. -/
theorem startRunning_spec (s : State) (t : Timetable) :
    let u := s.startRunning t
    u.mboxes = s.mboxes ∧ u.sched.running = true ∧ u.sched.tt = some t ∧ u.sched.staged = none ∧ u.sched.startStamp = s.now ∧
      u.dram = s.dram ∧ u.cfg = s.cfg := by
  obtain ⟨k, h⟩ := shareRings_frame s
  unfold State.startRunning
  by_cases same : s.sched.tt = some t <;> simp [same, h, State.now]

theorem startRunning_state (s : State) (t : Timetable) :
    (s.startRunning t).dev.state = .running ∨ (s.startRunning t).dev.state = .degraded :=
  refresh_running (setState_state _ _)

theorem exec_runStart {tt : Timetable} (taken : s.holdsTaken m 0x0401 ctx p) (committed : s.sched.committed = some tt)
    (ready : s.dev.state = .ready) : exec (.runStart m) s = .next ((s.startRunning tt).reply m (ok [])) := by
  change execRunStart m s = _
  unfold execRunStart
  rw [answer_holdsTaken taken]
  simp only [committed, ready, if_pos]

theorem runStart_answers {tt : Timetable} (taken : s.holdsTaken m 0x0401 ctx p) (committed : s.sched.committed = some tt)
    (ready : s.dev.state = .ready) :
    ∃ t, exec (.runStart m) s = .next t ∧ s.replied t m (ok []) ∧ t.sched.running = true ∧ t.sched.tt = some tt ∧
      t.sched.staged = none ∧ t.sched.startStamp = s.now ∧ (t.dev.state = .running ∨ t.dev.state = .degraded) ∧
      (s.sched.tt = none ∨ s.sched.tt = some tt → t.clusters = s.clusters) ∧
      (∀ c : Fin 4, t.clusters[c] = { s.clusters[c] with stripe := t.clusters[c].stripe }) ∧ t.dram = s.dram ∧ t.cfg = s.cfg := by
  obtain ⟨mboxes, running, inForce, staged, stamp, dram, cfg⟩ := startRunning_spec s tt
  obtain ⟨b, q, g, h⟩ := reply_frame (s.startRunning tt) m (ok [])
  refine ⟨_, exec_runStart taken committed ready, replied_reply s _ mboxes m _, ?_⟩
  rw [h]
  exact ⟨running, inForce, staged, stamp, startRunning_state s tt, startRunning_clusters_same, startRunning_stripes s tt, dram, cfg⟩

/-! ### RUN_STOP -/

/-- A mailbox with no command of a code in flight gets no reply to it. -/
theorem replyFor_of_other {code : Nat} (h : ∀ t, s.mboxes[m].taken = some t → s.mboxes[m].flight ≠ none → t.command ≠ code)
    (r : Reply) : s.replyFor m code r = s := by
  unfold State.replyFor
  split
  · next t x taken flight => exact if_neg (h t taken (by rw [flight]; exact Option.some_ne_none x))
  · rfl

/-- No mailbox has an I3C transfer in flight. -/
def noTransfer (s : State) : Prop := ∀ (k : Fin 8) (t : Taken), s.mboxes[k].taken = some t → s.mboxes[k].flight ≠ none →
  t.command ≠ 0x0501

/-- With no I3C transfer in flight those that wait for a reference end without a reply. -/
theorem i3cUnstamped_of_noTransfer (h : noTransfer s) (n : Fin 2) : ∃ i, s.i3cUnstamped n = { s with img := i } := by
  have none_replied (i : Img) (x : I3cXfer) (r : Reply) : State.replyFor { s with img := i } x.mbox 0x0501 r = { s with img := i } :=
    replyFor_of_other (s := { s with img := i }) (h x.mbox) r
  exact ⟨_, List.foldl_fixed' (fun x => none_replied _ x _) _⟩

/-- A device that runs leaves for another state, whatever waited for a frame reference. -/
theorem leaveRunning_spec (h : noTransfer s) (active : s.active = true) (d : DevState) :
    let u := s.leaveRunning d
    u.mboxes = s.mboxes ∧ u.sched = s.sched ∧ u.dev.state = d ∧ u.clusters = s.clusters ∧ u.dram = s.dram := by
  obtain ⟨mboxes, sched, clusters, dram, -⟩ := setState_sameWork s d
  have h' : noTransfer (s.setState d) := by simpa only [noTransfer, mboxes] using h
  obtain ⟨i, e⟩ := i3cUnstamped_of_noTransfer h' 0
  obtain ⟨j, e'⟩ := i3cUnstamped_of_noTransfer (s := { s.setState d with img := i }) h' 1
  have left : s.leaveRunning d = { s.setState d with img := j } := by rw [State.leaveRunning, if_pos active, e, e']
  intro u
  rw [show u = { s.setState d with img := j } from left]
  exact ⟨mboxes, sched, setState_state s d, clusters, dram⟩

/-- The device once RUN_STOP is taken: no run is made ready, the command is in flight. -/
def stopping (s : State) (m : Fin 8) : State := State.fly { s with sched := { s.sched with running := false } } m 0x0402 [] []

theorem exec_runStop (taken : s.holdsTaken m 0x0402 ctx p) : exec (.runStop m) s = .next (stopping s m).settleStop := by
  change execRunStop m s = _
  unfold execRunStop
  rw [withTaken_holdsTaken taken]
  rfl

theorem stopping_mbox_other {k : Fin 8} (h : k ≠ m) : (stopping s m).mboxes[k] = s.mboxes[k] := vmod_other _ _ _ _ h

theorem stopping_taken (taken : s.holdsTaken m 0x0402 ctx p) : (stopping s m).mboxes[m].taken = some ⟨0x0402, ctx, p⟩ := by
  have same : (stopping s m).mboxes[m].taken = s.mboxes[m].taken := by simp [stopping, State.fly]
  rw [same, taken.1]

theorem stopping_flight : (stopping s m).mboxes[m].flight = some ⟨0x0402, [], []⟩ := by simp [stopping, State.fly]

theorem stopping_noTransfer (taken : s.holdsTaken m 0x0402 ctx p) (others : ∀ k, k ≠ m → s.mboxes[k].flight = none) :
    noTransfer (stopping s m) := by
  intro k t taken' flight
  by_cases hk : k = m
  · subst hk
    rw [stopping_taken taken] at taken'
    cases taken'
    exact of_decide_eq_false rfl
  · rw [stopping_mbox_other hk] at flight
    exact absurd (others k hk) flight

/-- The RUN_STOP just taken is the only one in flight. -/
theorem stopping_flights (taken : s.holdsTaken m 0x0402 ctx p) (others : ∀ k, k ≠ m → s.mboxes[k].flight = none) :
    (stopping s m).flights (fun c _ => c = 0x0402) = [m] := by
  have only : ∀ m : Fin 8, (List.finRange 8).filter (fun k => decide (k = m)) = [m] := by decide
  rw [← only m]
  refine List.filter_congr fun k _ => ?_
  by_cases hk : k = m
  · subst hk
    rw [stopping_taken taken, stopping_flight]
    simp
  · rw [stopping_mbox_other hk, others k hk]
    cases s.mboxes[k].taken <;> simp [hk]

/-- With no run in progress and no task RUN_STOP is answered at once. -/
theorem settleStop_stopping (taken : s.holdsTaken m 0x0402 ctx p) (others : ∀ k, k ≠ m → s.mboxes[k].flight = none)
    (runs : s.sched.runs = []) (tasks : ∀ d : Fin 4, s.dsps[d].tasks = []) :
    (stopping s m).settleStop = ((stopping s m).leaveRunning .ready).reply m (ok []) := by
  have runs' : (stopping s m).sched.runs = [] := runs
  have idle : (stopping s m).dsps.toList.any (fun d => d.tasks.any (fun t => t.cur.isSome && d.cond = 1)) = false := by
    rw [List.any_eq_false]
    intro d hd
    obtain ⟨i, hi, rfl⟩ := List.mem_iff_getElem.1 hd
    have no_task : (stopping s m).dsps.toList[i].tasks = [] := tasks ⟨i, by simpa using hi⟩
    rw [no_task]
    exact Bool.false_ne_true
  unfold State.settleStop
  simp only [runs', List.length_nil, State.settleFull, stopping_flights taken others, idle]
  rfl

theorem runStop_answers (taken : s.holdsTaken m 0x0402 ctx p) (active : s.active = true) (runs : s.sched.runs = [])
    (tasks : ∀ d : Fin 4, s.dsps[d].tasks = []) (others : ∀ k, k ≠ m → s.mboxes[k].flight = none) :
    ∃ t, exec (.runStop m) s = .next t ∧ t.mboxes[m] = (State.reply (s.fly m 0x0402 [] []) m (ok [])).mboxes[m] ∧
      t.sched.running = false ∧ t.dev.state = .ready ∧ t.clusters = s.clusters ∧ t.dram = s.dram := by
  have h := exec_runStop taken
  rw [settleStop_stopping taken others runs tasks] at h
  obtain ⟨mboxes, sched, state, clusters, dram⟩ :=
    leaveRunning_spec (stopping_noTransfer taken others) (show (stopping s m).active = true from active) .ready
  refine ⟨_, h, ?_, ?_⟩
  · rw [reply_mboxes_congr (s := s.fly m 0x0402 [] []) mboxes]
  · obtain ⟨b, q, g, e⟩ := reply_frame ((stopping s m).leaveRunning .ready) m (ok [])
    rw [e]
    exact ⟨by rw [sched]; rfl, state, clusters, dram⟩

/-! ### RUN_STAGE -/

/-- RUN_STAGE names a timetable that passes its checks (R48, R49, R427): `l` its bytes, `owner` its region's. -/
structure LegalRunStage (s : State) (m : Fin 8) (ctx : Nat) (p : List Byte) (l : List Byte) (owner : Nat) : Prop where
  taken : s.holdsTaken m 0x0403 ctx p
  aligned : field p 4 4 % 64 = 0
  region : ∃ q g, s.region? (field p 0 4) = some (q, g) ∧ s.on (clusterReach q) = true ∧ field p 4 4 ≤ g.len
  bytes : s.ttBytes (field p 0 4) (field p 4 4) = some (l, owner)
  checks : s.ttCheck s.cfg.committed l = none
  delays : s.delayChanges (ttOf l owner) = none

/-- The state with a timetable staged now. -/
def withStaged (s : State) (t : Timetable) : State := { s with sched := { s.sched with staged := some (t, s.now) } }

/-- RUN_STAGE's reply: W_STAGE_REPLACED where a timetable was staged. -/
def stageReply (s : State) : Reply := ⟨if s.sched.staged.isSome then 0x4001 else 0, []⟩

theorem stage_eq (s : State) (t : Timetable) : s.stage t = (withStaged s t, s.sched.staged.isSome) := rfl

theorem exec_runStage {l : List Byte} {owner : Nat} (h : LegalRunStage s m ctx p l owner) :
    exec (.runStage m) s = .next ((withStaged s (ttOf l owner)).reply m (stageReply s)) := by
  obtain ⟨q, g, region, on, len⟩ := h.region
  have fits : (s.region? (field p 0 4)).any (fun y => decide (y.2.len < field p 4 4)) = false := by
    rw [region, Option.any_some]
    exact decide_eq_false (Nat.not_lt.2 len)
  change execRunStage m s = _
  unfold execRunStage
  rw [answer_holdsTaken h.taken]
  dsimp only
  rw [checked_of_none (by rw [fits]; simp [h.aligned, region, on]), h.bytes]
  simp only [h.checks, h.delays, stage_eq, stageReply]
  congr

theorem runStage_answers {l : List Byte} {owner : Nat} (h : LegalRunStage s m ctx p l owner) :
    ∃ t, exec (.runStage m) s = .next t ∧ s.replied t m (stageReply s) ∧
      t.sched = { s.sched with staged := some (ttOf l owner, s.now) } ∧
      t = { s with sched := t.sched, mboxes := t.mboxes, glb := t.glb, pcie := t.pcie } := by
  obtain ⟨b, q, g, e⟩ := reply_frame (withStaged s (ttOf l owner)) m (stageReply s)
  have mboxes : (withStaged s (ttOf l owner)).mboxes = s.mboxes := rfl
  refine ⟨_, exec_runStage h, replied_reply s _ mboxes m _, ?_⟩
  rw [e]
  exact ⟨rfl, rfl⟩

/-! ### RUN_RESTORE -/

/-- The entry_ids that a RUN_RESTORE lists. -/
def restoreIds (p : List Byte) : List Nat := ((p.drop 4).take (field p 0 2)).map (·.toNat)

/-- The state with the entries of a list of ids, of no list all, off their alternate points, and with other DSPs. -/
def withRestored (s : State) (ids : List Nat) (d : Vector Dsp 4) : State :=
  { s with
    sched := { s.sched with
      entries := s.sched.entries.map (fun e => if ids = [] ∨ e.id ∈ ids then { e with atAlt := false } else e) },
    dsps := d }

/-- A legal RUN_RESTORE changes, beside DSP tasks and its reply, the entries it names. -/
theorem exec_runRestore (taken : s.holdsTaken m 0x0404 ctx p) (count : field p 0 2 ≤ 256) (reserved : field p 2 2 = 0)
    (degrade : ∀ i ∈ restoreIds p, s.degradeEntry i = true ∨ s.degradeTask i = true) :
    ∃ d, exec (.runRestore m) s = .next ((withRestored s (restoreIds p) d).refresh.reply m (ok [])) := by
  have allKnown : (restoreIds p).zipIdx.find? (fun x => !s.degradeEntry x.1 && !s.degradeTask x.1) = none := by
    rw [List.find?_eq_none]
    intro x hx
    obtain entry | task := degrade x.1 (List.fst_mem_of_mem_zipIdx hx)
    · simp [entry]
    · simp [task]
  have hit (e : EntrySt) : (if (restoreIds p).isEmpty || decide (e.id ∈ restoreIds p) then { e with atAlt := false } else e) =
      if restoreIds p = [] ∨ e.id ∈ restoreIds p then { e with atAlt := false } else e := by
    simp
  change ∃ d, execRunRestore m s = _
  unfold execRunRestore
  rw [answer_holdsTaken taken]
  dsimp only
  rw [show ((p.drop 4).take (field p 0 2)).map (·.toNat) = restoreIds p from rfl,
    checked_of_none (by simp only [allKnown]; simp [reserved, count])]
  simp only [hit]
  exact ⟨_, rfl⟩

theorem runRestore_answers (taken : s.holdsTaken m 0x0404 ctx p) (count : field p 0 2 ≤ 256) (reserved : field p 2 2 = 0)
    (degrade : ∀ i ∈ restoreIds p, s.degradeEntry i = true ∨ s.degradeTask i = true) :
    ∃ t, exec (.runRestore m) s = .next t ∧ s.replied t m (ok []) ∧
      t.sched.entries =
        s.sched.entries.map (fun e => if restoreIds p = [] ∨ e.id ∈ restoreIds p then { e with atAlt := false } else e) ∧
      t.sched.runs = s.sched.runs ∧ t.clusters = s.clusters ∧ t.dram = s.dram := by
  obtain ⟨d, h⟩ := exec_runRestore taken count reserved degrade
  obtain ⟨mboxes, sched, clusters, dram, -⟩ := refresh_sameWork (withRestored s (restoreIds p) d)
  refine ⟨_, h, replied_reply s _ mboxes m _, ?_⟩
  obtain ⟨b, q, g, e⟩ := reply_frame (withRestored s (restoreIds p) d).refresh m (ok [])
  rw [e]
  exact ⟨by rw [sched]; rfl, by rw [sched]; rfl, clusters, dram⟩

/-! ### RUN_INFO -/

theorem runInfo_clusters (taken : s.holdsTaken m 0x0405 ctx p) (all : field p 0 2 = 0xFFFF) (reserved : field p 2 2 = 0) :
    Answers (.runInfo m) s m (ok (zeros 20 ++ s.runInfoTail)) := by
  refine answers_of_reply ?_
  change execRunInfo m s = _
  unfold execRunInfo
  rw [answer_holdsTaken taken]
  simp only [all, reserved, if_pos, if_false, ne_eq, not_true_eq_false]

theorem runInfo_entry {tt : Timetable} {e : Entry} (taken : s.holdsTaken m 0x0405 ctx p) (one : field p 0 2 ≠ 0xFFFF)
    (reserved : field p 2 2 = 0) (committed : s.sched.committed = some tt)
    (found : tt.entries.find? (fun x => x.id = field p 0 2) = some e) :
    Answers (.runInfo m) s m (ok (s.entryInfo e ++ s.runInfoTail)) := by
  refine answers_of_reply ?_
  change execRunInfo m s = _
  unfold execRunInfo
  rw [answer_holdsTaken taken]
  simp only [one, reserved, committed, Option.bind_some, found, if_false, ne_eq, not_true_eq_false]

end Sys2Proof.Proofs
end

section
/-! The obligation of the RUN commands (R425 to R429). -/

namespace Sys2Proof.Proofs
open Sys2Proof.Machine

/-- Settles O25: each command by what it does once taken; the replies by their frame. -/
theorem runCommandsAnswer : Obligations.RunCommandsAnswer := by
  intro s m ctx p
  refine ⟨fun tt => runStart_answers, runStop_answers, ?_, runRestore_answers, runInfo_clusters, fun tt e => runInfo_entry⟩
  intro q g l owner taken aligned region on len bytes checks delays
  exact runStage_answers ⟨taken, aligned, ⟨q, g, region, on, len⟩, bytes, checks, delays⟩

end Sys2Proof.Proofs
end

section
/-! SUPPORT. A tick of a source while no timetable runs (R19 to R24, R301). -/

namespace Sys2Proof.Proofs
open Sys2Proof.Machine Sys2Proof.Laws

/-! ### What a tick does beside counting -/

/-- `t` has the tick sources of `s`, its runs, clusters, mailboxes, SYSTIME, and the generator's next match. -/
@[simp] abbrev SameTicks (s t : State) : Prop :=
  t.sched.src = s.sched.src ∧ t.sched.runs = s.sched.runs ∧ t.sched.running = s.sched.running ∧ t.clusters = s.clusters ∧
    t.mboxes = s.mboxes ∧ t.dev = s.dev ∧ t.img.genNext = s.img.genNext

theorem SameTicks.trans {s t u : State} (st : SameTicks s t) (tu : SameTicks t u) : SameTicks s u := by
  simp_all

theorem foldl_sameTicks {α : Type} {f : State → α → State} (h : ∀ s a, SameTicks s (f s a)) (l : List α) (s : State) :
    SameTicks s (l.foldl f s) :=
  foldl_frame SameTicks (fun _ => by simp) (fun _ _ _ => SameTicks.trans) f h l s

@[simp] theorem budgetTick_sameTicks (s : State) : SameTicks s s.budgetTick := by simp [State.budgetTick]

@[simp] theorem publish_sameTicks (s : State) (base : Nat) (data : List Nat) : SameTicks s (s.publish base data) := by
  simp [State.publish]

@[simp] theorem publishResults_sameTicks (s : State) (k : Fin 16) : SameTicks s (s.publishResults k) := by
  refine foldl_sameTicks (fun s g => ?_) _ s
  dsimp only
  split
  · simp
  · split
    · simp
    · split
      · split <;> simp
      · simp

@[simp] theorem modOvr_sameTicks (s : State) (src : Fin 16) (count : Nat) (f : OvrRec → OvrRec) :
    SameTicks s (s.modOvr src count f) := by simp [State.modOvr]

@[simp] theorem adapterTick_sameTicks (s : State) (k : Fin 16) : SameTicks s (s.adapterTick k) := by simp [State.adapterTick]

@[simp] theorem dspTick_sameTicks (s : State) (k : Fin 16) (count : Nat) : SameTicks s (s.dspTick k count) := by
  unfold State.dspTick
  refine foldl_sameTicks (fun s d => ?_) _ s
  dsimp only
  split
  · simp
  · split <;> simp

/-! ### Counting -/

/-- A source after a tick at `now`: the next count, the stamp, the gap over. -/
def ticked (now : Nat) (x : TickSrc) : TickSrc := { x with next := x.next + 1, last := some now, lost := false }

/-- The state with one source changed. -/
def modSrc (s : State) (k : Fin 16) (f : TickSrc → TickSrc) : State := { s with sched := { s.sched with src := vmod s.sched.src k f } }

theorem modSrc_same (s : State) (k : Fin 16) (f : TickSrc → TickSrc) : (modSrc s k f).sched.src[k] = f s.sched.src[k] :=
  vmod_same _ _ _

theorem modSrc_other (s : State) {k j : Fin 16} (h : j ≠ k) (f : TickSrc → TickSrc) :
    (modSrc s k f).sched.src[j] = s.sched.src[j] := vmod_other _ _ _ _ h

theorem modSrc_sameTicks {s t : State} (h : SameTicks s t) (k : Fin 16) (f : TickSrc → TickSrc) :
    SameTicks (modSrc s k f) (modSrc t k f) := by
  simp_all [modSrc]

/-- A tick of the lowest FRAME source is kept for the transfers that name it (R320). -/
def keepRef (s : State) (k : Fin 16) (kind count : Nat) : State :=
  if kind = 3 ∧ (List.finRange 16).find? (fun j => s.sched.src[j].kind = 3) = some k then
    { s with img := { s.img with refTicks := (count, s.now) :: s.img.refTicks.take 7 } }
  else s

@[simp] theorem keepRef_sameTicks (s : State) (k : Fin 16) (kind count : Nat) : SameTicks s (keepRef s k kind count) := by
  unfold keepRef
  split <;> simp

/-- What follows a tick's counting while no timetable runs: adapters take over, DSP tasks are requested (R204, R387, R426). -/
def tickTasks (s : State) (k : Fin 16) (count : Nat) (info : TickInfo) : State :=
  let u := if info.first && s.fwUp then s.adapterTick k else s
  if (s.flights (fun c _ => c = 0x0402)).isEmpty then u.dspTick k count else u

@[simp] theorem tickTasks_sameTicks (s : State) (k : Fin 16) (count : Nat) (info : TickInfo) :
    SameTicks s (tickTasks s k count info) := by
  unfold tickTasks
  dsimp only
  split <;> split <;> simp

/-- The state once a tick is counted. -/
def tickCounted (s : State) (k : Fin 16) (info : TickInfo) : State :=
  let u := s.budgetTick.publishResults k
  let t := s.sched.src[k]
  keepRef ((modSrc u k (ticked u.now)).trace (tickUnit t) 2 0x10 0
    (leBytes 1 k.val ++ leBytes 1 (b2n info.blank + 2 * b2n info.first + 4 * b2n info.last) ++ leBytes 2 t.next.toNat)) k t.kind t.next.toNat

theorem tickCounted_sameTicks (s : State) (k : Fin 16) (info : TickInfo) :
    SameTicks (modSrc s k (ticked s.now)) (tickCounted s k info) := by
  have before : SameTicks s (s.budgetTick.publishResults k) := by simp
  have now : (s.budgetTick.publishResults k).now = s.now := by simp [State.now]
  refine (modSrc_sameTicks before k (ticked s.now)).trans ?_
  unfold tickCounted
  dsimp only
  rw [now]
  simp

/-- A tick that is not spurious, while no timetable runs. -/
theorem raiseTick_eq {s : State} {k : Fin 16} (kind : s.sched.src[k].kind ≠ 0) (soon : s.tooSoon k = false)
    (running : s.sched.running = false) (info : TickInfo) :
    s.raiseTick k false info = tickTasks (tickCounted s k info) k s.sched.src[k].next.toNat info := by
  have stopped : (tickCounted s k info).sched.running = false := (tickCounted_sameTicks s k info).2.2.1.trans running
  unfold State.raiseTick
  rw [if_neg kind, if_neg (by simp [soon])]
  exact if_pos (by rw [Bool.not_eq_true']; exact stopped)

/-- While no timetable runs a tick that is not spurious counts at its source, and makes nothing ready. -/
theorem raiseTick_sameTicks {s : State} {k : Fin 16} (kind : s.sched.src[k].kind ≠ 0) (soon : s.tooSoon k = false)
    (running : s.sched.running = false) (info : TickInfo) :
    SameTicks (modSrc s k (ticked s.now)) (s.raiseTick k false info) := by
  rw [raiseTick_eq kind soon running]
  exact (tickCounted_sameTicks s k info).trans (tickTasks_sameTicks _ k _ info)

theorem noStop_sameTicks {s t : State} (h : s.noStop) (same : SameTicks s t) : t.noStop := by
  obtain ⟨-, runs, -, -, mboxes, -⟩ := same
  exact noStop_of h mboxes (by rw [runs]; exact h.2)

/-- A tick that is not spurious, while no timetable runs and nothing waits to be settled. -/
theorem raiseTick_settled {s : State} {k : Fin 16} (kind : s.sched.src[k].kind ≠ 0) (soon : s.tooSoon k = false)
    (running : s.sched.running = false) (noStop : s.noStop) (info : TickInfo) :
    (s.raiseTick k false info).settleStop = s.raiseTick k false info :=
  settleStop_of_noStop (noStop_sameTicks (s := modSrc s k (ticked s.now)) noStop (raiseTick_sameTicks kind soon running info))

end Sys2Proof.Proofs
end

section
/-! SUPPORT. CONTROL_TICK, BLANK_TICK, TICK_LOST and the frame references while no timetable runs (R19 to R24, R301 to R303). -/

namespace Sys2Proof.Proofs
open Sys2Proof.Machine Sys2Proof.Laws

variable {s : State} {k : Fin 16}

/-! ### CONTROL and BLANK -/

/-- A CONTROL source whose next tick is the next match of its series. -/
def nextDue (now : Nat) (x : TickSrc) : TickSrc := { x with due := nextMatch now (1000 * x.phaseUs) (1000 * x.periodUs) }

theorem exec_controlTick (running : s.sched.running = false) (noStop : s.noStop) (kind : s.sched.src[k].kind = 4)
    (period : 0 < s.sched.src[k].periodUs) (due : s.sched.src[k].due ≤ s.now) (soon : s.tooSoon k = false) :
    exec (.controlTick k) s =
      .next (modSrc (s.raiseTick k false TickInfo.plain) k (nextDue (s.raiseTick k false TickInfo.plain).now)) := by
  change execControlTick k s = _
  unfold execControlTick
  dsimp only
  rw [if_pos ⟨kind, period, due⟩, raiseTick_settled (by rw [kind]; decide) soon running noStop]
  rfl

theorem controlTick_counts (running : s.sched.running = false) (noStop : s.noStop) (kind : s.sched.src[k].kind = 4)
    (period : 0 < s.sched.src[k].periodUs) (due : s.sched.src[k].due ≤ s.now) (soon : s.tooSoon k = false) :
    ∃ t, exec (.controlTick k) s = .next t ∧ t.sched.src[k].next = s.sched.src[k].next + 1 ∧
      t.sched.src[k].last = some s.now ∧
      t.sched.src[k].due = nextMatch s.now (1000 * s.sched.src[k].phaseUs) (1000 * s.sched.src[k].periodUs) ∧
      (∀ j, j ≠ k → t.sched.src[j] = s.sched.src[j]) ∧ t.sched.runs = s.sched.runs ∧ t.clusters = s.clusters := by
  obtain ⟨src, runs, -, clusters, -, dev, -⟩ :=
    raiseTick_sameTicks (info := TickInfo.plain) (by rw [kind]; decide : s.sched.src[k].kind ≠ 0) soon running
  have now : (s.raiseTick k false TickInfo.plain).now = s.now := by rw [State.now, dev]; rfl
  have h := exec_controlTick running noStop kind period due soon
  rw [now] at h
  have self : (modSrc (s.raiseTick k false TickInfo.plain) k (nextDue s.now)).sched.src[k] =
      nextDue s.now (ticked s.now s.sched.src[k]) := by
    rw [modSrc_same, src, modSrc_same]
  refine ⟨_, h, ?_, ?_, ?_, fun j hj => ?_, runs, clusters⟩
  · rw [self]; rfl
  · rw [self]; rfl
  · rw [self]; rfl
  · rw [modSrc_other _ hj, src, modSrc_other _ hj]

/-- A ROWGROUP source that owes a BLANK tick less (R21). -/
def blanked (x : TickSrc) : TickSrc := { x with blanks := x.blanks - 1, blankNo := x.blankNo + 1 }

/-- Owed BLANK ticks have no part in what makes a tick spurious. -/
theorem tooSoon_blanked : (modSrc s k blanked).tooSoon k = s.tooSoon k := by
  have self : (modSrc s k blanked).sched.src[k] = blanked s.sched.src[k] := modSrc_same s k blanked
  unfold State.tooSoon State.srcIntervalQ
  simp only [self]
  rfl

theorem blanked_kind (kind : s.sched.src[k].kind = 1) : (modSrc s k blanked).sched.src[k].kind ≠ 0 := by
  rw [modSrc_same, show (blanked s.sched.src[k]).kind = 1 from kind]
  exact Nat.one_ne_zero

theorem exec_blankTick (running : s.sched.running = false) (noStop : s.noStop) (kind : s.sched.src[k].kind = 1)
    (owed : 0 < s.sched.src[k].blanks)
    (due : s.sched.src[k].blankAt * 1000 + ((s.sched.src[k].blankNo + 1 : Nat) * s.srcIntervalQ k).floor.toNat ≤ s.now * 1000)
    (soon : s.tooSoon k = false) :
    ∃ info, exec (.blankTick k) s = .next ((modSrc s k blanked).raiseTick k false info) := by
  change ∃ info, execBlankTick k s = _
  unfold execBlankTick
  dsimp only
  rw [if_pos (by simp only [kind, owed, due, decide_true, Bool.and_self])]
  exact ⟨_, congrArg _ (raiseTick_settled (blanked_kind kind) (tooSoon_blanked.trans soon) running noStop _)⟩

theorem blankTick_counts (running : s.sched.running = false) (noStop : s.noStop) (kind : s.sched.src[k].kind = 1)
    (owed : 0 < s.sched.src[k].blanks)
    (due : s.sched.src[k].blankAt * 1000 + ((s.sched.src[k].blankNo + 1 : Nat) * s.srcIntervalQ k).floor.toNat ≤ s.now * 1000)
    (soon : s.tooSoon k = false) :
    ∃ t, exec (.blankTick k) s = .next t ∧ t.sched.src[k].next = s.sched.src[k].next + 1 ∧
      t.sched.src[k].last = some s.now ∧ t.sched.src[k].blanks = s.sched.src[k].blanks - 1 ∧
      t.sched.src[k].blankNo = s.sched.src[k].blankNo + 1 ∧ t.sched.src[k].blankAt = s.sched.src[k].blankAt ∧
      (∀ j, j ≠ k → t.sched.src[j] = s.sched.src[j]) ∧ t.sched.runs = s.sched.runs ∧ t.clusters = s.clusters := by
  obtain ⟨info, h⟩ := exec_blankTick running noStop kind owed due soon
  obtain ⟨src, runs, -, clusters, -⟩ := raiseTick_sameTicks (s := modSrc s k blanked) (k := k) (info := info)
    (blanked_kind kind) (tooSoon_blanked.trans soon) running
  have self : ((modSrc s k blanked).raiseTick k false info).sched.src[k] = ticked s.now (blanked s.sched.src[k]) := by
    rw [src, modSrc_same, modSrc_same]
    rfl
  refine ⟨_, h, ?_, ?_, ?_, ?_, ?_, fun j hj => ?_, runs, clusters⟩
  · rw [self]; rfl
  · rw [self]; rfl
  · rw [self]; rfl
  · rw [self]; rfl
  · rw [self]; rfl
  · rw [src, modSrc_other _ hj, modSrc_other _ hj]

/-! ### TICK_LOST -/

/-- A source whose gap is marked (R23). -/
def gapMarked (x : TickSrc) : TickSrc := { x with lost := true }

theorem leBytes_mod (n v : Nat) : leBytes n (v % 256 ^ n) = leBytes n v := by
  induction n generalizing v with
  | zero => rfl
  | succ n ih =>
    have low : BitVec.ofNat 8 (v % 256 ^ (n + 1)) = BitVec.ofNat 8 v := by
      apply BitVec.eq_of_toNat_eq
      simp only [BitVec.toNat_ofNat]
      exact Nat.mod_mod_of_dvd v (Dvd.intro_left (256 ^ n) rfl)
    have high : v % 256 ^ (n + 1) / 256 = v / 256 % 256 ^ n := by
      rw [pow_succ, mul_comm, Nat.mod_mul_right_div_self]
    simp only [leBytes, low, high, ih]

/-- What TICK_LOST reports: the source and the low word of its last count. -/
def lostData (x : TickSrc) (k : Fin 16) : List Byte := leBytes 1 k.val ++ leBytes 4 (x.next - 1).toNat

theorem exec_tickLost {l : Nat} (kind : s.sched.src[k].kind ≠ 0) (control : s.sched.src[k].kind ≠ 4)
    (lost : s.sched.src[k].lost = false) (last : s.sched.src[k].last = some l)
    (gap : l * 1000 + 4 * s.srcInterval k < s.now * 1000) :
    exec (.tickLost k) s = .next ((modSrc s k gapMarked).event 0x0102 0 0xFF true (lostData s.sched.src[k] k)) := by
  have low (n : Nat) : w32 (n : W32) = leBytes 4 n := by
    rw [← leBytes_mod 4 n]
    rfl
  change execTickLost k s = _
  unfold execTickLost
  dsimp only
  rw [last]
  dsimp only
  rw [if_pos (by simp [-Fin.getElem_fin, kind, control, lost, gap]), low]
  rfl

theorem tickLost_reports {l : Nat} (kind : s.sched.src[k].kind ≠ 0) (control : s.sched.src[k].kind ≠ 4)
    (lost : s.sched.src[k].lost = false) (last : s.sched.src[k].last = some l)
    (gap : l * 1000 + 4 * s.srcInterval k < s.now * 1000) :
    ∃ t, exec (.tickLost k) s = .next t ∧ t.sched.src[k] = { s.sched.src[k] with lost := true } ∧
      (∀ j, j ≠ k → t.sched.src[j] = s.sched.src[j]) ∧ t.sched.runs = s.sched.runs ∧
      s.reports t 0x0102 0 0xFF true (leBytes 1 k.val ++ leBytes 4 (s.sched.src[k].next - 1).toNat) ∧ t.clusters = s.clusters := by
  have apart : (modSrc s k gapMarked).event 0x0102 0 0xFF true (lostData s.sched.src[k] k) =
      withSchedPwr (modSrc s k gapMarked).sched s.pwr (s.event 0x0102 0 0xFF true (lostData s.sched.src[k] k)) :=
    event_withSchedPwr (modSrc s k gapMarked).sched s.pwr s _ _ _ _ _
  have h := exec_tickLost kind control lost last gap
  rw [apart] at h
  obtain ⟨-, -, clusters, -⟩ := event_sameWork s 0x0102 0 0xFF true (lostData s.sched.src[k] k)
  exact ⟨_, h, modSrc_same s k gapMarked, fun j hj => modSrc_other s hj gapMarked, rfl, ⟨rfl, rfl, rfl⟩, clusters⟩

/-! ### Frame references -/

/-- A trigger leaves runs, sources, clusters and the frame reference alone. -/
@[simp] theorem trigger_keeps (s : State) (ref : Nat) (n : Fin 2) :
    let t := s.trigger ref n
    t.sched = s.sched ∧ t.clusters = s.clusters ∧ t.mboxes = s.mboxes ∧ t.img.genNext = s.img.genNext ∧ t.img.ref = s.img.ref ∧
      t.img.refSeen = s.img.refSeen := by
  unfold State.trigger
  dsimp only
  split
  · simp
  · split <;> simp

/-- The state with SYSTIME stamped as the frame reference and other I3C transfers. -/
def withRef (s : State) (ref : W64) (q : Vector (List I3cXfer) 2) : State :=
  { s with img := { s.img with ref := ref, refSeen := true, i3c := q } }

/-- The FRAME sources are one. -/
theorem frameSources_eq (kind : s.sched.src[k].kind = 3) (only : ∀ j, j ≠ k → s.sched.src[j].kind ≠ 3) :
    (List.finRange 16).filter (fun j => s.sched.src[j].kind = 3) = [k] := by
  have one : ∀ k : Fin 16, (List.finRange 16).filter (fun j => decide (j = k)) = [k] := by decide
  rw [← one k]
  refine List.filter_congr fun j _ => ?_
  by_cases hj : j = k
  · rw [hj, kind]
    simp
  · simp [-Fin.getElem_fin, only j hj, hj]

/-- The state once the triggers follow a stamped reference. -/
def triggered (s : State) (ref : W64) (q : Vector (List I3cXfer) 2) (now : Nat) : State :=
  ((withRef s ref q).trigger now 0).trigger now 1

theorem triggered_keeps (s : State) (ref : W64) (q : Vector (List I3cXfer) 2) (now : Nat) :
    let t := triggered s ref q now
    t.sched = s.sched ∧ t.clusters = s.clusters ∧ t.mboxes = s.mboxes ∧ t.img.genNext = s.img.genNext ∧ t.img.ref = ref ∧
      t.img.refSeen = true := by
  simp [triggered, withRef]

/-- A frame reference that is not spurious ticks the FRAME source, is stamped, and starts the triggers (R301, R302). -/
theorem reference_eq (kind : s.sched.src[k].kind = 3) (only : ∀ j, j ≠ k → s.sched.src[j].kind ≠ 3) (soon : s.tooSoon k = false) :
    ∃ q, s.reference =
      (triggered (s.raiseTick k false TickInfo.plain) (s.raiseTick k false TickInfo.plain).dev.systime q s.now).settleStop := by
  unfold State.reference
  rw [frameSources_eq kind only]
  dsimp only [List.head?_cons, List.foldl_cons, List.foldl_nil, Option.map_some, Option.getD_some]
  exact ⟨_, if_neg (by rw [soon]; exact Bool.false_ne_true)⟩

/-- What a frame reference that is not spurious does while no timetable runs. -/
theorem reference_counts (running : s.sched.running = false) (noStop : s.noStop) (kind : s.sched.src[k].kind = 3)
    (only : ∀ j, j ≠ k → s.sched.src[j].kind ≠ 3) (soon : s.tooSoon k = false) :
    let t := s.reference
    t.img.genNext = s.img.genNext ∧ t.img.ref = s.dev.systime ∧ t.img.refSeen = true ∧
      t.sched.src[k].next = s.sched.src[k].next + 1 ∧ t.sched.src[k].last = some s.now ∧ t.sched.runs = s.sched.runs ∧
      t.clusters = s.clusters := by
  have same := raiseTick_sameTicks (info := TickInfo.plain) (by rw [kind]; decide : s.sched.src[k].kind ≠ 0) soon running
  have noStop' := noStop_sameTicks (s := modSrc s k (ticked s.now)) noStop same
  obtain ⟨src, runs, -, clusters, -, dev, genNext⟩ := same
  obtain ⟨q, e⟩ := reference_eq kind only soon
  obtain ⟨sched', clusters', mboxes', genNext', ref, refSeen⟩ :=
    triggered_keeps (s.raiseTick k false TickInfo.plain) (s.raiseTick k false TickInfo.plain).dev.systime q s.now
  rw [settleStop_of_noStop (noStop_of noStop' mboxes' (by rw [sched']; exact noStop'.2))] at e
  have self : s.reference.sched.src[k] = ticked s.now s.sched.src[k] := by rw [e, sched', src, modSrc_same]
  refine ⟨?_, ?_, ?_, congrArg TickSrc.next self, congrArg TickSrc.last self, ?_, ?_⟩
  · rw [e]; exact genNext'.trans genNext
  · rw [e]; exact ref.trans (congrArg Dev.systime dev)
  · rw [e]; exact refSeen
  · rw [e, sched']; exact runs
  · rw [e]; exact clusters'.trans clusters

/-- The state with the generator's next match after now. -/
def genAdvanced (s : State) : State := { s with img := { s.img with genNext := nextMatch s.now s.img.genPhase s.img.genPeriod } }

theorem exec_frameGeneratorMatch (up : s.on 4 = true) (gen : s.img.frameSrc = 2) (due : s.img.genNext ≤ s.now) :
    exec .frameGeneratorMatch s = .next (genAdvanced s).reference := by
  change execFrameGeneratorMatch s = _
  unfold execFrameGeneratorMatch
  rw [if_pos (by simp only [up, gen, due, decide_true, Bool.and_self])]
  rfl

theorem exec_frameRefEdge {rising : Bool} (up : s.on 4 = true) (edge : s.img.frameSrc = (if rising then 0 else 1)) :
    exec (.frameRefEdge rising) s = .next s.reference := by
  change execFrameRefEdge rising s = _
  unfold execFrameRefEdge
  rw [if_pos (by simp only [up, edge, decide_true, Bool.and_self])]

end Sys2Proof.Proofs
end

section
/-! The obligation of tick sources. -/

namespace Sys2Proof.Proofs
open Sys2Proof.Machine

/-- Settles O11: a tick of each kind by what `raiseTick` leaves of the state with the source counted, a frame reference by its one
tick and the triggers. -/
theorem ticksAreCountedAndStamped : Obligations.TicksAreCountedAndStamped := by
  intro s running noStop
  refine ⟨fun k => controlTick_counts running noStop, fun k => blankTick_counts running noStop, fun k l => tickLost_reports,
    fun k kind only soon up => ⟨fun gen due => ?_, fun rising edge => ?_⟩⟩
  · exact ⟨_, exec_frameGeneratorMatch up gen due, reference_counts (s := genAdvanced s) running noStop kind only soon⟩
  · exact ⟨_, exec_frameRefEdge up edge, (reference_counts running noStop kind only soon).2⟩

end Sys2Proof.Proofs
end

section
/-! SUPPORT. Runs seen through a view that keeps their numbers, and the entries kept of them. -/

namespace Sys2Proof.Proofs
open Sys2Proof.Machine Sys2Proof.Laws

/-- The run of a number, where all runs look the same through a view that keeps numbers. -/
theorem run_of_view {s t : State} {view : Run → Run} (rid : ∀ r, (view r).rid = r.rid)
    (h : t.sched.runs.map view = s.sched.runs.map view) {x : Nat} {r : Run} (found : s.run? x = some r) :
    ∃ r', t.run? x = some r' ∧ view r' = view r := by
  have viewed (u : State) : (u.sched.runs.map view).find? (fun r => r.rid = x) = (u.run? x).map view := by
    rw [List.find?_map]
    simp only [Function.comp_def, rid]
    rfl
  have e : (t.run? x).map view = some (view r) := by rw [← viewed, h, viewed, found]; rfl
  exact Option.map_eq_some_iff.1 e

/-- Every run looks like one of before. -/
theorem mem_of_view {s t : State} {view : Run → Run} (h : t.sched.runs.map view = s.sched.runs.map view) {q : Run}
    (hq : q ∈ t.sched.runs) : ∃ q' ∈ s.sched.runs, view q' = view q :=
  List.mem_map.1 (h ▸ List.mem_map_of_mem hq)

/-- Nothing waits to be settled where mailboxes are as before and the runs look the same through a view of their phases and full
tables. -/
theorem noStop_of_view {s t : State} {view : Run → Run} (phase : ∀ r, (view r).phase = r.phase) (full : ∀ r, (view r).full = r.full)
    (h : s.noStop) (mboxes : t.mboxes = s.mboxes) (runs : t.sched.runs.map view = s.sched.runs.map view) : t.noStop := by
  refine noStop_of h mboxes fun q hq waiting => ?_
  obtain ⟨q', hq', same⟩ := mem_of_view runs hq
  rw [← full, ← same, full]
  exact h.2 q' hq' (by rw [← phase, same, phase, waiting])

/-- A change of the runs of a number that a view does not show. -/
theorem modRun_view (s : State) (rid : Nat) {f view : Run → Run} (h : ∀ r, view (f r) = view r) :
    (s.modRun rid f).sched.runs.map view = s.sched.runs.map view := by
  simp only [State.modRun, List.map_map]
  refine List.map_congr_left fun r _ => ?_
  simp only [Function.comp]
  split
  · exact h r
  · rfl

@[simp] theorem modRun_entries (s : State) (rid : Nat) (f : Run → Run) : (s.modRun rid f).sched.entries = s.sched.entries := rfl

@[simp] theorem modEntry_runs (s : State) (id : Nat) (f : EntrySt → EntrySt) : (s.modEntry id f).sched.runs = s.sched.runs := rfl

@[simp] theorem trace_host (s : State) (r : Fin 10) (cls ty hi : Nat) (data : List Byte) :
    (s.trace r cls ty hi data).host = s.host := by
  obtain ⟨x, h⟩ := trace_frame s r cls ty hi data
  rw [h]

@[simp] theorem modOvr_runs (s : State) (src : Fin 16) (count : Nat) (f : OvrRec → OvrRec) :
    (s.modOvr src count f).sched.entries = s.sched.entries ∧ (s.modOvr src count f).mboxes = s.mboxes ∧
      (s.modOvr src count f).dram = s.dram ∧ (s.modOvr src count f).host = s.host := ⟨rfl, rfl, rfl, rfl⟩

end Sys2Proof.Proofs
end

section
/-! SUPPORT. Shares that cores take: what dispatching leaves of the runs (R208, R209, R212). -/

namespace Sys2Proof.Proofs
open Sys2Proof.Machine Sys2Proof.Laws

/-- A share but for the core that holds it and whether it has started. -/
def shareUnplaced (h : Share) : Share := { h with core := none, st := .notStarted }

/-- A run but for its cycles and the places of its shares. -/
def unplaced (r : Run) : Run := { r with cyc4 := 0, since := none, shares := r.shares.map shareUnplaced }

/-- `t` has the mailboxes, package DRAM, host memory and kept entries of `s`, and its runs but for the places of their shares. -/
@[simp] abbrev SameButPlaces (s t : State) : Prop :=
  t.mboxes = s.mboxes ∧ t.dram = s.dram ∧ t.host = s.host ∧ t.sched.entries = s.sched.entries ∧
    t.sched.runs.map unplaced = s.sched.runs.map unplaced

theorem SameButPlaces.trans {s t u : State} (st : SameButPlaces s t) (tu : SameButPlaces t u) : SameButPlaces s u := by
  simp_all

theorem foldl_sameButPlaces {α : Type} {f : State → α → State} (h : ∀ s a, SameButPlaces s (f s a)) (l : List α) (s : State) :
    SameButPlaces s (l.foldl f s) :=
  foldl_frame SameButPlaces (fun _ => by simp) (fun _ _ _ => SameButPlaces.trans) f h l s

/-- `t` has the mailboxes, package DRAM, host memory, runs and entries of `s`: only clusters and tests may differ. -/
@[simp] abbrev SameRuns (s t : State) : Prop := t.sched = s.sched ∧ t.mboxes = s.mboxes ∧ t.dram = s.dram ∧ t.host = s.host

@[simp] theorem spill_sameRuns (s : State) (c : Fin 4) (p : Point) : SameRuns s (s.spill c p) := by
  unfold State.spill
  refine foldl_frame SameRuns (fun _ => ⟨rfl, rfl, rfl, rfl⟩) (fun _ _ _ st tu => by simp_all) _ (fun s a => ?_) _ s
  exact ⟨rfl, rfl, rfl, rfl⟩

@[simp] theorem moveKeep_sameRuns (s : State) (c i old : Fin 4) : SameRuns s (s.moveKeep c i old) := ⟨rfl, rfl, rfl, rfl⟩

@[simp] theorem freshLocal_sameRuns (s : State) (r : Run) (i : Fin 4) : SameRuns s (s.freshLocal r i) := ⟨rfl, rfl, rfl, rfl⟩

/-- A share on core k, running. -/
def placed (k : Fin 4) (h : Share) : Share := { h with core := some k, st := .running }

/-- A run whose share i core k has taken. -/
def takenBy (k i : Fin 4) (q : Run) : Run := { q with shares := sharesMod (placed k) q.shares i }

/-- A core that takes a share changes, beside the cluster and its tests, the run. -/
theorem startShare_eq (s : State) (c k : Fin 4) (r : Run) (i : Fin 4) :
    ∃ u, SameRuns s u ∧ s.startShare c k r i = u.modRun r.rid (takenBy k i) := by
  unfold State.startShare
  refine ⟨_, ?_, rfl⟩
  simp only [SameRuns, modCl_sched, modCl_mboxes, modCl_dram, modCl_host]
  split
  · split
    · split <;> simp
    · simp
  · split
    · split <;> simp
    · simp

theorem takenBy_unplaced (k i : Fin 4) (q : Run) : unplaced (takenBy k i q) = unplaced q := by
  have shares : (sharesMod (placed k) q.shares i).map shareUnplaced = q.shares.map shareUnplaced := by
    unfold sharesMod
    rw [List.map_map]
    refine List.map_congr_left fun h _ => ?_
    simp only [Function.comp]
    split <;> rfl
  unfold unplaced takenBy
  simp only [shares]

theorem startShare_sameButPlaces (s : State) (c k : Fin 4) (r : Run) (i : Fin 4) : SameButPlaces s (s.startShare c k r i) := by
  obtain ⟨u, ⟨sched, mboxes, dram, host⟩, e⟩ := startShare_eq s c k r i
  rw [e]
  exact ⟨mboxes, dram, host, by rw [modRun_entries, sched], by rw [modRun_view u r.rid (takenBy_unplaced k i), sched]⟩

@[simp] theorem recount_sameButPlaces (s : State) (c : Fin 4) : SameButPlaces s (s.recount c) := by
  refine ⟨rfl, rfl, rfl, rfl, ?_⟩
  unfold State.recount
  rw [List.map_map]
  refine List.map_congr_left fun q _ => ?_
  simp only [Function.comp]
  split <;> rfl

/-- Dispatching changes of the runs only the places of their shares. -/
theorem dispatch_sameButPlaces (s : State) (c : Fin 4) : SameButPlaces s (s.dispatch c) := by
  unfold State.dispatch
  split
  · simp
  · refine SameButPlaces.trans (foldl_sameButPlaces (fun s k => ?_) _ s) (recount_sameButPlaces _ c)
    dsimp only
    split
    · simp
    · split
      · exact startShare_sameButPlaces _ _ _ _ _
      · simp

end Sys2Proof.Proofs
end

section
/-! SUPPORT. A run starts, a suspended share resumes, a share retires (R28, R37, R208, R210, R217). -/

namespace Sys2Proof.Proofs
open Sys2Proof.Machine Sys2Proof.Laws

variable {s : State} {rid : Nat} {r : Run}

/-! ### A run starts -/

/-- The four shares of a run at its start. -/
def firstShares (count epoch fresh : Nat) : List Share :=
  (List.finRange 4).map (fun i => freshShare i count (epoch + i.val) (Config.freeNat (fresh + i.val)))

/-- A run at its start. -/
def startedRun (now : Nat) (alt : Bool) (budget : Nat) (shares : List Share) (r : Run) : Run :=
  { r with phase := .running, alt := alt, budget := budget, start := some now, shares := shares }

/-- What a run enters with changes clusters and kept entries only. -/
@[simp] theorem enterPoint_keeps (s : State) (r : Run) (alt : Bool) :
    let t := s.enterPoint r alt
    t.sched.runs = s.sched.runs ∧ t.dram = s.dram ∧ t.host = s.host ∧ t.dev = s.dev ∧ t.epoch = s.epoch ∧ t.fresh = s.fresh := by
  unfold State.enterPoint
  dsimp only
  split <;> split <;> split <;> simp

@[simp] theorem suspendLower_sameRuns (s : State) (c : Fin 4) : SameRuns s (s.suspendLower c) := ⟨rfl, rfl, rfl, rfl⟩

/-- The runs of a state whose run of a number starts. -/
def runsStarted (l : List Run) (rid now : Nat) (alt : Bool) (budget : Nat) (shares : List Share) : List Run :=
  l.map (fun q => if q.rid = rid then startedRun now alt budget shares q else q)

/-- A run that starts is RUNNING with four shares of its own; then its cluster's cores take shares. -/
theorem startRun_eq (s : State) (r : Run) :
    ∃ (u : State) (alt : Bool) (budget : Nat), s.startRun r = u.dispatch r.entry.cluster ∧
      u.sched.runs = runsStarted s.sched.runs r.rid s.now alt budget (firstShares r.count s.epoch s.fresh) ∧
      u.dram = s.dram ∧ u.host = s.host := by
  refine ⟨_, s.runAlt r, s.budgetOf r.entry s.clusters[r.entry.cluster].healthy (s.runAlt r), rfl, ?_⟩
  split <;> split <;> simp [State.modRun, State.now, runsStarted, startedRun, firstShares]

/-- A share as the start of a run leaves it (R217), wherever it is placed. -/
structure AtStart (count : Nat) (h : Share) : Prop where
  pc : h.pc = 0
  ended : h.ended = false
  ops : h.ops = []
  index : h.regs[1] = BitVec.ofNat 32 h.idx.val
  tick : h.regs[2] = BitVec.ofNat 32 count
  zero : ∀ q : Fin 16, q ≠ 1 → q ≠ 2 → h.regs[q] = 0

theorem freshShare_atStart (i : Fin 4) (count epoch mask : Nat) : AtStart count (freshShare i count epoch mask) := by
  refine ⟨rfl, rfl, rfl, by simp [freshShare], by simp [freshShare], fun q h1 h2 => ?_⟩
  have one : (1 : Nat) ≠ q.val := fun e => h1 (Fin.ext e.symm)
  have two : (2 : Nat) ≠ q.val := fun e => h2 (Fin.ext e.symm)
  simp [freshShare, one, two]

/-- Where a share stands has no part in how its program starts. -/
theorem atStart_of_unplaced {count : Nat} {g h : Share} (same : shareUnplaced g = shareUnplaced h) (start : AtStart count g) :
    AtStart count h := by
  obtain ⟨pc, ended, ops, index, tick, zero⟩ := start
  have idx : g.idx = h.idx := (congrArg Share.idx same :)
  have regs : g.regs = h.regs := (congrArg Share.regs same :)
  refine ⟨(congrArg Share.pc same).symm.trans pc, (congrArg Share.ended same).symm.trans ended,
    (congrArg Share.ops same).symm.trans ops, ?_, ?_, ?_⟩
  · rw [← regs, ← idx, index]
  · rw [← regs, tick]
  · rw [← regs]; exact zero

/-- Shares that are a run's first ones but for their places. -/
theorem shares_of_firstShares {l : List Share} {count epoch fresh : Nat}
    (same : l.map shareUnplaced = (firstShares count epoch fresh).map shareUnplaced) :
    l.map (·.idx) = List.finRange 4 ∧ ∀ h ∈ l, AtStart count h := by
  have idx (l : List Share) : (l.map shareUnplaced).map (·.idx) = l.map (·.idx) := by rw [List.map_map]; rfl
  refine ⟨?_, fun h hh => ?_⟩
  · rw [← idx, same, idx, firstShares, List.map_map]
    rfl
  · obtain ⟨g, hg, e⟩ := List.mem_map.1 (same ▸ List.mem_map_of_mem (f := shareUnplaced) hh)
    obtain ⟨i, -, rfl⟩ := List.mem_map.1 hg
    exact atStart_of_unplaced e (freshShare_atStart i count _ _)

theorem exec_entryRunStart (found : s.run? rid = some r) (waiting : r.phase = .waiting) (waits : r.waitsLeft = []) (pf : r.pf = [])
    (pfBad : r.pfBad = false) (up : s.clusterUp r.entry.cluster = true) (healthy : 3 ≤ s.clusters[r.entry.cluster].healthy) :
    exec (.entryRunStart rid) s = .next (s.startRun r) := by
  change execEntryRunStart rid s = _
  unfold execEntryRunStart
  rw [found]
  dsimp only
  rw [if_pos (by simp [-Fin.getElem_fin, waiting, waits, pf, pfBad, up, healthy])]

theorem entryRunStart_starts (found : s.run? rid = some r) (waiting : r.phase = .waiting) (waits : r.waitsLeft = []) (pf : r.pf = [])
    (pfBad : r.pfBad = false) (up : s.clusterUp r.entry.cluster = true) (healthy : 3 ≤ s.clusters[r.entry.cluster].healthy) :
    ∃ t r', exec (.entryRunStart rid) s = .next t ∧ t.run? rid = some r' ∧ r'.phase = .running ∧ r'.start = some s.now ∧
      r'.shares.map (·.idx) = List.finRange 4 ∧
      (∀ h ∈ r'.shares, h.pc = 0 ∧ h.ended = false ∧ h.ops = [] ∧ h.regs[1] = BitVec.ofNat 32 h.idx.val ∧
        h.regs[2] = BitVec.ofNat 32 r.count ∧ ∀ q : Fin 16, q ≠ 1 → q ≠ 2 → h.regs[q] = 0) ∧
      t.dram = s.dram ∧ t.host = s.host := by
  obtain ⟨u, alt, budget, e, runs, dram, host⟩ := startRun_eq s r
  have started : u.run? rid = some (startedRun s.now alt budget (firstShares r.count s.epoch s.fresh) r) := by
    have number := run_rid found
    have h := find_runs s.sched.runs r.rid rid (startedRun s.now alt budget (firstShares r.count s.epoch s.fresh)) (fun _ => rfl)
    unfold State.run? at found
    rw [found] at h
    unfold State.run?
    rw [runs, runsStarted, h, Option.map_some, if_pos rfl]
  obtain ⟨-, dram', host', -, view⟩ := dispatch_sameButPlaces u r.entry.cluster
  obtain ⟨r', found', same⟩ := run_of_view (view := unplaced) (fun _ => rfl) view started
  obtain ⟨idx, start⟩ := shares_of_firstShares (congrArg Run.shares same)
  refine ⟨_, r', exec_entryRunStart found waiting waits pf pfBad up healthy, by rw [e]; exact found',
    (congrArg Run.phase same :), (congrArg Run.start same :), idx, fun h hh => ?_, by rw [e, dram', dram], by rw [e, host', host]⟩
  obtain ⟨pc, ended, ops, index, tick, zero⟩ := start h hh
  exact ⟨pc, ended, ops, index, tick, zero⟩

/-! ### A suspended share resumes -/

/-- An idle core that takes a suspended share next. -/
structure TakesBack (s : State) (c k : Fin 4) (rid : Nat) (i : Fin 4) : Prop where
  usable : s.clusters[c].cores[k].usable = true
  idle : s.clusters[c].cores[k].cur = none
  next : ∃ x, s.nextShare c k = some (x, i, true) ∧ x.rid = rid

/-- A core that holds a share again, and no more keeps it suspended. -/
def heldAgain (s : State) (c k : Fin 4) (rid : Nat) (i : Fin 4) : Prop :=
  s.clusters[c].cores[k].cur = some (rid, i) ∧ (rid, i) ∉ s.clusters[c].cores[k].susp

/-- SUSPENDED_RUN_RESUME at one core. -/
def resumeAt (c : Fin 4) (rid : Nat) (s : State) (k : Fin 4) : State :=
  if !s.clusters[c].cores[k].usable || s.clusters[c].cores[k].cur.isSome then s
  else
    match s.nextShare c k with
    | some (x, i, true) => if x.rid = rid then s.resumeShare c k (rid, i) else s
    | _ => s

/-- A core resumes a share of the run, or nothing happens. -/
theorem resumeAt_eq (c : Fin 4) (rid : Nat) (s : State) (k : Fin 4) :
    resumeAt c rid s k = s ∨ s.clusters[c].cores[k].cur = none ∧ ∃ i, resumeAt c rid s k = s.resumeShare c k (rid, i) := by
  unfold resumeAt
  split
  · exact .inl rfl
  · next free =>
    split
    · split
      · refine .inr ⟨?_, _, rfl⟩
        simp at free
        exact free.2
      · exact .inl rfl
    · exact .inl rfl

section
variable {c k j : Fin 4} {x : Nat × Fin 4}

theorem resumeShare_core (s : State) (c k : Fin 4) (x : Nat × Fin 4) :
    (s.resumeShare c k x).clusters[c].cores[k] =
      { s.clusters[c].cores[k] with cur := some x, susp := s.clusters[c].cores[k].susp.filter (fun z => z ≠ x) } := by
  simp [State.resumeShare]

theorem resumeShare_core_other (h : k ≠ j) : (s.resumeShare c j x).clusters[c].cores[k] = s.clusters[c].cores[k] := by
  have other := vmod_other s.clusters[c].cores j k
    (fun y => { y with cur := some x, susp := y.susp.filter (fun z => z ≠ x) }) h
  simpa [State.resumeShare] using other

theorem resumeShare_usable (s : State) (c j i : Fin 4) (x : Nat × Fin 4) :
    (s.resumeShare c j x).clusters[c].cores[i].usable = s.clusters[c].cores[i].usable := by
  by_cases h : i = j
  · rw [h, resumeShare_core]
    rfl
  · rw [resumeShare_core_other h]

theorem resumeShare_home (s : State) (c j i : Fin 4) (x : Nat × Fin 4) :
    (s.resumeShare c j x).clusters[c].home i = s.clusters[c].home i := by
  unfold Cluster.home
  simp only [resumeShare_usable]

theorem resumeShare_ranFirst (s : State) (c j : Fin 4) (x : Nat × Fin 4) :
    (s.resumeShare c j x).clusters[c].ranFirst = s.clusters[c].ranFirst := by
  simp [State.resumeShare]

/-- What a core takes next does not depend on a share that another one resumes. -/
theorem resumeShare_nextShare (h : k ≠ j) : (s.resumeShare c j x).nextShare c k = s.nextShare c k := by
  have waiting : (s.resumeShare c j x).waitingFor c k = s.waitingFor c k := by
    unfold State.waitingFor
    dsimp only
    rw [resumeShare_core_other h]
    simp only [resumeShare_home]
    rfl
  unfold State.nextShare
  rw [waiting, resumeShare_ranFirst]

variable {i : Fin 4}

theorem resumeAt_takesBack (ready : TakesBack s c k rid i) : heldAgain (resumeAt c rid s k) c k rid i := by
  obtain ⟨usable, idle, x, next, number⟩ := ready
  have e : resumeAt c rid s k = s.resumeShare c k (rid, i) := by
    unfold resumeAt
    rw [usable, idle, next]
    exact if_pos number
  unfold heldAgain
  rw [e, resumeShare_core]
  exact ⟨rfl, by simp⟩

theorem resumeAt_other_takesBack (h : k ≠ j) (ready : TakesBack s c k rid i) : TakesBack (resumeAt c rid s j) c k rid i := by
  obtain ⟨usable, idle, next⟩ := ready
  obtain e | ⟨-, i', e⟩ := resumeAt_eq c rid s j
  · rw [e]
    exact ⟨usable, idle, next⟩
  · rw [e]
    exact ⟨by rw [resumeShare_usable]; exact usable, by rw [resumeShare_core_other h]; exact idle,
      by rw [resumeShare_nextShare h]; exact next⟩

/-- A core that holds a share keeps it. -/
theorem resumeAt_heldAgain (held : heldAgain s c k rid i) (j : Fin 4) : heldAgain (resumeAt c rid s j) c k rid i := by
  obtain e | ⟨idle, i', e⟩ := resumeAt_eq c rid s j
  · rw [e]
    exact held
  · have h : k ≠ j := by
      rintro rfl
      exact absurd (held.1.symm.trans idle) (Option.some_ne_none _)
    unfold heldAgain
    rw [e, resumeShare_core_other h]
    exact held

/-- Whichever cores come before and after it, the core takes the share back. -/
theorem foldl_resumeAt_heldAgain {l : List (Fin 4)} (mem : k ∈ l) (ready : TakesBack s c k rid i) :
    heldAgain (l.foldl (resumeAt c rid) s) c k rid i := by
  induction l generalizing s with
  | nil => cases mem
  | cons j l ih =>
    by_cases h : k = j
    · subst h
      exact List.foldlRecOn l (resumeAt c rid) (motive := fun s => heldAgain s c k rid i) (resumeAt_takesBack ready)
        (fun s held j _ => resumeAt_heldAgain held j)
    · exact ih ((List.mem_cons.1 mem).resolve_left h) (resumeAt_other_takesBack h ready)

theorem foldl_resumeAt_dram (l : List (Fin 4)) (s : State) : (l.foldl (resumeAt c rid) s).dram = s.dram :=
  foldl_frame (fun s t : State => t.dram = s.dram) (fun _ => rfl) (fun _ _ _ st tu => tu.trans st) _
    (fun s j => by
      obtain e | ⟨-, i', e⟩ := resumeAt_eq c rid s j
      · rw [e]
      · rw [e]; rfl) l s

end

theorem exec_suspendedRunResume (found : s.run? rid = some r) (up : s.clusterUp r.entry.cluster = true)
    (noTick : ∀ q ∈ s.sched.runs, q.entry.cluster = r.entry.cluster → q.entry.cls = 0 → q.phase ≠ .waiting) :
    exec (.suspendedRunResume rid) s =
      .next (((List.finRange 4).foldl (resumeAt r.entry.cluster rid) s).recount r.entry.cluster) := by
  have none_waits : s.sched.runs.any (fun x => x.entry.cluster = r.entry.cluster && x.entry.cls = 0 && x.phase = .waiting) = false := by
    rw [List.any_eq_false]
    intro q hq
    have := noTick q hq
    simpa using this
  change execSuspendedRunResume rid s = _
  unfold execSuspendedRunResume
  rw [found]
  dsimp only
  rw [if_neg (by rw [up, none_waits]; exact Bool.false_ne_true)]
  rfl

theorem suspendedRunResume_resumes {k i : Fin 4} {x : Run} (found : s.run? rid = some r) (up : s.clusterUp r.entry.cluster = true)
    (usable : s.clusters[r.entry.cluster].cores[k].usable = true) (idle : s.clusters[r.entry.cluster].cores[k].cur = none)
    (next : s.nextShare r.entry.cluster k = some (x, i, true)) (number : x.rid = rid)
    (noTick : ∀ q ∈ s.sched.runs, q.entry.cluster = r.entry.cluster → q.entry.cls = 0 → q.phase ≠ .waiting) :
    ∃ t, exec (.suspendedRunResume rid) s = .next t ∧ t.holds ⟨r.entry.cluster, k⟩ = some (rid, i) ∧
      (rid, i) ∉ t.clusters[r.entry.cluster].cores[k].susp ∧ t.dram = s.dram := by
  have again := foldl_resumeAt_heldAgain (List.mem_finRange k) ⟨usable, idle, x, next, number⟩
  have dram := foldl_resumeAt_dram (c := r.entry.cluster) (rid := rid) (List.finRange 4) s
  have h := exec_suspendedRunResume found up noTick
  generalize (List.finRange 4).foldl (resumeAt r.entry.cluster rid) s = u at h again dram
  exact ⟨_, h, again.1, again.2, dram⟩

/-! ### A share retires -/

/-- In the runs of a number the shares of an index have retired. -/
def retiredIn (s : State) (rid : Nat) (i : Fin 4) : Prop :=
  ∀ q ∈ s.sched.runs, q.rid = rid → ∀ g ∈ q.shares, g.idx = i → g.st = .retired

/-- The share a core takes next waits for it. -/
theorem mem_waitingFor_of_nextShare {c k : Fin 4} {x : Run × Fin 4 × Bool} (h : s.nextShare c k = some x) : x ∈ s.waitingFor c k := by
  have pick (l : List (Run × Fin 4 × Bool)) (a : Option (Run × Fin 4 × Bool)) (e : l.foldl
      (fun (a : Option (Run × Fin 4 × Bool)) x =>
        match a with
        | none => some x
        | some y => if shareKey s.clusters[c].ranFirst x.1 x.2.1 < shareKey s.clusters[c].ranFirst y.1 y.2.1 then some x else some y)
      a = some x) : a = some x ∨ x ∈ l := by
    induction l generalizing a with
    | nil => exact .inl e
    | cons y l ih =>
      obtain h | h := ih _ e
      · dsimp only at h
        split at h
        · exact .inr (by simp_all)
        · split at h
          · exact .inr (by simp_all)
          · exact .inl h
      · exact .inr (List.mem_cons_of_mem y h)
  exact (pick _ _ h).resolve_left (by simp)

/-- A share that a core may start belongs to a run and has not started. -/
theorem notStarted_of_waitingFor {c k i : Fin 4} {x : Run} (h : (x, i, false) ∈ s.waitingFor c k) :
    x ∈ s.sched.runs ∧ ∃ g ∈ x.shares, g.idx = i ∧ g.st = .notStarted := by
  unfold State.waitingFor at h
  obtain ⟨q, hq, hx⟩ := List.mem_flatMap.1 h
  obtain ⟨g, hg, e⟩ := List.mem_filterMap.1 hx
  split at e
  · simp at e
  · split at e
    · next fresh =>
      simp only [Option.some.injEq, Prod.mk.injEq] at e
      obtain ⟨rfl, rfl, -⟩ := e
      simp only [Bool.and_eq_true, decide_eq_true_eq] at fresh
      exact ⟨List.mem_of_mem_filter hq, g, hg, rfl, fresh.1.1.1⟩
    · cases e

/-- A core that takes a share which has not started leaves those that have retired. -/
theorem startShare_retiredIn {c k i j : Fin 4} {x : Run} (retired : retiredIn s rid i) (mem : x ∈ s.sched.runs)
    (fresh : ∃ g ∈ x.shares, g.idx = j ∧ g.st = .notStarted) : retiredIn (s.startShare c k x j) rid i := by
  obtain ⟨u, ⟨sched, -⟩, e⟩ := startShare_eq s c k x j
  intro q hq number g hg idx
  rw [e, State.modRun, sched] at hq
  obtain ⟨p, hp, rfl⟩ := List.mem_map.1 hq
  split at hg
  · next same =>
    rw [if_pos same] at number
    obtain ⟨f, hf, rfl⟩ := List.mem_map.1 hg
    split
    · next at_j =>
      exfalso
      rw [if_pos at_j] at idx
      obtain ⟨g0, hg0, idx0, st0⟩ := fresh
      have := retired x mem (same.symm.trans number) g0 hg0 (idx0.trans (at_j.symm.trans idx))
      rw [st0] at this
      cases this
    · next other =>
      rw [if_neg other] at idx
      exact retired p hp number f hf idx
  · next other =>
    rw [if_neg other] at number
    exact retired p hp number g hg idx

theorem recount_retiredIn {i : Fin 4} (retired : retiredIn s rid i) (c : Fin 4) : retiredIn (s.recount c) rid i := by
  intro q hq number g hg idx
  obtain ⟨p, hp, rfl⟩ := List.mem_map.1 hq
  split at hg
  · next running =>
    rw [if_pos running] at number
    exact retired p hp number g hg idx
  · next other =>
    rw [if_neg other] at number
    exact retired p hp number g hg idx

theorem dispatch_retiredIn {i : Fin 4} (retired : retiredIn s rid i) (c : Fin 4) : retiredIn (s.dispatch c) rid i := by
  unfold State.dispatch
  split
  · exact retired
  · refine recount_retiredIn (List.foldlRecOn _ _ (motive := fun s => retiredIn s rid i) retired fun s retired k _ => ?_) c
    dsimp only
    split
    · exact retired
    · split
      · next next =>
        obtain ⟨mem, fresh⟩ := notStarted_of_waitingFor (mem_waitingFor_of_nextShare next)
        exact startShare_retiredIn retired mem fresh
      · exact retired

/-- A share that has retired. -/
def retire (h : Share) : Share := { h with st := .retired }

/-- A run whose share of an index has retired. -/
def shareRetired (i : Fin 4) (q : Run) : Run := { q with shares := sharesMod retire q.shares i }

theorem shareRetired_unplaced (i : Fin 4) (q : Run) : unplaced (shareRetired i q) = unplaced q := by
  have shares : (sharesMod retire q.shares i).map shareUnplaced = q.shares.map shareUnplaced := by
    unfold sharesMod
    rw [List.map_map]
    refine List.map_congr_left fun h _ => ?_
    simp only [Function.comp]
    split <;> rfl
  unfold unplaced shareRetired
  simp only [shares]

/-- The state with the share on a core retired and the core free. -/
def retiring (s : State) (co : CoreId) : State :=
  (s.modShare co retire).modCl co.c (fun x => { x with cores := vmod x.cores co.k (fun k => { k with cur := none }) })

section
variable {co : CoreId} {h : Share}

theorem retiring_sched (on : s.shareOn co = some (r, h)) :
    (retiring s co).sched = (s.modRun r.rid (shareRetired h.idx)).sched := by
  have held := (shareOn_some on).1
  unfold State.holds at held
  unfold retiring State.modShare
  rw [held]
  rfl

theorem retiring_mboxes (s : State) (co : CoreId) : (retiring s co).mboxes = s.mboxes := by
  rw [retiring, modCl_mboxes, modShare_frame]

theorem retiring_run (on : s.shareOn co = some (r, h)) : (retiring s co).run? r.rid = some (shareRetired h.idx r) := by
  have e := run_modRun s r.rid r.rid (shareRetired h.idx) (fun _ => rfl)
  rw [(shareOn_some on).2.1, Option.map_some, if_pos rfl] at e
  rw [← e]
  unfold State.run?
  rw [retiring_sched on]

theorem retiring_retiredIn (on : s.shareOn co = some (r, h)) : retiredIn (retiring s co) r.rid h.idx := by
  intro q hq number g hg idx
  rw [retiring_sched on] at hq
  obtain ⟨p, -, rfl⟩ := List.mem_map.1 hq
  have same : p.rid = r.rid := by
    by_contra other
    rw [if_neg other] at number
    exact other number
  rw [if_pos same] at hg
  obtain ⟨f, -, rfl⟩ := List.mem_map.1 hg
  split
  · rfl
  · next other =>
    rw [if_neg other] at idx
    exact absurd idx other

/-- While another share of its run has not retired the run goes on. -/
theorem settleRun_retiring (on : s.shareOn co = some (r, h)) (other : ∃ g ∈ r.shares, g.idx ≠ h.idx ∧ g.st ≠ .retired) :
    (retiring s co).settleRun r.rid = retiring s co := by
  obtain ⟨g, hg, idx, st⟩ := other
  have unfinished : (shareRetired h.idx r).shares.all (fun h => h.st = .retired) = false := by
    rw [List.all_eq_false]
    refine ⟨g, List.mem_map.2 ⟨g, hg, if_neg idx⟩, ?_⟩
    simpa using st
  unfold State.settleRun
  rw [retiring_run on]
  dsimp only
  rw [if_neg (by rw [unfinished, Bool.and_false]; exact Bool.false_ne_true)]

theorem startDueTests_sameRuns (s : State) (c : Fin 4) : SameRuns s (s.startDueTests c) := by
  unfold State.startDueTests
  refine foldl_frame SameRuns (fun _ => ⟨rfl, rfl, rfl, rfl⟩) (fun _ _ _ st tu => by simp_all) _ (fun s t => ?_) _ s
  split
  · split <;> exact ⟨rfl, rfl, rfl, rfl⟩
  · exact ⟨rfl, rfl, rfl, rfl⟩

/-- The state once the cores of the cluster have taken shares and due tests have started. -/
def afterRetiring (s : State) (co : CoreId) : State := ((retiring s co).dispatch co.c).startDueTests co.c

theorem exec_shareRetire (on : s.shareOn co = some (r, h)) (ended : h.ended = true) (ops : h.ops = []) (barges : h.barges = [])
    (up : s.clusterUp co.c = true) (other : ∃ g ∈ r.shares, g.idx ≠ h.idx ∧ g.st ≠ .retired) :
    exec (.shareRetire co) s = .next (afterRetiring s co).settleStop := by
  change execShareRetire co s = _
  unfold execShareRetire
  rw [on]
  dsimp only
  rw [if_pos (by rw [ended, ops, barges, up]; rfl)]
  exact congrArg (fun u : State => Host.Outcome.next ((u.dispatch co.c).startDueTests co.c).settleStop) (settleRun_retiring on other)

/-- What a retirement leaves of the runs. -/
theorem afterRetiring_view (on : s.shareOn co = some (r, h)) :
    (afterRetiring s co).mboxes = s.mboxes ∧ (afterRetiring s co).sched.runs.map unplaced = s.sched.runs.map unplaced := by
  obtain ⟨sched, mboxes, -, -⟩ := startDueTests_sameRuns ((retiring s co).dispatch co.c) co.c
  obtain ⟨mboxes', -, -, -, view⟩ := dispatch_sameButPlaces (retiring s co) co.c
  unfold afterRetiring
  rw [mboxes, mboxes', retiring_mboxes, sched, view, retiring_sched on]
  exact ⟨rfl, modRun_view s r.rid (shareRetired_unplaced h.idx)⟩

theorem afterRetiring_retiredIn (on : s.shareOn co = some (r, h)) : retiredIn (afterRetiring s co) r.rid h.idx := by
  obtain ⟨sched, -⟩ := startDueTests_sameRuns ((retiring s co).dispatch co.c) co.c
  have retired := dispatch_retiredIn (retiring_retiredIn on) co.c
  unfold retiredIn afterRetiring
  rw [sched]
  exact retired

/-- The share of an index, where shares look the same but for their places. -/
theorem find_share_of_unplaced {q q' : Run} (same : unplaced q' = unplaced q) {i : Fin 4} {h : Share}
    (found : q.shares.find? (fun x => x.idx = i) = some h) : ∃ h', q'.shares.find? (fun x => x.idx = i) = some h' := by
  have shares : q'.shares.map shareUnplaced = q.shares.map shareUnplaced := (congrArg Run.shares same :)
  have viewed (l : List Share) : (l.map shareUnplaced).find? (fun x => x.idx = i) = (l.find? (fun x => x.idx = i)).map shareUnplaced :=
    List.find?_map
  have e : (q'.shares.find? (fun x => x.idx = i)).map shareUnplaced = some (shareUnplaced h) := by
    rw [← viewed, shares, viewed, found]
    rfl
  obtain ⟨h', found', -⟩ := Option.map_eq_some_iff.1 e
  exact ⟨h', found'⟩

theorem shareRetire_retires (on : s.shareOn co = some (r, h)) (ended : h.ended = true) (ops : h.ops = []) (barges : h.barges = [])
    (up : s.clusterUp co.c = true) (other : ∃ g ∈ r.shares, g.idx ≠ h.idx ∧ g.st ≠ .retired) (noStop : s.noStop) :
    ∃ t r' h', exec (.shareRetire co) s = .next t ∧ t.run? r.rid = some r' ∧
      r'.shares.find? (fun g => g.idx = h.idx) = some h' ∧ h'.st = .retired := by
  obtain ⟨-, found, foundShare⟩ := shareOn_some on
  obtain ⟨mboxes, view⟩ := afterRetiring_view on
  have settled := settleStop_of_noStop (noStop_of_view (view := unplaced) (fun _ => rfl) (fun _ => rfl) noStop mboxes view)
  obtain ⟨r', found', same⟩ := run_of_view (view := unplaced) (fun _ => rfl) view found
  obtain ⟨h', foundShare'⟩ := find_share_of_unplaced same foundShare
  refine ⟨_, r', h', exec_shareRetire on ended ops barges up other, by rw [settled]; exact found', foundShare', ?_⟩
  have idx := List.find?_some foundShare'
  exact afterRetiring_retiredIn on r' (List.mem_of_find?_eq_some found') (run_rid found') h' (List.mem_of_find?_eq_some foundShare')
    (of_decide_eq_true idx)

end

end Sys2Proof.Proofs
end

section
/-! The obligation of runs that start, resume and retire. -/

namespace Sys2Proof.Proofs
open Sys2Proof.Machine

/-- Settles O12: a start by the run's first shares and what dispatching leaves of them, a resumption by a walk over the cores, a
retirement by what no core undoes. -/
theorem runsStartAndResume : Obligations.RunsStartAndResume := by
  refine ⟨fun s rid r => entryRunStart_starts, fun s rid r k x i found up usable idle next number noTick => ?_,
    fun s co r h on ended ops barges up other _ _ noStop => ?_⟩
  · exact suspendedRunResume_resumes found up usable idle next number noTick
  · exact shareRetire_retires on ended ops barges up other noStop

end Sys2Proof.Proofs
end

section
/-! SUPPORT. What waits that end, raises and prefetch lists leave of the runs and of memory (R27, R228, R238 to R246). -/

namespace Sys2Proof.Proofs
open Sys2Proof.Machine Sys2Proof.Laws

/-! ### Operations that change neither runs nor clusters -/

@[simp] theorem waitEnded_sameWork (s : State) (w : Waiter) (result : Nat) : SameWork s (s.waitEnded w result) := by
  unfold State.waitEnded
  split
  · simp
  · dsimp only
    split
    · simp
    · split <;> simp

@[simp] theorem output_sameWork (s : State) (p : Fin 4) (prio1 : Bool) (f : ZFrame) : SameWork s (s.output p prio1 f) := by
  unfold State.output
  split <;> simp

@[simp] theorem routeFrame_sameWork (s : State) (prio1 : Bool) (f : ZFrame) : SameWork s (s.routeFrame prio1 f) := by
  unfold State.routeFrame
  dsimp only
  split <;> simp

@[simp] theorem sendFrame_sameWork (s : State) (ty dst : Nat) (prio1 : Bool) (id seq part : Nat) (payload : List Byte) :
    SameWork s (s.sendFrame ty dst prio1 id seq part payload) := by
  unfold State.sendFrame
  split <;> simp

@[simp] theorem bargeRefused_sameWork (s : State) (ctx : Nat) (c : Fin 4) (code : Nat) (tag : W32) (data : List Byte) :
    SameWork s (s.bargeRefused ctx c code tag data) := by
  simp [State.bargeRefused]

@[simp] theorem offNote_sameWork (s : State) (d : BDesc) (f : Nat) : SameWork s (s.offNote d f) := by
  unfold State.offNote State.offAccess
  split
  · split
    · split <;> simp
    · simp
  · simp

/-! ### Operations on locks, waits and barges -/

/-- A run but for what it waits for and its shares. -/
def unwaited (r : Run) : Run := { r with waitsLeft := [], pf := [], pfBad := false, shares := [] }

/-- `t` has the mailboxes, package DRAM, cluster memories and kept entries of `s`, and its runs but for what they wait for and their
shares. -/
@[simp] abbrev SameButWaits (s t : State) : Prop :=
  t.mboxes = s.mboxes ∧ t.dram = s.dram ∧ t.clusters.map (·.mem) = s.clusters.map (·.mem) ∧ t.sched.entries = s.sched.entries ∧
    t.sched.runs.map unwaited = s.sched.runs.map unwaited

theorem SameButWaits.trans {s t u : State} (st : SameButWaits s t) (tu : SameButWaits t u) : SameButWaits s u := by
  simp_all

theorem foldl_sameButWaits {α : Type} {f : State → α → State} (h : ∀ s a, SameButWaits s (f s a)) (l : List α) (s : State) :
    SameButWaits s (l.foldl f s) :=
  foldl_frame SameButWaits (fun _ => by simp) (fun _ _ _ => SameButWaits.trans) f h l s

/-- A change of a cluster that leaves its memory. -/
theorem modCl_mems (s : State) (c : Fin 4) {f : Cluster → Cluster} (h : ∀ x, (f x).mem = x.mem) :
    (s.modCl c f).clusters.map (·.mem) = s.clusters.map (·.mem) := by
  refine Vector.ext fun i hi => ?_
  simp only [Vector.getElem_map]
  by_cases e : (⟨i, hi⟩ : Fin 4) = c
  · subst e
    rw [modCl_same]
    exact h _
  · exact congrArg Cluster.mem (vmod_other s.clusters c ⟨i, hi⟩ f e)

@[simp] theorem setKeeper_sameButWaits (s : State) (k : KeeperId) (v : Keeper) : SameButWaits s (s.setKeeper k v) := by
  cases k with
  | none => simp [State.setKeeper]
  | some c => exact ⟨rfl, rfl, modCl_mems s c (fun _ => rfl), rfl, rfl⟩

/-- A change of runs in what they wait for and their shares. -/
theorem modRun_sameButWaits (s : State) (rid : Nat) {f : Run → Run} (h : ∀ r, unwaited (f r) = unwaited r) :
    SameButWaits s (s.modRun rid f) := ⟨rfl, rfl, rfl, rfl, modRun_view s rid h⟩

@[simp] theorem release_sameButWaits (s : State) (w : Waiter) : SameButWaits s (s.release w) := by
  have ended : SameButWaits s (s.waitEnded w 0) := by simp
  unfold State.release
  dsimp only
  split
  · exact ended.trans (modRun_sameButWaits _ _ fun _ => rfl)
  · simp
  · exact ended.trans (modRun_sameButWaits _ _ fun _ => rfl)
  · simp

@[simp] theorem settle_sameButWaits (s : State) (k : KeeperId) (lock : Nat) : SameButWaits s (s.settle k lock) := by
  unfold State.settle
  exact (setKeeper_sameButWaits s k _).trans (foldl_sameButWaits release_sameButWaits _ _)

@[simp] theorem dropWaiters_sameButWaits (s : State) (p : Waiter → Bool) : SameButWaits s (s.dropWaiters p) := by
  unfold State.dropWaiters
  refine foldl_sameButWaits (fun s k => ?_) _ s
  exact (setKeeper_sameButWaits s k _).trans (foldl_sameButWaits (fun s l => settle_sameButWaits s k l) _ _)

@[simp] theorem withdrawRun_sameButWaits (s : State) (rid : Nat) : SameButWaits s (s.withdrawRun rid) := by
  unfold State.withdrawRun
  exact dropWaiters_sameButWaits s _

@[simp] theorem applyRaise_sameButWaits (s : State) (k : KeeperId) (lock n : Nat) : SameButWaits s (s.applyRaise k lock n) := by
  unfold State.applyRaise
  dsimp only
  split
  · split
    · simp
    · split <;> simp
  · split
    · simp
    · split <;> simp

theorem raisesIn_sameButWaits (s : State) (c : Fin 4) (l : List (Nat × Nat)) :
    SameButWaits s (s.modCl c (fun k => { k with raisesIn := k.raisesIn ++ l })) :=
  ⟨rfl, rfl, modCl_mems s c (fun _ => rfl), rfl, rfl⟩

@[simp] theorem raiseRef_sameButWaits (s : State) (own : Option (Fin 4)) (ref : W32) : SameButWaits s (s.raiseRef own ref) := by
  unfold State.raiseRef
  split
  · simp
  · split
    · split <;> simp
    · split
      · simp
      · exact raisesIn_sameButWaits s _ _
    · simp
    · split
      · simp
      · split
        · exact raisesIn_sameButWaits s _ _
        · simp

@[simp] theorem issueRaises_sameButWaits (s : State) (e : Entry) : SameButWaits s (s.issueRaises e) :=
  foldl_sameButWaits (fun s r => raiseRef_sameButWaits s (some e.cluster) r) _ s

@[simp] theorem lockWait_sameButWaits (s : State) (k : KeeperId) (lock n expiry : Nat) (who : WaiterId) :
    SameButWaits s (s.lockWait k lock n expiry who).1 := by
  unfold State.lockWait
  dsimp only
  split
  · simp
  · split <;> simp

@[simp] theorem bargeWait_sameButWaits (s : State) (b : Barge) : SameButWaits s (s.bargeWait b).1 := by
  unfold State.bargeWait
  dsimp only
  split
  · simp
  · split <;> simp

@[simp] theorem enqueue_sameButWaits (s : State) (by_ : BargeBy) (mover : Mover) (c : Fin 4) (ctx cls : Nat) (d : BDesc)
    (after : List Nat) : SameButWaits s (s.enqueue by_ mover c ctx cls d after).1 := by
  unfold State.enqueue
  dsimp only
  split <;> simp

@[simp] theorem prefetch_sameButWaits (s : State) (e : Entry) (alt : Bool) (rid : Option Nat) :
    SameButWaits s (s.prefetch e alt rid).1 := by
  unfold State.prefetch
  split
  · simp
  · refine foldl_frame (fun x y : State × List Nat × Bool => SameButWaits x.1 y.1) (fun _ => by simp)
      (fun _ _ _ => SameButWaits.trans) _ (fun x i => ?_) _ (s, [], false)
    dsimp only
    split
    · simp
    · split
      · simp
      · split <;> simp

end Sys2Proof.Proofs
end

section
/-! SUPPORT. Overruns counted, and runs that leave their entry's later runs alone (R33 to R35, R39, R44, R45). -/

namespace Sys2Proof.Proofs
open Sys2Proof.Machine Sys2Proof.Laws

variable {s : State} {r : Run}

/-! ### What is kept of an entry -/

theorem entry_congr {t : State} (h : t.sched.entries = s.sched.entries) (id : Nat) : t.entry? id = s.entry? id := by
  unfold State.entry?
  rw [h]

/-- What is kept of an entry after its change. -/
theorem entry_modEntry {id : Nat} {e : EntrySt} {f : EntrySt → EntrySt} (hf : ∀ x, (f x).id = x.id) (found : s.entry? id = some e) :
    (s.modEntry id f).entry? id = some (f e) := by
  have same : (fun x : EntrySt => decide ((if x.id = id then f x else x).id = id)) = fun x => decide (x.id = id) := by
    funext x
    split <;> simp [hf]
  have number : e.id = id := by simpa using List.find?_some found
  unfold State.entry? at found
  unfold State.entry? State.modEntry
  rw [List.find?_map, Function.comp_def, same, found, Option.map_some, if_pos number]

/-! ### An overrun counted -/

/-- What is kept of an entry with an overrun more (R45). -/
def noted (pol cause : Nat) (alt : Bool) (x : EntrySt) : EntrySt :=
  { x with
    overruns := x.overruns + 1,
    lastOvr := BitVec.ofNat 16 (0x8001 + pol * 0x1000 + cause * 0x400 + (if alt then 0x200 else 0)) }

/-- An overrun's record changes the entry, the tick's record and what is reported. -/
theorem noteOverrun_keeps (s : State) (e : Entry) (ctx count pol cause : Nat) (alt : Bool) :
    let t := s.noteOverrun e ctx count pol cause alt false
    t.mboxes = s.mboxes ∧ t.clusters = s.clusters ∧ t.dram = s.dram ∧ t.sched.runs = s.sched.runs ∧
      t.sched.entries = (s.modEntry e.id (noted pol cause alt)).sched.entries := by
  simp [State.noteOverrun, State.modEntry, State.modOvr, noted]

/-- A run in overrun for a cause. -/
def inOverrun (cause pol : Nat) (r : Run) : Run := { r with cause := some cause, faulted := r.faulted || pol = 3 }

/-- The state with an overrun of a run counted, before its policy acts. -/
def overrunCounted (s : State) (r : Run) (alt : Bool) (cause : Nat) : State :=
  (s.noteOverrun r.entry r.ctx r.count (r.entry.policyAt alt + 1) cause alt false).modRun r.rid
    (inOverrun cause (r.entry.policyAt alt))

section
variable {alt : Bool} {cause : Nat}

theorem overrunCounted_keeps (s : State) (r : Run) (alt : Bool) (cause : Nat) :
    let t := overrunCounted s r alt cause
    t.mboxes = s.mboxes ∧ t.clusters = s.clusters ∧ t.dram = s.dram ∧
      t.sched.runs = (s.modRun r.rid (inOverrun cause (r.entry.policyAt alt))).sched.runs := by
  obtain ⟨mboxes, clusters, dram, runs, -⟩ := noteOverrun_keeps s r.entry r.ctx r.count (r.entry.policyAt alt + 1) cause alt
  refine ⟨mboxes, clusters, dram, ?_⟩
  unfold overrunCounted State.modRun
  rw [runs]

theorem overrunCounted_run {r0 : Run} (found : s.run? r.rid = some r0) :
    (overrunCounted s r alt cause).run? r.rid = some (inOverrun cause (r.entry.policyAt alt) r0) := by
  have e := run_modRun s r.rid r.rid (inOverrun cause (r.entry.policyAt alt)) (fun _ => rfl)
  rw [found, Option.map_some, if_pos (run_rid found)] at e
  rw [← e]
  unfold State.run?
  rw [(overrunCounted_keeps s r alt cause).2.2.2]

theorem overrunCounted_entry {e : EntrySt} (found : s.entry? r.entry.id = some e) :
    (overrunCounted s r alt cause).entry? r.entry.id = some (noted (r.entry.policyAt alt + 1) cause alt e) := by
  obtain ⟨-, -, -, -, entries⟩ := noteOverrun_keeps s r.entry r.ctx r.count (r.entry.policyAt alt + 1) cause alt
  refine (entry_congr (s := s.modEntry r.entry.id (noted (r.entry.policyAt alt + 1) cause alt)) entries _).trans ?_
  exact entry_modEntry (fun _ => rfl) found

/-- Every run after an overrun is counted is one of before, or it in overrun. -/
theorem mem_overrunCounted {q : Run} (h : q ∈ (overrunCounted s r alt cause).sched.runs) :
    ∃ p ∈ s.sched.runs, q.phase = p.phase ∧ q.full = p.full := by
  rw [(overrunCounted_keeps s r alt cause).2.2.2] at h
  obtain ⟨p, hp, rfl⟩ := List.mem_map.1 h
  refine ⟨p, hp, ?_⟩
  split <;> exact ⟨rfl, rfl⟩

theorem overrunCounted_noStop (noStop : s.noStop) : (overrunCounted s r alt cause).noStop := by
  refine noStop_of noStop (overrunCounted_keeps s r alt cause).1 fun q hq waiting => ?_
  obtain ⟨p, hp, phase, full⟩ := mem_overrunCounted hq
  exact full.trans (noStop.2 p hp (phase.symm.trans waiting))

/-- No run waits for another of its entry to end. -/
def noPending (s : State) : Prop := ∀ q ∈ s.sched.runs, q.phase ≠ .pending

theorem overrunCounted_noPending (idle : noPending s) : noPending (overrunCounted s r alt cause) := by
  intro q hq pending
  obtain ⟨p, hp, phase, -⟩ := mem_overrunCounted hq
  exact idle p hp (phase.symm.trans pending)

/-! ### What a policy does with a running run in overrun -/

/-- The entry point that an overrun of a running run counts for is its own. -/
theorem alt_of_running (running : r.phase = .running) (s : State) : (r.alt || (decide (r.phase ≠ .running) && s.runAlt r)) = r.alt := by
  simp [running]

/-- A running run has started. -/
theorem started_of_running (running : r.phase = .running) (cause : Nat) :
    (decide (cause = 2) && decide (r.phase ≠ .running)) = false := by
  simp [running]

/-- A DEGRADE entry goes to its alternate point. -/
theorem overrunRun_degrade (running : r.phase = .running) (policy : r.entry.policyAt r.alt = 1) (cause : Nat) :
    s.overrunRun r cause = (if r.old then overrunCounted s r r.alt cause
      else (overrunCounted s r r.alt cause).modEntry r.entry.id (fun x => { x with atAlt := true })).refresh := by
  unfold State.overrunRun overrunCounted
  dsimp only
  rw [alt_of_running running, started_of_running running, policy]
  rfl

/-- Over its budget a BYPASS run goes on. -/
theorem overrunRun_bypass (running : r.phase = .running) (policy : r.entry.policyAt r.alt = 2) :
    s.overrunRun r 0 = overrunCounted s r r.alt 0 := by
  unfold State.overrunRun overrunCounted
  dsimp only
  rw [alt_of_running running, policy]
  rfl

end

/-- With no run pending none is found among some of the runs. -/
theorem find_pending_none (idle : noPending s) (p : Run → Bool) : (s.sched.runs.filter p).find? (fun r => r.phase = .pending) = none := by
  rw [List.find?_eq_none]
  intro q hq
  simpa using idle q (List.mem_of_mem_filter hq)

theorem runsOf_pending_none (idle : noPending s) (id : Nat) : (s.runsOf id).find? (fun r => r.phase = .pending) = none :=
  find_pending_none idle _

/-- The next run of an entry with no pending one is dropped when it is made ready. -/
theorem dropNextRun_of_noPending (idle : noPending s) (e : Entry) :
    s.dropNextRun e = s.modEntry e.id (fun x => { x with dropNext := true }) := by
  unfold State.dropNextRun
  rw [runsOf_pending_none idle]

/-- Under SKIP_NEXT a running run's entry drops its next run. -/
theorem overrunRun_skipNext (idle : noPending s) (running : r.phase = .running) (degrade : r.entry.policyAt r.alt ≠ 1)
    (bypass : r.entry.policyAt r.alt ≠ 2) (fault : r.entry.policyAt r.alt ≠ 3) (cause : Nat) :
    s.overrunRun r cause = if r.old then overrunCounted s r r.alt cause
      else (overrunCounted s r r.alt cause).modEntry r.entry.id (fun x => { x with dropNext := true }) := by
  rw [← dropNextRun_of_noPending (overrunCounted_noPending idle)]
  unfold State.overrunRun overrunCounted
  dsimp only
  rw [alt_of_running running, started_of_running running]
  split
  · contradiction
  · contradiction
  · contradiction
  · rfl

end Sys2Proof.Proofs
end

section
/-! SUPPORT. Budget overruns and first deadlines (R34, R35, R39). -/

namespace Sys2Proof.Proofs
open Sys2Proof.Machine Sys2Proof.Laws

variable {s : State} {rid : Nat} {r : Run}

/-! ### OVERRUN_BUDGET -/

theorem modEntry_id (s : State) (id : Nat) : s.modEntry id (fun x => x) = s := by
  simp [State.modEntry]

/-- What the policy of a running run in overrun over its budget does to its entry: `g` of what is kept of it. -/
structure PolicyOnEntry (r : Run) (g : EntrySt → EntrySt) : Prop where
  id : ∀ x, (g x).id = x.id
  overruns : ∀ x, (g x).overruns = x.overruns
  degrade : r.entry.policyAt r.alt = 1 → r.old = false → ∀ x, (g x).atAlt = true
  skip : r.entry.policyAt r.alt = 0 → r.old = false → ∀ x, (g x).dropNext = true

/-- An overrun over budget is counted, and its policy acts on the entry alone. -/
theorem overrunRun_budget (idle : noPending s) (running : r.phase = .running) (fault : r.entry.policyAt r.alt ≠ 3) :
    ∃ g, PolicyOnEntry r g ∧ (s.overrunRun r 0).mboxes = s.mboxes ∧ (s.overrunRun r 0).clusters = s.clusters ∧
      (s.overrunRun r 0).sched = ((overrunCounted s r r.alt 0).modEntry r.entry.id g).sched := by
  obtain ⟨mboxes, clusters, -⟩ := overrunCounted_keeps s r r.alt 0
  by_cases degrade : r.entry.policyAt r.alt = 1
  · rw [overrunRun_degrade running degrade]
    cases old : r.old with
    | true =>
      exact ⟨fun x => x, ⟨fun _ => rfl, fun _ => rfl, fun _ new => by simp_all, fun _ new => by simp_all⟩,
        by simp [mboxes], by simp [clusters], by simp [modEntry_id]⟩
    | false =>
      exact ⟨fun x => { x with atAlt := true }, ⟨fun _ => rfl, fun _ => rfl, fun _ _ _ => rfl, fun skip => by omega⟩,
        by simp [mboxes], by simp [clusters], by simp⟩
  · by_cases bypass : r.entry.policyAt r.alt = 2
    · rw [overrunRun_bypass running bypass]
      exact ⟨fun x => x, ⟨fun _ => rfl, fun _ => rfl, fun degrade => by omega, fun skip => by omega⟩, mboxes, clusters,
        by rw [modEntry_id]⟩
    · rw [overrunRun_skipNext idle running degrade bypass fault]
      cases old : r.old with
      | true =>
        exact ⟨fun x => x, ⟨fun _ => rfl, fun _ => rfl, fun _ new => by simp_all, fun _ new => by simp_all⟩, mboxes, clusters,
          by simp [modEntry_id]⟩
      | false =>
        exact ⟨fun x => { x with dropNext := true }, ⟨fun _ => rfl, fun _ => rfl, fun deg => absurd deg degrade, fun _ _ _ => rfl⟩,
          mboxes, clusters, rfl⟩

theorem exec_overrunBudget (found : s.run? rid = some r) (running : r.phase = .running) (uncounted : r.cause = none)
    (late : r.budget * 4 < s.elapsed4 r) : exec (.overrunBudget rid) s = .next (s.overrunRun r 0).settleStop := by
  change execOverrunBudget rid s = _
  unfold execOverrunBudget
  rw [found]
  dsimp only
  rw [if_pos (by simp [running, uncounted, late])]

theorem overrunBudget_counts {e : EntrySt} (found : s.run? rid = some r) (noStop : s.noStop) (running : r.phase = .running)
    (uncounted : r.cause = none) (fault : r.entry.policyAt r.alt ≠ 3) (idle : noPending s) (late : r.budget * 4 < s.elapsed4 r)
    (kept : s.entry? r.entry.id = some e) :
    ∃ t r' e', exec (.overrunBudget rid) s = .next t ∧ t.run? rid = some r' ∧ r'.cause = some 0 ∧ r'.shares = r.shares ∧
      r'.phase = .running ∧ t.entry? r.entry.id = some e' ∧ e'.overruns = e.overruns + 1 ∧
      (r.entry.policyAt r.alt = 1 → r.old = false → e'.atAlt = true) ∧
      (r.entry.policyAt r.alt = 0 → r.old = false → e'.dropNext = true) ∧ t.clusters = s.clusters := by
  obtain rfl := run_rid found
  obtain ⟨g, policy, mboxes, clusters, sched⟩ := overrunRun_budget idle running fault
  have settled : (s.overrunRun r 0).settleStop = s.overrunRun r 0 :=
    settleStop_of_noStop (noStop_of noStop mboxes (by rw [sched]; exact (overrunCounted_noStop noStop).2))
  have run : (s.overrunRun r 0).run? r.rid = some (inOverrun 0 (r.entry.policyAt r.alt) r) := by
    rw [← overrunCounted_run found (alt := r.alt)]
    unfold State.run?
    rw [sched]
    rfl
  have entry : (s.overrunRun r 0).entry? r.entry.id = some (g (noted (r.entry.policyAt r.alt + 1) 0 r.alt e)) := by
    rw [← entry_modEntry policy.id (overrunCounted_entry kept)]
    exact entry_congr (by rw [sched]) _
  exact ⟨_, _, _, settled ▸ exec_overrunBudget found running uncounted late, run, rfl, rfl, running, entry, policy.overruns _,
    fun deg new => policy.degrade deg new _, fun skip new => policy.skip skip new _, clusters⟩

/-! ### RUN_DEADLINE -/

/-- A run with its first deadline behind it. -/
def firstPassed (r : Run) : Run := { r with passed := 1 }

/-- A run at its first deadline, on a cluster that does not go down (R34). -/
structure AtDeadline (s : State) (rid : Nat) (r : Run) : Prop where
  found : s.run? rid = some r
  current : r.current = true
  first : r.passed = 0
  due : s.due1 r = true
  notStopped : r.stopped = false
  notQuiescing : s.quiescing r.entry.cluster = false

theorem firstPassed_run (found : s.run? r.rid = some r) : (s.modRun r.rid firstPassed).run? r.rid = some (firstPassed r) := by
  have e := run_modRun s r.rid r.rid firstPassed (fun _ => rfl)
  rwa [found, Option.map_some, if_pos rfl] at e

theorem quiescing_modRun (s : State) (rid : Nat) (f : Run → Run) (c : Fin 4) : (s.modRun rid f).quiescing c = s.quiescing c := rfl

theorem exec_runDeadline_counted (h : AtDeadline s rid r) (counted : r.cause ≠ none) (goesOn : r.entry.policyAt r.alt ≠ 2) :
    exec (.runDeadline rid) s = .next ((s.modRun r.rid firstPassed).dispatch r.entry.cluster).settleStop := by
  obtain rfl := run_rid h.found
  change execRunDeadline r.rid s = _
  unfold execRunDeadline
  rw [h.found]
  dsimp only
  rw [if_neg (by rw [h.current]; exact Bool.false_ne_true), if_pos (by simp [h.first, h.due]),
    if_neg (by rw [quiescing_modRun, h.notQuiescing]; exact Bool.false_ne_true), if_neg (by simpa using counted), if_neg goesOn]
  refine congrArg (fun u : State => Host.Outcome.next (u.dispatch r.entry.cluster).settleStop) ?_
  split
  · next q found =>
    obtain rfl := Option.some.inj ((firstPassed_run h.found).symm.trans found)
    exact if_neg (by rw [show (firstPassed r).stopped = false from h.notStopped]; exact Bool.false_ne_true)
  · rfl

theorem exec_runDeadline_late (h : AtDeadline s rid r) (uncounted : r.cause = none)
    (unstopped : ∀ q, ((s.modRun r.rid firstPassed).overrunRun (firstPassed r) 1).run? rid = some q → q.stopped = false) :
    exec (.runDeadline rid) s =
      .next (((s.modRun r.rid firstPassed).overrunRun (firstPassed r) 1).dispatch r.entry.cluster).settleStop := by
  obtain rfl := run_rid h.found
  change execRunDeadline r.rid s = _
  unfold execRunDeadline
  rw [h.found]
  dsimp only
  rw [if_neg (by rw [h.current]; exact Bool.false_ne_true), if_pos (by simp [h.first, h.due]),
    if_neg (by rw [quiescing_modRun, h.notQuiescing]; exact Bool.false_ne_true), if_pos (by rw [uncounted]; rfl)]
  refine congrArg (fun u : State => Host.Outcome.next (u.dispatch r.entry.cluster).settleStop) ?_
  split
  · next q found => exact if_neg (by rw [unstopped q found]; exact Bool.false_ne_true)
  · rfl

/-- Cores that take shares leave nothing to settle. -/
theorem dispatch_settled {u : State} (noStop : u.noStop) (c : Fin 4) : (u.dispatch c).settleStop = u.dispatch c := by
  obtain ⟨mboxes, -, -, -, view⟩ := dispatch_sameButPlaces u c
  exact settleStop_of_noStop (noStop_of_view (view := unplaced) (fun _ => rfl) (fun _ => rfl) noStop mboxes view)

theorem firstPassed_noStop (noStop : s.noStop) : (s.modRun r.rid firstPassed).noStop :=
  noStop_of_view (view := fun q => { q with passed := 0 }) (fun _ => rfl) (fun _ => rfl) noStop rfl
    (modRun_view s r.rid fun _ => rfl)

/-- The deadline of a run already in overrun is counted. -/
theorem runDeadline_counted (h : AtDeadline s rid r) (noStop : s.noStop) (counted : r.cause ≠ none)
    (goesOn : r.entry.policyAt r.alt ≠ 2) :
    ∃ t r', exec (.runDeadline rid) s = .next t ∧ t.run? rid = some r' ∧ r'.passed = 1 ∧ r'.cause = r.cause := by
  obtain rfl := run_rid h.found
  obtain ⟨-, -, -, -, view⟩ := dispatch_sameButPlaces (s.modRun r.rid firstPassed) r.entry.cluster
  obtain ⟨r', found, same⟩ := run_of_view (view := unplaced) (fun _ => rfl) view (firstPassed_run h.found)
  have e := exec_runDeadline_counted h counted goesOn
  rw [dispatch_settled (firstPassed_noStop noStop)] at e
  exact ⟨_, r', e, found, (congrArg Run.passed same :), (congrArg Run.cause same :)⟩

/-- The state once the deadline of a running DEGRADE run is counted as its overrun. -/
def deadlineCounted (s : State) (r : Run) : State := overrunCounted (s.modRun r.rid firstPassed) (firstPassed r) r.alt 1

/-- What the deadline of a running DEGRADE run leaves before cores take shares. -/
theorem overrunRun_deadline {e : EntrySt} (found : s.run? r.rid = some r) (noStop : s.noStop) (running : r.phase = .running)
    (policy : r.entry.policyAt r.alt = 1) (new : r.old = false) (kept : s.entry? r.entry.id = some e) :
    let u := (s.modRun r.rid firstPassed).overrunRun (firstPassed r) 1
    u.noStop ∧ u.run? r.rid = some (inOverrun 1 (r.entry.policyAt r.alt) (firstPassed r)) ∧
      ∃ e', u.entry? r.entry.id = some e' ∧ e'.overruns = e.overruns + 1 ∧ e'.atAlt = true := by
  have degraded : (s.modRun r.rid firstPassed).overrunRun (firstPassed r) 1 =
      ((deadlineCounted s r).modEntry r.entry.id (fun x => { x with atAlt := true })).refresh := by
    rw [overrunRun_degrade (r := firstPassed r) running policy,
      if_neg (by rw [show (firstPassed r).old = false from new]; exact Bool.false_ne_true)]
    rfl
  have noStop' : (deadlineCounted s r).noStop := overrunCounted_noStop (r := firstPassed r) (firstPassed_noStop noStop)
  have run : (deadlineCounted s r).run? r.rid = some (inOverrun 1 (r.entry.policyAt r.alt) (firstPassed r)) :=
    overrunCounted_run (r := firstPassed r) (firstPassed_run found)
  have entry : (deadlineCounted s r).entry? r.entry.id = some (noted (r.entry.policyAt r.alt + 1) 1 r.alt e) :=
    overrunCounted_entry (s := s.modRun r.rid firstPassed) (r := firstPassed r) kept
  obtain ⟨mboxes, sched, -⟩ := refresh_sameWork ((deadlineCounted s r).modEntry r.entry.id (fun x => { x with atAlt := true }))
  intro u
  rw [show u = _ from degraded]
  refine ⟨noStop_of noStop' mboxes (by rw [sched]; exact noStop'.2), ?_,
    { noted (r.entry.policyAt r.alt + 1) 1 r.alt e with atAlt := true }, ?_, rfl, rfl⟩
  · rw [← run]
    unfold State.run?
    rw [sched]
    rfl
  · rw [← entry_modEntry (f := fun x => { x with atAlt := true }) (fun _ => rfl) entry]
    exact entry_congr (by rw [sched]) _

/-- The deadline of a running DEGRADE run is its overrun. -/
theorem runDeadline_degrades {e : EntrySt} (h : AtDeadline s rid r) (noStop : s.noStop) (running : r.phase = .running)
    (uncounted : r.cause = none) (policy : r.entry.policyAt r.alt = 1) (new : r.old = false) (kept : s.entry? r.entry.id = some e) :
    ∃ t r' e', exec (.runDeadline rid) s = .next t ∧ t.run? rid = some r' ∧ r'.passed = 1 ∧ r'.cause = some 1 ∧
      t.entry? r.entry.id = some e' ∧ e'.overruns = e.overruns + 1 ∧ e'.atAlt = true := by
  obtain rfl := run_rid h.found
  obtain ⟨noStop', run, e', entry, overruns, atAlt⟩ := overrunRun_deadline h.found noStop running policy new kept
  obtain ⟨-, -, -, entries, view⟩ :=
    dispatch_sameButPlaces ((s.modRun r.rid firstPassed).overrunRun (firstPassed r) 1) r.entry.cluster
  obtain ⟨r', found', same⟩ := run_of_view (view := unplaced) (fun _ => rfl) view run
  have x := exec_runDeadline_late h uncounted fun q found => by
    obtain rfl := Option.some.inj (run.symm.trans found)
    exact h.notStopped
  rw [dispatch_settled noStop'] at x
  exact ⟨_, r', e', x, found', (congrArg Run.passed same :), (congrArg Run.cause same :), (entry_congr entries _).trans entry, overruns,
    atAlt⟩

end Sys2Proof.Proofs
end

section
/-! SUPPORT. Runs dropped at their lock-wait timeout, and a dropped run's deadline (R35, R36, R39, R122, R227). -/

namespace Sys2Proof.Proofs
open Sys2Proof.Machine Sys2Proof.Laws

variable {s : State} {rid : Nat} {r : Run}

/-! ### The entry goes on after a run -/

theorem noPending_of_view {t : State} (idle : noPending s) (runs : t.sched.runs.map unwaited = s.sched.runs.map unwaited) :
    noPending t := by
  intro q hq pending
  obtain ⟨p, hp, same⟩ := mem_of_view runs hq
  exact idle p hp ((congrArg Run.phase same :).trans pending)

theorem advanceOld_of_noPending (idle : noPending s) (e : Entry) : s.advanceOld e = s := by
  unfold State.advanceOld
  dsimp only
  rw [find_pending_none idle]
  exact ite_self s

theorem advance_of_noPending (idle : noPending s) (e : Entry) : s.advance e false = s := by
  unfold State.advance
  dsimp only
  rw [runsOf_pending_none idle]
  exact ite_self s

theorem goOn_of_noPending (idle : noPending s) (r : Run) : s.goOn r false = s := by
  unfold State.goOn
  split
  · exact advanceOld_of_noPending idle _
  · exact advance_of_noPending idle _

/-- With no run pending an entry goes on to its next prefetch list at most (R227). -/
theorem goOn_prefetches (idle : noPending s) (r : Run) :
    ∃ u, SameButWaits s u ∧ (s.goOn r true = u ∨ ∃ id f, s.goOn r true = u.modEntry id f) := by
  unfold State.goOn
  split
  · exact ⟨s, by simp, .inl (advanceOld_of_noPending idle _)⟩
  · unfold State.advance
    dsimp only
    rw [runsOf_pending_none idle]
    split
    · exact ⟨s, by simp, .inl rfl⟩
    · dsimp only
      split
      · exact ⟨_, prefetch_sameButWaits s r.entry _ none, .inr ⟨_, _, rfl⟩⟩
      · exact ⟨s, by simp, .inl rfl⟩

/-! ### A run dropped -/

/-- A dropped run, which waits for nothing but its deadline. -/
def droppedRun (q : Run) : Run := { q with phase := .dropped, waitsLeft := [], pf := [], full := false }

/-- The state once a run to be dropped has left the keepers, and is recorded as skipped (R44). -/
def withdrawn (s : State) (r : Run) : State :=
  let u := (s.withdrawRun r.rid).modOvr r.entry.source r.count (fun o => { o with skipped := true })
  if r.cause.isSome && !r.old then u.skipEntry r.entry.id else u

theorem withdrawn_keeps (s : State) (r : Run) :
    (withdrawn s r).mboxes = s.mboxes ∧ (withdrawn s r).sched.runs.map unwaited = s.sched.runs.map unwaited := by
  unfold withdrawn State.skipEntry
  dsimp only
  split <;> simp

theorem droppedRun_noPending (idle : noPending s) (rid : Nat) : noPending (s.modRun rid droppedRun) := by
  intro q hq
  obtain ⟨p, hp, rfl⟩ := List.mem_map.1 hq
  split
  · exact RunPhase.noConfusion
  · exact idle p hp

theorem droppedRun_noStop (noStop : s.noStop) (rid : Nat) : (s.modRun rid droppedRun).noStop := by
  refine noStop_of noStop rfl fun q hq => ?_
  obtain ⟨p, hp, rfl⟩ := List.mem_map.1 hq
  split
  · exact fun _ => rfl
  · exact noStop.2 p hp

/-- Before its deadline a dropped run waits for it; with no run pending its entry has none to begin. -/
theorem dropRun_eq (idle : noPending s) (first : r.passed = 0) : s.dropRun r = (withdrawn s r).modRun r.rid droppedRun := by
  have idle' := droppedRun_noPending (noPending_of_view idle (withdrawn_keeps s r).2) r.rid
  have early : ¬ r.passed > 0 := by omega
  unfold State.dropRun
  dsimp only
  rw [if_neg early]
  split
  · exact goOn_of_noPending (s := (withdrawn s r).modRun r.rid droppedRun) idle' r
  · rfl

/-- What dropping a run leaves of it. -/
theorem dropRun_drops {r0 : Run} (idle : noPending s) (noStop : s.noStop) (found : s.run? rid = some r0) (number : r.rid = rid)
    (first : r.passed = 0) :
    (s.dropRun r).noStop ∧ ∃ r', (s.dropRun r).run? rid = some r' ∧ r'.phase = .dropped ∧ r'.waitsLeft = [] ∧ r'.pf = [] ∧
      r'.cause = r0.cause := by
  obtain ⟨mboxes, view⟩ := withdrawn_keeps s r
  obtain ⟨r', found', same⟩ := run_of_view (view := unwaited) (fun _ => rfl) view found
  have e := run_modRun (withdrawn s r) rid rid droppedRun (fun _ => rfl)
  rw [found', Option.map_some, if_pos (run_rid found')] at e
  rw [dropRun_eq idle first, number]
  exact ⟨droppedRun_noStop (noStop_of_view (view := unwaited) (fun _ => rfl) (fun _ => rfl) noStop mboxes view) rid, _, e, rfl, rfl,
    rfl, (congrArg Run.cause same :)⟩

/-! ### ENTRY_LOCK_WAIT_TIMEOUT -/

/-- A waiting run that its timeout finds with waits left, before its deadline, no run pending. -/
structure TimesOut (s : State) (rid : Nat) (r : Run) : Prop where
  found : s.run? rid = some r
  noStop : s.noStop
  waiting : r.phase = .waiting
  first : r.passed = 0
  late : s.beyond r.stamp (r.entry.timeout * 1000000) = true
  waits : r.waitsLeft ≠ []
  idle : noPending s

/-- Its waits leave the keepers, and it is dropped or in overrun. -/
theorem exec_entryLockWaitTimeout (h : TimesOut s rid r) :
    ∃ u, SameButWaits s u ∧
      exec (.entryLockWaitTimeout rid) s = .next (if r.cause.isSome then u.dropRun r else u.overrunRun r 2).settleStop := by
  have unmet : (r.waitsLeft.isEmpty && r.pf.isEmpty && !r.pfBad) = false := by
    rw [List.isEmpty_eq_false_iff.2 h.waits]
    rfl
  change ∃ u, _ ∧ execEntryLockWaitTimeout rid s = _
  unfold execEntryLockWaitTimeout
  rw [h.found]
  dsimp only
  rw [h.waiting]
  dsimp only
  rw [if_pos (by rw [unmet, h.late]; rfl)]
  refine ⟨_, ?_, rfl⟩
  exact (foldl_sameButWaits (fun s w => by simp) _ s).trans (withdrawRun_sameButWaits _ rid)

/-- A run counted in overrun already is dropped. -/
theorem entryLockWaitTimeout_drops (h : TimesOut s rid r) (counted : r.cause ≠ none) :
    ∃ t r', exec (.entryLockWaitTimeout rid) s = .next t ∧ t.run? rid = some r' ∧ r'.phase = .dropped ∧ r'.waitsLeft = [] ∧
      r'.pf = [] ∧ r'.cause = r.cause := by
  obtain rfl := run_rid h.found
  obtain ⟨u, ⟨mboxes, -, -, -, view⟩, e⟩ := exec_entryLockWaitTimeout h
  rw [if_pos (Option.isSome_iff_ne_none.2 counted)] at e
  obtain ⟨r0, found, same⟩ := run_of_view (view := unwaited) (fun _ => rfl) view h.found
  obtain ⟨noStop, r', found', phase, waits, pf, cause⟩ := dropRun_drops (noPending_of_view h.idle view)
    (noStop_of_view (view := unwaited) (fun _ => rfl) (fun _ => rfl) h.noStop mboxes view) found rfl h.first
  rw [settleStop_of_noStop noStop] at e
  exact ⟨_, r', e, found', phase, waits, pf, cause.trans (congrArg Run.cause same :)⟩

/-- The entry point at stake for a run depends on what is kept of its entry. -/
theorem runAlt_congr {t : State} (entries : t.sched.entries = s.sched.entries) (r : Run) : t.runAlt r = s.runAlt r := by
  unfold State.runAlt State.useAlt
  rw [entry_congr entries]

/-- The run of a number, where there is one, is dropped. -/
def dropFound (s : State) (rid : Nat) : State :=
  match s.run? rid with
  | some q => s.dropRun q
  | none => s

theorem dropFound_of_found (found : s.run? rid = some r) : dropFound s rid = s.dropRun r := by
  unfold dropFound
  rw [found]

/-- The entry point of a waiting run is still to be chosen. -/
theorem alt_of_waiting (waiting : r.phase = .waiting) (s : State) :
    (r.alt || (decide (r.phase ≠ .running) && s.runAlt r)) = (r.alt || s.runAlt r) := by
  simp [waiting]

/-- A waiting run has not started. -/
theorem unstarted_of_waiting (waiting : r.phase = .waiting) : (decide (2 = 2) && decide (r.phase ≠ .running)) = true := by
  simp [waiting]

/-- The state with an overrun of a waiting run counted, its entry at its alternate point (R39). -/
def lateDegraded (s : State) (r : Run) : State :=
  let u := overrunCounted s r (r.alt || s.runAlt r) 2
  if r.old then u else u.modEntry r.entry.id (fun x => { x with atAlt := true })

/-- Under DEGRADE a run that waits too long is dropped, and its entry goes to its alternate point. -/
theorem overrunRun_late_degrade (waiting : r.phase = .waiting) (policy : r.entry.policyAt (r.alt || s.runAlt r) = 1) :
    s.overrunRun r 2 = (dropFound (lateDegraded s r) r.rid).refresh := by
  unfold State.overrunRun lateDegraded overrunCounted
  dsimp only
  rw [alt_of_waiting waiting, unstarted_of_waiting waiting, policy]
  rfl

/-- Under SKIP_NEXT a run that waits too long is dropped. -/
theorem overrunRun_late_skip (waiting : r.phase = .waiting) (degrade : r.entry.policyAt (r.alt || s.runAlt r) ≠ 1)
    (bypass : r.entry.policyAt (r.alt || s.runAlt r) ≠ 2) (fault : r.entry.policyAt (r.alt || s.runAlt r) ≠ 3) :
    s.overrunRun r 2 = dropFound (overrunCounted s r (r.alt || s.runAlt r) 2) r.rid := by
  unfold State.overrunRun overrunCounted
  dsimp only
  rw [alt_of_waiting waiting, unstarted_of_waiting waiting]
  split
  · contradiction
  · contradiction
  · contradiction
  · rfl

/-- What a lock-wait timeout leaves of a run under SKIP_NEXT or DEGRADE. -/
theorem overrunRun_late {r0 : Run} (found : s.run? r.rid = some r0) (noStop : s.noStop) (idle : noPending s) (waiting : r.phase = .waiting)
    (first : r0.passed = 0) (bypass : r.entry.policyAt (r.alt || s.runAlt r) ≠ 2)
    (fault : r.entry.policyAt (r.alt || s.runAlt r) ≠ 3) :
    (s.overrunRun r 2).noStop ∧ ∃ r', (s.overrunRun r 2).run? r.rid = some r' ∧ r'.phase = .dropped ∧ r'.waitsLeft = [] ∧
      r'.pf = [] ∧ r'.cause = some 2 := by
  have noStop' := overrunCounted_noStop (r := r) (alt := r.alt || s.runAlt r) (cause := 2) noStop
  have idle' := overrunCounted_noPending (r := r) (alt := r.alt || s.runAlt r) (cause := 2) idle
  have run := overrunCounted_run (alt := r.alt || s.runAlt r) (cause := 2) found
  have number : r0.rid = r.rid := run_rid found
  by_cases degrade : r.entry.policyAt (r.alt || s.runAlt r) = 1
  · have same : (lateDegraded s r).noStop ∧ noPending (lateDegraded s r) ∧
        (lateDegraded s r).run? r.rid = some (inOverrun 2 (r.entry.policyAt (r.alt || s.runAlt r)) r0) := by
      unfold lateDegraded
      dsimp only
      split <;> exact ⟨noStop', idle', run⟩
    obtain ⟨noStop1, idle1, run1⟩ := same
    obtain ⟨noStop2, dropped⟩ := dropRun_drops (r := inOverrun 2 _ r0) idle1 noStop1 run1 number first
    obtain ⟨mboxes, sched, -⟩ := refresh_sameWork ((lateDegraded s r).dropRun (inOverrun 2 (r.entry.policyAt (r.alt || s.runAlt r)) r0))
    rw [overrunRun_late_degrade waiting degrade, dropFound_of_found run1]
    unfold State.run?
    rw [sched]
    exact ⟨noStop_of noStop2 mboxes (by rw [sched]; exact noStop2.2), dropped⟩
  · rw [overrunRun_late_skip waiting degrade bypass fault, dropFound_of_found run]
    exact dropRun_drops (r := inOverrun 2 _ r0) idle' noStop' run number first

/-- A run not yet in overrun is, with cause LOCK_TIMEOUT. -/
theorem entryLockWaitTimeout_counts (h : TimesOut s rid r) (uncounted : r.cause = none)
    (bypass : r.entry.policyAt (r.alt || s.runAlt r) ≠ 2) (fault : r.entry.policyAt (r.alt || s.runAlt r) ≠ 3) :
    ∃ t r', exec (.entryLockWaitTimeout rid) s = .next t ∧ t.run? rid = some r' ∧ r'.phase = .dropped ∧ r'.waitsLeft = [] ∧
      r'.pf = [] ∧ r'.cause = some 2 := by
  obtain rfl := run_rid h.found
  obtain ⟨u, ⟨mboxes, -, -, entries, view⟩, e⟩ := exec_entryLockWaitTimeout h
  rw [uncounted, if_neg (by exact Bool.false_ne_true)] at e
  rw [← runAlt_congr entries] at bypass fault
  obtain ⟨r0, found, same⟩ := run_of_view (view := unwaited) (fun _ => rfl) view h.found
  obtain ⟨noStop, dropped⟩ := overrunRun_late found
    (noStop_of_view (view := unwaited) (fun _ => rfl) (fun _ => rfl) h.noStop mboxes view) (noPending_of_view h.idle view) h.waiting
    ((congrArg Run.passed same :).trans h.first) bypass fault
  rw [settleStop_of_noStop noStop] at e
  exact ⟨_, dropped.choose, e, dropped.choose_spec⟩

/-! ### DROPPED_RUN_DEADLINE -/

/-- The state without the runs of one number. -/
def withoutRun (s : State) (rid : Nat) : State :=
  { s with sched := { s.sched with runs := s.sched.runs.filter (fun x => x.rid ≠ rid) } }

theorem withoutRun_noStop (noStop : s.noStop) (rid : Nat) : (withoutRun s rid).noStop :=
  noStop_of noStop rfl fun q hq => noStop.2 q (List.mem_filter.1 hq).1

theorem withoutRun_noPending (idle : noPending s) (rid : Nat) : noPending (withoutRun s rid) :=
  fun q hq => idle q (List.mem_filter.1 hq).1

/-- A number that no run has is that of no run after a step that leaves the runs' numbers. -/
theorem run_none_of_view {t : State} (runs : t.sched.runs.map unwaited = (withoutRun s rid).sched.runs.map unwaited) :
    t.run? rid = none := by
  refine List.find?_eq_none.2 fun q hq number => ?_
  obtain ⟨p, hp, same⟩ := mem_of_view runs hq
  have gone := of_decide_eq_true (List.mem_filter.1 hp).2
  exact gone ((congrArg Run.rid same :).trans (of_decide_eq_true number))

@[simp] theorem audDone_sameButWaits (s : State) (entry count : Nat) (completed bypassed : Bool) :
    SameButWaits s (s.audDone entry count completed bypassed) := by
  unfold State.audDone
  refine foldl_sameButWaits (fun s n => ?_) _ s
  dsimp only
  split <;> simp [State.modAud]

theorem endSteps_sameButWaits (s : State) (r : Run) (made : Bool) : SameButWaits s (s.endSteps r made) :=
  ⟨rfl, rfl, modCl_mems s _ fun _ => rfl, rfl, rfl⟩

/-- The state whose cluster keeps no work of a run (R210). -/
def clearWork (s : State) (c : Fin 4) (rid : Nat) : State :=
  s.modCl c (fun k =>
    { k with
      stripe := k.stripe.map (fun (t : StripeSt) => { t with cur := t.cur.filter (fun x => x.rid ≠ rid) }),
      saved := k.saved.filter (fun x => x.rid ≠ rid) })

theorem clearWork_sameButWaits (s : State) (c : Fin 4) (rid : Nat) : SameButWaits s (clearWork s c rid) :=
  ⟨rfl, rfl, modCl_mems s c fun _ => rfl, rfl, rfl⟩

/-- The jobs of a state are no part of what is compared. -/
theorem jobs_sameButWaits {t : State} (h : SameButWaits s t) (jobs : List Job) : SameButWaits s { t with jobs := jobs } := h

/-- A dropped run that ends leaves the runs, and memory as it is. -/
theorem runEnd_dropped (s : State) (r : Run) (bypassed : Bool) : SameButWaits (withoutRun s r.rid) (s.runEnd r 1 bypassed) := by
  have traced (u : State) (k : Fin 10) (l : List Byte) : SameButWaits u (u.trace k 0 0x12 0 l) := by simp
  unfold State.runEnd
  extract_lets e _ gone cleared marked ended _ _ _ _ after done
  have onlyCompleted : after = ended := if_neg Nat.one_ne_zero
  have leaves : SameButWaits (withoutRun s r.rid) ended :=
    ((clearWork_sameButWaits (withoutRun s r.rid) e.cluster r.rid).trans (traced cleared _ _)).trans
      (endSteps_sameButWaits marked r _)
  rw [← onlyCompleted] at leaves
  have last : done = after.audDone e.id r.count (decide (1 = 0)) bypassed := rfl
  refine jobs_sameButWaits (t := done) ?_ _
  rw [last]
  exact leaves.trans (audDone_sameButWaits after _ _ _ _)

/-- With no run pending a run whose entry goes on leaves the memories, and the runs but for what they wait for. -/
theorem goOn_leaves (idle : noPending s) (r : Run) :
    (s.goOn r true).mboxes = s.mboxes ∧ (s.goOn r true).dram = s.dram ∧
      (s.goOn r true).clusters.map (·.mem) = s.clusters.map (·.mem) ∧
      (s.goOn r true).sched.runs.map unwaited = s.sched.runs.map unwaited := by
  obtain ⟨u, ⟨mboxes, dram, mems, -, runs⟩, e | ⟨id, f, e⟩⟩ := goOn_prefetches idle r <;>
    (rw [e]; exact ⟨mboxes, dram, mems, runs⟩)

/-- A dropped run whose deadline passes is gone; package DRAM and the cluster memories are as they were. -/
theorem droppedDeadline_ends (idle : noPending s) (noStop : s.noStop) (r : Run) :
    (s.droppedDeadline r).noStop ∧ (s.droppedDeadline r).run? r.rid = none ∧ (s.droppedDeadline r).dram = s.dram ∧
      (s.droppedDeadline r).clusters.map (·.mem) = s.clusters.map (·.mem) := by
  unfold State.droppedDeadline
  extract_lets raised
  have issued : SameButWaits s raised := by
    unfold raised
    split <;> simp
  clear_value raised
  obtain ⟨mboxes, dram, mems, -, view⟩ := issued
  have noStop1 := withoutRun_noStop (noStop_of_view (view := unwaited) (fun _ => rfl) (fun _ => rfl) noStop mboxes view) r.rid
  have idle1 := withoutRun_noPending (noPending_of_view idle view) r.rid
  obtain ⟨mboxes2, dram2, mems2, -, view2⟩ := runEnd_dropped raised r false
  obtain ⟨mboxes3, dram3, mems3, view3⟩ := goOn_leaves (noPending_of_view idle1 view2) r
  have runs := view3.trans view2
  exact ⟨noStop_of_view (view := unwaited) (fun _ => rfl) (fun _ => rfl) noStop1 (mboxes3.trans mboxes2) runs,
    run_none_of_view runs, (dram3.trans dram2).trans dram, (mems3.trans mems2).trans mems⟩

theorem mem_of_mems {t : State} (mems : t.clusters.map (·.mem) = s.clusters.map (·.mem)) (c : Fin 4) :
    t.clusters[c].mem = s.clusters[c].mem := by
  have e := congrArg (fun v => v[c.val]) mems
  rwa [Vector.getElem_map, Vector.getElem_map] at e

theorem droppedRunDeadline_ends (found : s.run? rid = some r) (noStop : s.noStop) (dropped : r.phase = .dropped)
    (due : s.due1 r = true) (idle : noPending s) :
    ∃ t, exec (.droppedRunDeadline rid) s = .next t ∧ t.run? rid = none ∧
      t.clusters[r.entry.cluster].mem = s.clusters[r.entry.cluster].mem ∧ t.dram = s.dram := by
  obtain rfl := run_rid found
  obtain ⟨noStop', gone, dram, mems⟩ := droppedDeadline_ends idle noStop r
  refine ⟨s.droppedDeadline r, ?_, gone, ?_, dram⟩
  · change execDroppedRunDeadline r.rid s = _
    unfold execDroppedRunDeadline
    rw [found]
    dsimp only
    rw [if_pos (by rw [dropped, due]; rfl), settleStop_of_noStop noStop']
  · exact mem_of_mems mems r.entry.cluster

end Sys2Proof.Proofs
end

section
/-! The obligation of late runs. -/

namespace Sys2Proof.Proofs
open Sys2Proof.Machine Sys2Proof.Laws

/-- Settles O13: an overrun counted leaves the run going on or dropped, as its policy says; a dropped run ends at its deadline. -/
theorem lateRunsAreOverruns : Obligations.LateRunsAreOverruns := by
  intro s rid r found noStop
  refine ⟨?budget, ?deadline, ?lockWait, ?dropped⟩
  case budget =>
    intro e running uncounted fault idle late kept
    exact overrunBudget_counts found noStop running uncounted fault idle late kept
  case deadline =>
    intro current first due notStopped notQuiescing
    have atDeadline : AtDeadline s rid r := ⟨found, current, first, due, notStopped, notQuiescing⟩
    exact ⟨runDeadline_counted atDeadline noStop, fun e => runDeadline_degrades atDeadline noStop⟩
  case lockWait =>
    intro waiting first late waits idle
    have timesOut : TimesOut s rid r := ⟨found, noStop, waiting, first, late, waits, idle⟩
    exact ⟨entryLockWaitTimeout_drops timesOut, entryLockWaitTimeout_counts timesOut⟩
  case dropped =>
    exact droppedRunDeadline_ends found noStop

end Sys2Proof.Proofs
end

section
/-! SUPPORT. The signed lanes of R68 and R69: what an encoding of a value in range is read back as, shifts and NARROW. -/

namespace Sys2Proof.Proofs
open Sys2Proof.Machine

/-- A value that a lane of `w` bits holds (R68). -/
def FitsLane (w : Nat) (x : Int) : Prop := intMin w ≤ x ∧ x ≤ intMax w

/-- A lane holds a value of each sign: half of its encodings each. -/
theorem two_pow_eq_double {w : Nat} (pos : 0 < w) : 2 ^ w = 2 * 2 ^ (w - 1) := by
  rw [← Nat.pow_succ', Nat.succ_eq_add_one, Nat.sub_add_cancel pos]

theorem fitsLane_iff (w : Nat) (x : Int) : FitsLane w x ↔ -((2 ^ (w - 1) : Nat) : Int) ≤ x ∧ x < (2 ^ (w - 1) : Nat) := by
  simp only [FitsLane, intMin, intMax, Int.le_sub_one_iff]

/-- What a lane reads as fits it. -/
theorem fitsLane_sgn {w : Nat} (pos : 0 < w) (a : Nat) : FitsLane w (sgn w a) := by
  have double := two_pow_eq_double pos
  have lt : a % 2 ^ w < 2 ^ w := Nat.mod_lt _ (Nat.two_pow_pos w)
  rw [fitsLane_iff, sgn]
  split <;> omega

/-- A value that fits its lane comes back from its encoding. -/
theorem sgn_wrapN {w : Nat} {x : Int} (pos : 0 < w) (fits : FitsLane w x) : sgn w (wrapN w x) = x := by
  have double := two_pow_eq_double pos
  rw [fitsLane_iff] at fits
  have encoded : (wrapN w x : Int) = if x < 0 then x + (2 ^ w : Nat) else x := by
    rw [wrapN, Int.toNat_of_nonneg (Int.emod_nonneg _ (by omega))]
    split
    · rw [← Int.add_emod_right, Int.emod_eq_of_lt] <;> omega
    · exact Int.emod_eq_of_lt (by omega) (by omega)
  have below : wrapN w x < 2 ^ w := by omega
  rw [sgn, Nat.mod_eq_of_lt below]
  split <;> omega

/-- A quotient rounded toward minus infinity fits where its dividend does. -/
theorem fitsLane_ediv {w : Nat} {x : Int} (fits : FitsLane w x) {k : Int} (pos : 0 < k) : FitsLane w (x / k) := by
  rw [fitsLane_iff] at fits ⊢
  obtain ⟨least, greatest⟩ := fits
  have half : (0 : Int) ≤ (2 ^ (w - 1) : Nat) := Int.natCast_nonneg _
  constructor
  · rw [Int.le_ediv_iff_mul_le pos]
    nlinarith
  · rw [Int.ediv_lt_iff_lt_mul pos]
    nlinarith

/-- A value that fits its lane saturates to itself, without V. -/
theorem satInt_of_fits {w : Nat} {x : Int} (fits : FitsLane w x) : satInt w x = (x, false) := by
  rw [satInt, if_neg (not_lt.2 fits.2), if_neg (not_lt.2 fits.1)]

/-- ASR by a count below the width rounds toward minus infinity (R69). -/
theorem sgn_asrN {w n : Nat} (pos : 0 < w) (below : n < w) (a : Nat) : sgn w (asrN w a n) = Int.fdiv (sgn w a) (2 ^ n) := by
  have fits : FitsLane w (sgn w a / (2 ^ n : Nat)) := fitsLane_ediv (fitsLane_sgn pos a) (Int.natCast_pos.2 (Nat.two_pow_pos n))
  rw [asrN, if_neg (Nat.not_le.2 below), sgn_wrapN pos fits, Int.fdiv_eq_ediv_of_nonneg _ (by positivity)]
  push_cast
  rfl

/-- NARROW by a count below 64 divides toward zero (R68, R69). -/
theorem sgn_narrowInt {w n : Nat} {x : Int} (pos : 0 < w) (below : n < 64) (fits : FitsLane w (x.tdiv (2 ^ n))) :
    sgn w (narrowInt w x n).1 = x.tdiv (2 ^ n) := by
  have divisor : ((2 ^ min n 64 : Nat) : Int) = 2 ^ n := by rw [min_eq_left below.le]; push_cast; rfl
  rw [narrowInt, divisor, satRes, satInt_of_fits fits]
  exact sgn_wrapN pos fits

theorem shlN_of_lt {w n : Nat} (below : n < w) (a : Nat) : shlN w a n = a * 2 ^ n % 2 ^ w := if_neg (Nat.not_le.2 below)

theorem lsrN_of_lt {w n a : Nat} (below : n < w) (fits : a < 2 ^ w) : lsrN w a n = a / 2 ^ n := by
  rw [lsrN, if_neg (Nat.not_le.2 below), Nat.mod_eq_of_lt fits]

/-- Settles O17: a quotient of a value that fits its lane is read back from its encoding; ASR's is rounded toward minus infinity,
NARROW's toward zero. -/
theorem shiftsAndNarrowing : Obligations.ShiftsAndNarrowing :=
  ⟨fun _ a _ pos below fits => ⟨shlN_of_lt below a, lsrN_of_lt below fits, sgn_asrN pos below a⟩,
    fun _ _ _ pos below least greatest => sgn_narrowInt pos below ⟨least, greatest⟩,
    sgn_narrowInt (w := 8) (by decide) (by decide) ⟨by decide, by decide⟩, sgn_asrN (w := 8) (by decide) (by decide) 0xFD⟩

end Sys2Proof.Proofs
end

section
/-! SUPPORT. Cargos put on clusters: clip slots, locks and the resident image (R77, R88, R215, R245, R421). -/

namespace Sys2Proof.Proofs
open Sys2Proof.Machine Sys2Proof.Laws

/-- `t` has the mailboxes, cargos, package DRAM, host memory and configuration of `s`. -/
@[simp] abbrev SameOutside (s t : State) : Prop :=
  t.mboxes = s.mboxes ∧ t.cargos = s.cargos ∧ t.dram = s.dram ∧ t.host = s.host ∧ t.cfg = s.cfg

theorem SameOutside.trans {s t u : State} (st : SameOutside s t) (tu : SameOutside t u) : SameOutside s u := by
  simp_all

/-- A cluster's memory and clip slots. -/
def storesOf (k : Cluster) : Mem × List ClipSlot := (k.mem, k.slots)

/-- `t` has also the cluster memories and clip slots of `s`. -/
@[simp] abbrev SameStores (s t : State) : Prop :=
  SameOutside s t ∧ ∀ d : Fin 4, storesOf t.clusters[d] = storesOf s.clusters[d]

theorem SameStores.trans {s t u : State} (st : SameStores s t) (tu : SameStores t u) : SameStores s u :=
  ⟨st.1.trans tu.1, fun d => (tu.2 d).trans (st.2 d)⟩

theorem foldl_sameStores {α : Type} {f : State → α → State} (h : ∀ s a, SameStores s (f s a)) (l : List α) (s : State) :
    SameStores s (l.foldl f s) :=
  foldl_frame SameStores (fun _ => by simp) (fun _ _ _ => SameStores.trans) f h l s

theorem modCl_other (s : State) {c d : Fin 4} (ne : d ≠ c) (f : Cluster → Cluster) : (s.modCl c f).clusters[d] = s.clusters[d] :=
  vmod_other _ _ _ _ ne

/-- A change of a cluster that leaves what it stores. -/
theorem modCl_sameStores (s : State) (c : Fin 4) {f : Cluster → Cluster} (h : ∀ k, storesOf (f k) = storesOf k) :
    SameStores s (s.modCl c f) := by
  refine ⟨by simp, fun d => ?_⟩
  by_cases e : d = c
  · subst e
    simp only [Fin.getElem_fin, modCl_same]
    exact h _
  · rw [modCl_other s e]

/-! ### Locks -/

/-- The end of a wait is a trace packet and a count. -/
theorem waitEnded_frame (s : State) (w : Waiter) (result : Nat) : ∃ x, s.waitEnded w result = { s with trc := x } := by
  unfold State.waitEnded
  split
  · exact ⟨s.trc, rfl⟩
  · next c hi _ =>
    dsimp only
    obtain ⟨x, h⟩ := trace_frame s (clusterUnit c) 4 0x21 hi (leBytes 2 w.lock ++ leBytes 1 result)
    rw [h]
    split
    · exact ⟨_, rfl⟩
    · split <;> exact ⟨_, rfl⟩

@[simp] theorem release_sameStores (s : State) (w : Waiter) : SameStores s (s.release w) := by
  unfold State.release
  obtain ⟨x, h⟩ := waitEnded_frame s w 0
  rw [h]
  dsimp only
  split <;> simp

@[simp] theorem setKeeper_sameStores (s : State) (k : KeeperId) (v : Keeper) : SameStores s (s.setKeeper k v) := by
  cases k with
  | none => simp [State.setKeeper]
  | some c => exact modCl_sameStores s c fun _ => rfl

@[simp] theorem settle_sameStores (s : State) (k : KeeperId) (lock : Nat) : SameStores s (s.settle k lock) := by
  unfold State.settle
  exact (setKeeper_sameStores s k _).trans (foldl_sameStores release_sameStores _ _)

/-- Initial levels end waits and change no memory (R245). -/
theorem initLocks_sameStores (s : State) (g : Cargo) (c : Fin 4) : SameStores s (s.initLocks g c) := by
  unfold State.initLocks
  split
  · simp
  · refine foldl_sameStores (fun s x => ?_) _ s
    refine SameStores.trans ?_ (settle_sameStores _ _ _)
    exact modCl_sameStores s c fun _ => rfl

/-! ### One cluster -/

/-- A resident image changes the memory of its cluster, and nothing else. -/
theorem placeResident_eq (s : State) (g : Cargo) (c : Fin 4) :
    ∃ mem, s.placeResident g c = s.modCl c (fun k => { k with mem := mem }) := by
  unfold State.placeResident State.clWrite
  split
  · exact ⟨_, rfl⟩
  · refine ⟨s.clusters[c].mem, ?_⟩
    rw [State.modCl, vmod, vset]
    exact congrArg (fun v => { s with clusters := v }) (Vector.set_getElem_self c.isLt).symm

/-- What CARGO_LOAD does on one cluster. -/
def putCargo (rd : Rd) (g : Cargo) (s : State) (c : Fin 4) : State :=
  let l := cargoSlots rd (CargoHdr.read rd) g.handle (s.freeSlots c (CargoHdr.read rd).slots)
  ((s.modCl c (fun k => { k with slots := k.slots ++ l, reloads := k.reloads.filter (fun r => r.1 ≠ g.handle) })).placeResident
    g c).initLocks g c

theorem freeSlots_congr {s t : State} {c : Fin 4} (h : t.clusters[c].slots = s.clusters[c].slots) (n : Nat) :
    t.freeSlots c n = s.freeSlots c n := by
  unfold State.freeSlots
  rw [h]

/-- `t` is `s` after a cargo came to the clusters `cl`: their clip slots, their memories, the locks and what waited for them. -/
abbrev Put (rd : Rd) (g : Cargo) (cl : List (Fin 4)) (s t : State) : Prop :=
  SameOutside s t ∧
    (∀ c ∈ cl, t.clusters[c].slots =
      s.clusters[c].slots ++ cargoSlots rd (CargoHdr.read rd) g.handle (s.freeSlots c (CargoHdr.read rd).slots)) ∧
    ∀ c, c ∉ cl → storesOf t.clusters[c] = storesOf s.clusters[c]

theorem slots_of_stores {k j : Cluster} (h : storesOf k = storesOf j) : k.slots = j.slots := congrArg Prod.snd h

theorem mem_of_stores {k j : Cluster} (h : storesOf k = storesOf j) : k.mem = j.mem := congrArg Prod.fst h

theorem putCargo_put (rd : Rd) (g : Cargo) (s : State) (c : Fin 4) : Put rd g [c] s (putCargo rd g s c) := by
  unfold putCargo
  dsimp only
  obtain ⟨mem, placed⟩ := placeResident_eq (s.modCl c _) g c
  rw [placed]
  obtain ⟨outside, stores⟩ := initLocks_sameStores (State.modCl (State.modCl s c _) c fun k => { k with mem := mem }) g c
  refine ⟨SameOutside.trans (by simp) outside, fun d hd => ?_, fun d hd => ?_⟩
  · rw [List.mem_singleton.1 hd, slots_of_stores (stores c)]
    simp
  · have ne : d ≠ c := fun e => hd (List.mem_singleton.2 e)
    rw [stores d, modCl_other _ ne, modCl_other _ ne]

/-- A cargo that comes to clusters one after another. -/
theorem foldl_putCargo (rd : Rd) (g : Cargo) {cl : List (Fin 4)} (distinct : cl.Nodup) (s : State) :
    Put rd g cl s (cl.foldl (putCargo rd g) s) := by
  induction cl generalizing s with
  | nil => exact ⟨by simp, by simp, fun _ _ => rfl⟩
  | cons c cl ih =>
    obtain ⟨new, distinct⟩ := List.nodup_cons.1 distinct
    obtain ⟨outside, slots, stores⟩ := putCargo_put rd g s c
    obtain ⟨outside', slots', stores'⟩ := ih distinct (putCargo rd g s c)
    refine ⟨outside.trans outside', fun d hd => ?_, fun d hd => ?_⟩
    · obtain rfl | hd := List.mem_cons.1 hd
      · rw [List.foldl_cons, slots_of_stores (stores' d new), slots d (List.mem_singleton.2 rfl)]
      · have other : d ∉ [c] := fun e => new (List.mem_singleton.1 e ▸ hd)
        have before := slots_of_stores (stores d other)
        rw [List.foldl_cons, slots' d hd, freeSlots_congr before, before]
    · obtain ⟨other, later⟩ := not_or.1 (mt List.mem_cons.2 hd)
      exact (stores' d later).trans (stores d (mt List.mem_singleton.1 other))

end Sys2Proof.Proofs
end

section
/-! SUPPORT. CARGO_LOAD (R77, R200, R214, R215, R421). -/

namespace Sys2Proof.Proofs
open Sys2Proof.Machine Sys2Proof.Laws

variable {s : State} {m : Fin 8} {ctx : Nat} {p : List Byte}

/-- A command that passes each of its checks. -/
theorem checked_of_passed {l : List (Bool × Reply)} (h : ∀ x ∈ l, x.1 = false) (f : State → State × Reply) : s.checked l f = f s :=
  checked_of_none (List.find?_eq_none.2 fun x hx => by rw [h x hx]; exact Bool.false_ne_true) f

/-- A test of a value that is there, decided on the value: rewriting the test instead has the kernel evaluate its comparison. -/
theorem any_some_eq_false {α : Type} {f : α → Bool} {x : α} (h : f x = false) : (some x).any f = false := h

/-- The clusters a mask names. -/
def maskClusters (mask : Nat) : List (Fin 4) := (List.finRange 4).filter (fun c => bit mask c.val)

theorem mem_maskClusters {mask : Nat} {c : Fin 4} : c ∈ maskClusters mask ↔ bit mask c.val = true := by
  simp [maskClusters]

theorem maskClusters_nodup (mask : Nat) : (maskClusters mask).Nodup := (List.nodup_finRange 4).filter _

/-- The image at an address of DRAM. -/
def imageRd (s : State) (base : Nat) : Rd := fun o n => s.dram.readBytes (base + o) n

/-- Mailbox m holds a CARGO_LOAD of legal fields taken, of an image without poison in a RETAIN region `r` of its context whose partition
is powered (R214, R421). -/
structure LoadsFrom (s : State) (m : Fin 8) (ctx : Nat) (p : List Byte) (q : Fin 4) (r : Region) : Prop where
  taken : s.holdsTaken m 0x0301 ctx p
  aligned : field p 4 4 % 64 = 0
  named : 1 ≤ field p 12 1
  fourClusters : field p 12 1 ≤ 15
  reserved : field p 13 3 = 0
  found : s.region? (field p 0 4) = some (q, r)
  own : r.owner = ctx
  retain : r.retain = true
  powered : s.on (clusterReach q) = true
  idle : s.regionBusy (field p 0 4) = false
  inside : field p 4 4 + field p 8 4 ≤ r.len
  clean : s.poisoned (r.base + field p 4 4) (field p 8 4) = []

/-- An image passes the checks of its records, and the clusters `cl` have place for it (R77, R200, R214, R215, R245, R257, R421,
R646). -/
structure ImagePasses (s : State) (ctx len : Nat) (rd : Rd) (cl : List (Fin 4)) : Prop where
  format : CargoHdr.format rd len = none
  descriptors : cargoDesc rd (CargoHdr.read rd) cl s.inRegions
    (fun c => (s.cargos.filter (fun g => c ∈ g.clusters)).flatMap (·.prot)) = none
  resident : s.residentBad (CargoHdr.read rd) cl = false
  adaptation : ∀ i, i < (CargoHdr.read rd).points → s.adaptBad (pointOf rd (CargoHdr.read rd) i) cl = false
  sets : setForeign rd (cargoSets (CargoHdr.read rd) (cargoReach rd (CargoHdr.read rd))) (s.inRetain ctx) = none
  locks : ∀ g ∈ s.cargos, ∀ c ∈ g.clusters, c ∈ cl →
    overlap (CargoHdr.read rd).lockFirst (CargoHdr.read rd).lockN g.lockFirst g.lockInit.length = false
  handles : s.cargos.length < 64
  slots : ∀ c ∈ cl, s.clusters[c].slots.length + (CargoHdr.read rd).slots ≤ 512

/-- A valid image becomes the last of the cargos, under the lowest free handle, and comes to its clusters (R421). -/
theorem loadCargo_spec {h : Nat} (free : (List.range 255).find? (fun i => (s.cargo? i).isNone) = some h)
    (ctx region base : Nat) (rd : Rd) (cl : List (Fin 4)) :
    ∃ g : Cargo, s.loadCargo ctx region base rd cl =
        (cl.foldl (putCargo rd g) { s with cargos := s.cargos ++ [g] }, ok (leBytes 1 h ++ zeros 3)) ∧
      g.handle = h ∧ g.owner = ctx ∧ g.region = region ∧ g.base = base ∧ g.clusters = cl ∧ g.slots = (CargoHdr.read rd).slots := by
  unfold State.loadCargo
  rw [free]
  exact ⟨_, rfl, rfl, rfl, rfl, rfl, rfl, rfl⟩

theorem exec_cargoLoad {q : Fin 4} {r : Region} (request : LoadsFrom s m ctx p q r)
    (image : ImagePasses s ctx (field p 8 4) (imageRd s (r.base + field p 4 4)) (maskClusters (field p 12 1))) :
    let x := s.loadCargo ctx (field p 0 4) (r.base + field p 4 4) (imageRd s (r.base + field p 4 4)) (maskClusters (field p 12 1))
    exec (.cargoLoad m) s = .next (x.1.reply m x.2) := by
  obtain ⟨taken, aligned, named, fourClusters, reserved, found, own, retain, powered, idle, inside, clean⟩ := request
  obtain ⟨format, descriptors, resident, adaptation, sets, locks, handles, slots⟩ := image
  change execCargoLoad m s = _
  unfold execCargoLoad
  rw [answer_holdsTaken taken]
  unfold imageRd maskClusters at *
  simp only [found, Option.map_some, Option.getD_some]
  rw [checked_of_passed]
  · simp only [format, descriptors]
    rw [checked_of_passed]
    simp only [List.forall_mem_cons, List.not_mem_nil]
    refine ⟨resident, ?adaptation, by rw [sets]; rfl, ?locks, decide_eq_false (by omega), ?slots, fun _ h => h.elim⟩
    case adaptation => simpa [List.find?_eq_none] using adaptation
    case locks => simpa using locks
    case slots => simpa using slots
  · simp only [List.forall_mem_cons, List.not_mem_nil]
    exact ⟨decide_eq_false (by omega), decide_eq_false (by omega), decide_eq_false (by omega), rfl,
      any_some_eq_false (by simp [own, retain]), any_some_eq_false (by simp [powered]), idle,
      any_some_eq_false (decide_eq_false (not_lt.2 inside)), by rw [clean]; rfl, fun _ h => h.elim⟩

/-- CARGO_LOAD of an image that passes every check (R421). -/
theorem cargoLoad_loads {q : Fin 4} {r : Region} {h : Nat} (request : LoadsFrom s m ctx p q r) {rd : Rd} {cl : List (Fin 4)}
    (image : imageRd s (r.base + field p 4 4) = rd) (mask : maskClusters (field p 12 1) = cl)
    (passes : ImagePasses s ctx (field p 8 4) rd cl) (free : (List.range 255).find? (fun i => (s.cargo? i).isNone) = some h) :
    ∃ t g, exec (.cargoLoad m) s = .next t ∧ s.replied t m (ok (leBytes 1 h ++ zeros 3)) ∧ t.cargos = s.cargos ++ [g] ∧
      g.handle = h ∧ g.owner = ctx ∧ g.region = field p 0 4 ∧ g.base = r.base + field p 4 4 ∧ g.clusters = cl ∧
      g.slots = (CargoHdr.read rd).slots ∧ t.dram = s.dram ∧ t.host = s.host ∧ t.cfg = s.cfg ∧
      (∀ c ∈ cl, t.clusters[c].slots =
        s.clusters[c].slots ++ cargoSlots rd (CargoHdr.read rd) h (s.freeSlots c (CargoHdr.read rd).slots)) ∧
      ∀ c, c ∉ cl → t.clusters[c].mem = s.clusters[c].mem ∧ t.clusters[c].slots = s.clusters[c].slots := by
  subst image
  have executed := exec_cargoLoad request (mask ▸ passes)
  rw [mask] at executed
  generalize imageRd s (r.base + field p 4 4) = rd at *
  obtain ⟨g, loaded, handle, owner, region, base, clusters, number⟩ :=
    loadCargo_spec free ctx (field p 0 4) (r.base + field p 4 4) rd cl
  obtain ⟨⟨mboxes, cargos, dram, host, cfg⟩, slots, stores⟩ :=
    foldl_putCargo rd g (mask ▸ maskClusters_nodup (field p 12 1)) { s with cargos := s.cargos ++ [g] }
  rw [loaded] at executed
  obtain ⟨_, _, _, frame⟩ := reply_frame (cl.foldl (putCargo rd g) { s with cargos := s.cargos ++ [g] }) m
    (ok (leBytes 1 h ++ zeros 3))
  refine ⟨_, g, executed, replied_reply s _ mboxes m _, ?_⟩
  rw [frame]
  subst handle
  exact ⟨cargos, rfl, owner, region, base, clusters, number, dram, host, cfg, slots,
    fun c hc => ⟨mem_of_stores (stores c hc), slots_of_stores (stores c hc)⟩⟩

end Sys2Proof.Proofs
end

section
/-! SUPPORT. CARGO_UNLOAD and CARGO_INFO (R422, R423). -/

namespace Sys2Proof.Proofs
open Sys2Proof.Machine Sys2Proof.Laws

variable {s : State} {m : Fin 8} {ctx : Nat} {p : List Byte} {g : Cargo}

/-- The checks of the cargo a command names pass where it is there and, if the command asks for it, the context's own. -/
theorem cargoTarget_passed {t : Taken} {owner : Bool} (found : s.cargo? (field t.payload 0 1) = some g)
    (own : owner = true → g.owner = t.context) : ∀ x ∈ s.cargoTarget t owner, x.1 = false := by
  simp only [State.cargoTarget, List.forall_mem_cons, List.not_mem_nil, found]
  exact ⟨rfl, by simpa using own, fun _ h => h.elim⟩

/-- The state without the cargo of a handle, its clip slots and its adapters (R422). -/
def unloaded (s : State) (c : Nat) : State :=
  { s with
    cargos := s.cargos.filter (fun g => g.handle ≠ c), adapters := s.adapters.filter (fun a => a.cargo ≠ c),
    clusters := s.clusters.map (fun (k : Cluster) =>
      { k with slots := k.slots.filter (fun t => t.cargo ≠ c), reloads := k.reloads.filter (fun r => r.1 ≠ c) }) }

theorem cargo_unloaded (s : State) (c : Nat) : (unloaded s c).cargo? c = none := by
  simp [State.cargo?, unloaded]

theorem exec_cargoUnload (taken : s.holdsTaken m 0x0302 ctx p) (found : s.cargo? (field p 0 1) = some g) (reserved : field p 1 3 = 0)
    (own : g.owner = ctx) (idle : (s.cargoRegions g).any s.regionBusy = false) (unused : s.cargoUsed (field p 0 1) = false) :
    exec (.cargoUnload m) s = .next ((unloaded s (field p 0 1)).reply m (ok [])) := by
  change execCargoUnload m s = _
  unfold execCargoUnload
  rw [answer_holdsTaken taken]
  dsimp only
  rw [checked_of_passed]
  · rfl
  · simp only [List.forall_mem_append, List.forall_mem_cons, List.not_mem_nil]
    exact ⟨⟨⟨decide_eq_false (by omega), fun _ h => h.elim⟩, cargoTarget_passed found fun _ => own⟩, unused,
      by simpa [found] using idle, fun _ h => h.elim⟩

/-- CARGO_UNLOAD of a cargo that nothing names (R422). -/
theorem cargoUnload_unloads (taken : s.holdsTaken m 0x0302 ctx p) (found : s.cargo? (field p 0 1) = some g)
    (reserved : field p 1 3 = 0) (own : g.owner = ctx) (idle : (s.cargoRegions g).any s.regionBusy = false)
    (unused : s.cargoUsed (field p 0 1) = false) :
    ∃ t, exec (.cargoUnload m) s = .next t ∧ s.replied t m (ok []) ∧ t.cargo? (field p 0 1) = none ∧
      t.cargos = s.cargos.filter (fun g => g.handle ≠ field p 0 1) ∧ t.adapters = s.adapters.filter (fun a => a.cargo ≠ field p 0 1) ∧
      t = { s with
        cargos := t.cargos, adapters := t.adapters, clusters := t.clusters, mboxes := t.mboxes, glb := t.glb, pcie := t.pcie } ∧
      ∀ k : Fin 4, t.clusters[k] = { s.clusters[k] with
        slots := s.clusters[k].slots.filter (fun x => x.cargo ≠ field p 0 1),
        reloads := s.clusters[k].reloads.filter (fun x => x.1 ≠ field p 0 1) } := by
  obtain ⟨_, _, _, frame⟩ := reply_frame (unloaded s (field p 0 1)) m (ok [])
  refine ⟨_, exec_cargoUnload taken found reserved own idle unused, replied_reply s (unloaded s _) rfl m _, ?_⟩
  rw [frame]
  exact ⟨cargo_unloaded s _, rfl, rfl, rfl, fun k => by simp [unloaded]⟩

/-- CARGO_INFO describes the cargo and changes nothing (R423). -/
theorem cargoInfo_answers (taken : s.holdsTaken m 0x0303 ctx p) (found : s.cargo? (field p 0 1) = some g)
    (reserved : field p 1 3 = 0) :
    Answers (.cargoInfo m) s m (ok (leBytes 1 ((g.clusters.map (fun k => 2 ^ k.val)).sum) ++ leBytes 1 g.points.length ++
      leBytes 2 g.videoL ++ leBytes 2 g.videoS ++ leBytes 1 g.audioA ++ [0] ++ leBytes 2 g.slots ++ leBytes 2 g.lockInit.length ++
      leBytes 4 g.lockFirst ++
      g.points.flatMap (fun x => leBytes 4 x.headerOff ++ leBytes 4 x.budget4 ++ leBytes 4 x.budget3 ++ leBytes 4 (b2n x.alt)))) := by
  refine answers_of_reply ?_
  change execCargoInfo m s = _
  unfold execCargoInfo
  rw [answer_holdsTaken taken]
  dsimp only
  rw [checked_of_passed]
  · simp only [found]
  · simp only [List.forall_mem_append, List.forall_mem_cons, List.not_mem_nil]
    exact ⟨⟨decide_eq_false (by omega), fun _ h => h.elim⟩, cargoTarget_passed (t := ⟨0x0303, ctx, p⟩) found fun h => nomatch h⟩

end Sys2Proof.Proofs
end

section
/-! SUPPORT. CARGO_CEILING of slots that are not linked and make no step (R84, R424). -/

namespace Sys2Proof.Proofs
open Sys2Proof.Machine Sys2Proof.Laws

variable {s : State} {m : Fin 8} {ctx : Nat} {p : List Byte} {g : Cargo} {c n : Nat} {k : Fin 4} {x : ClipSlot}

/-- A slot with a ceiling of the host in force, as after a restore (R84). -/
def ceilSlot (v : W32) (t : ClipSlot) : ClipSlot := { (t.restore v 0).1 with next := none }

theorem slot_found (found : s.slot? k c n = some x) : x.cargo = c ∧ x.slot = n := by
  simpa using List.find?_some found

theorem slot_congr {t : State} (h : t.clusters[k] = s.clusters[k]) (c n : Nat) : t.slot? k c n = s.slot? k c n := by
  unfold State.slot?
  rw [h]

/-- The slot changed, after a change that keeps its cargo and number. -/
theorem slot_modSlot (s : State) (k : Fin 4) (c n : Nat) {f : ClipSlot → ClipSlot} (cargo : ∀ t, (f t).cargo = t.cargo)
    (slot : ∀ t, (f t).slot = t.slot) : (s.modSlot k c n f).slot? k c n = (s.slot? k c n).map f := by
  have names : (fun t => decide (t.cargo = c) && decide (t.slot = n)) ∘ (fun t => if t.cargo = c ∧ t.slot = n then f t else t) =
      fun t : ClipSlot => decide (t.cargo = c) && decide (t.slot = n) := by
    funext t
    simp only [Function.comp]
    split
    · rw [cargo, slot]
    · rfl
  simp only [State.slot?, State.modSlot, Fin.getElem_fin, modCl_same, List.find?_map, names]
  refine Option.map_congr fun t found => if_pos ?_
  simpa using List.find?_some found

theorem clipEvent_sameWork (s : State) (t : ClipSlot) (cs : List (Fin 4)) (e : Option ClipEv) : SameWork s (s.clipEvent t cs e) := by
  unfold State.clipEvent
  split
  · simp
  · exact event_sameWork ..

theorem clipEvent_samePower (s : State) (t : ClipSlot) (cs : List (Fin 4)) (e : Option ClipEv) : SamePower s (s.clipEvent t cs e) := by
  unfold State.clipEvent
  split
  · exact ⟨rfl, rfl⟩
  · exact event_samePower ..

/-- A change of a cluster that leaves its memory, seen from each cluster. -/
theorem modCl_mem (s : State) {f : Cluster → Cluster} (h : ∀ x, (f x).mem = x.mem) (d : Fin 4) :
    (s.modCl k f).clusters[d].mem = s.clusters[d].mem := by
  simpa using congrArg (fun v : Vector Mem 4 => v[d]) (modCl_mems s k h)

/-- A reload of a slot that is not linked, with no step in progress or waiting for its evaluation, is applied at once (R84). -/
theorem reloadSlot_atOnce (found : s.slot? k c n = some x) (unlinked : x.linked = false) (idle : x.live = [])
    (up : s.clusterUp k = true) (v : W32) :
    s.reloadSlot k x v = ((s.keepReload [k] x v).clipEvent x [k] (x.restore v 0).2).modSlot k c n (ceilSlot v) := by
  obtain ⟨rfl, rfl⟩ := slot_found found
  simp [State.reloadSlot, unlinked, found, idle, up]
  rfl

/-- `t` is `s` with the ceiling `v` in force, as after a restore, for slot `n` of cargo `c` on the clusters `cl`, and every other
cluster as it was. -/
abbrev Ceiled (c n : Nat) (v : W32) (cl : List (Fin 4)) (s t : State) : Prop :=
  t.mboxes = s.mboxes ∧ t.dram = s.dram ∧ t.dev = s.dev ∧ (∀ d : Fin 4, t.clusters[d].mem = s.clusters[d].mem) ∧
    (∀ d ∈ cl, t.slot? d c n = (s.slot? d c n).map (ceilSlot v)) ∧ ∀ d, d ∉ cl → t.clusters[d] = s.clusters[d]

theorem reloadSlot_ceiled (found : s.slot? k c n = some x) (unlinked : x.linked = false) (idle : x.live = [])
    (up : s.clusterUp k = true) (v : W32) : Ceiled c n v [k] s (s.reloadSlot k x v) := by
  rw [reloadSlot_atOnce found unlinked idle up]
  have kept : (s.keepReload [k] x v).slot? k c n = s.slot? k c n := by simp [State.keepReload, State.slot?]
  obtain ⟨mboxes, -, clusters, dram, -⟩ := clipEvent_sameWork (s.keepReload [k] x v) x [k] (x.restore v 0).2
  obtain ⟨-, dev⟩ := clipEvent_samePower (s.keepReload [k] x v) x [k] (x.restore v 0).2
  refine ⟨mboxes, dram, dev, fun d => ?_, fun d hd => ?_, fun d hd => ?_⟩
  · have keptMem : (s.keepReload [k] x v).clusters[d].mem = s.clusters[d].mem := modCl_mem s (fun _ => by rfl) d
    exact (modCl_mem _ (fun _ => by rfl) d).trans ((congrArg (fun l : Vector Cluster 4 => l[d].mem) clusters).trans keptMem)
  · rw [List.mem_singleton.1 hd, slot_modSlot (f := ceilSlot v) _ _ _ _ (fun _ => rfl) fun _ => rfl, ← kept,
      slot_congr (congrArg (fun l : Vector Cluster 4 => l[k]) clusters)]
  · have ne : d ≠ k := fun e => hd (List.mem_singleton.2 e)
    rw [State.modSlot, modCl_other _ ne, clusters]
    exact modCl_other s ne _

/-- Slot `n` of cargo `c` is on a cluster that is up, is not linked, and makes no step (R84). -/
def SlotIdle (s : State) (c n : Nat) (k : Fin 4) : Prop :=
  s.clusterUp k = true ∧ ∃ x, s.slot? k c n = some x ∧ x.linked = false ∧ x.live = []

theorem SlotIdle.congr {t : State} (idle : SlotIdle s c n k) (dev : t.dev = s.dev) (same : t.clusters[k] = s.clusters[k]) :
    SlotIdle t c n k := by
  unfold SlotIdle State.clusterUp State.on at *
  rwa [slot_congr same, dev, same]

/-- What CARGO_CEILING does on one cluster. -/
def ceilOn (c n : Nat) (v : W32) (s : State) (k : Fin 4) : State :=
  match s.slot? k c n with
  | some x => s.reloadSlot k x v
  | none => s

theorem ceilOn_ceiled (idle : SlotIdle s c n k) (v : W32) : Ceiled c n v [k] s (ceilOn c n v s k) := by
  obtain ⟨up, x, found, unlinked, none⟩ := idle
  rw [ceilOn, found]
  exact reloadSlot_ceiled found unlinked none up v

/-- A ceiling put in force on clusters one after another. -/
theorem foldl_ceilOn {cl : List (Fin 4)} (distinct : cl.Nodup) (idle : ∀ k ∈ cl, SlotIdle s c n k) (v : W32) :
    Ceiled c n v cl s (cl.foldl (ceilOn c n v) s) := by
  induction cl generalizing s with
  | nil => exact ⟨rfl, rfl, rfl, fun _ => rfl, by simp, fun _ _ => rfl⟩
  | cons k cl ih =>
    obtain ⟨new, distinct⟩ := List.nodup_cons.1 distinct
    obtain ⟨first, idle⟩ := List.forall_mem_cons.1 idle
    obtain ⟨mboxes, dram, dev, mem, slot, others⟩ := ceilOn_ceiled first v
    have other : ∀ d ∈ cl, d ∉ [k] := fun d hd e => new (List.mem_singleton.1 e ▸ hd)
    obtain ⟨mboxes', dram', dev', mem', slot', others'⟩ :=
      ih distinct fun d hd => (idle d hd).congr dev (others d (other d hd))
    refine ⟨mboxes'.trans mboxes, dram'.trans dram, dev'.trans dev, fun d => (mem' d).trans (mem d), fun d hd => ?_,
      fun d hd => ?_⟩
    · obtain rfl | hd := List.mem_cons.1 hd
      · exact (slot_congr (others' d new) c n).trans (slot d (List.mem_singleton.2 rfl))
      · exact (slot' d hd).trans (congrArg _ (slot_congr (others d (other d hd)) c n))
    · obtain ⟨ne, later⟩ := not_or.1 (mt List.mem_cons.2 hd)
      exact (others' d later).trans (others d (mt List.mem_singleton.1 ne))

/-- Mailbox m holds a CARGO_CEILING of legal fields taken, of a slot of a cargo of its context on clusters that run it (R424). -/
structure Ceils (s : State) (m : Fin 8) (ctx : Nat) (p : List Byte) (g : Cargo) : Prop where
  taken : s.holdsTaken m 0x0304 ctx p
  found : s.cargo? (field p 0 1) = some g
  own : g.owner = ctx
  named : 1 ≤ field p 1 1
  fourClusters : field p 1 1 ≤ 15
  slot : field p 2 2 < g.slots
  value : posNormal (field p 4 4) = true ∨ field p 4 4 = 0x7F800000
  clusters : ∀ k ∈ maskClusters (field p 1 1), k ∈ g.clusters
  idle : ∀ k ∈ maskClusters (field p 1 1), SlotIdle s (field p 0 1) (field p 2 2) k

/-- No slot named is linked. -/
theorem none_linked {cl : List (Fin 4)} (idle : ∀ k ∈ cl, SlotIdle s c n k) :
    cl.any (fun k => ((s.slot? k c n).map (·.linked)).getD false) = false := by
  refine List.any_eq_false.2 fun k hk => ?_
  obtain ⟨-, x, found, unlinked, -⟩ := idle k hk
  simp [found, unlinked]

theorem exec_cargoCeiling (h : Ceils s m ctx p g) :
    exec (.cargoCeiling m) s = .next (((maskClusters (field p 1 1)).foldl
      (ceilOn (field p 0 1) (field p 2 2) (BitVec.ofNat 32 (field p 4 4))) s).reply m (ok [])) := by
  obtain ⟨taken, found, own, named, fourClusters, slot, value, clusters, idle⟩ := h
  change execCargoCeiling m s = _
  unfold execCargoCeiling
  rw [answer_holdsTaken taken]
  dsimp only
  rw [checked_of_passed]
  · have unlinked := none_linked idle
    unfold maskClusters at *
    rw [unlinked]
    rfl
  · simp only [List.forall_mem_append, List.forall_mem_cons, List.not_mem_nil, found]
    exact ⟨cargoTarget_passed found fun _ => own, decide_eq_false (by omega),
      any_some_eq_false (congrArg not (List.all_eq_true.2 fun k hk => decide_eq_true (clusters k hk))),
      any_some_eq_false (decide_eq_false (not_le.2 slot)), by rwa [Bool.not_eq_false', Bool.or_eq_true, decide_eq_true_eq],
      fun _ h => h.elim⟩

/-- CARGO_CEILING of slots that are not linked and make no step (R84, R424). -/
theorem cargoCeiling_ceils (h : Ceils s m ctx p g) :
    ∃ t, exec (.cargoCeiling m) s = .next t ∧ s.replied t m (ok []) ∧ t.dram = s.dram ∧
      ∀ k : Fin 4, t.clusters[k].mem = s.clusters[k].mem ∧
        (bit (field p 1 1) k.val = true → ∃ y, t.slot? k (field p 0 1) (field p 2 2) = some y ∧
          y.ceiling = BitVec.ofNat 32 (field p 4 4) ∧ y.cCal = BitVec.ofNat 32 (field p 4 4) ∧ y.inFallback = false ∧ y.streak = 0) ∧
        (bit (field p 1 1) k.val = false → t.clusters[k].slots = s.clusters[k].slots) := by
  obtain ⟨mboxes, dram, -, mem, slot, others⟩ :=
    foldl_ceilOn (maskClusters_nodup (field p 1 1)) h.idle (BitVec.ofNat 32 (field p 4 4))
  refine ⟨_, exec_cargoCeiling h, replied_reply s _ mboxes m _, ?_⟩
  obtain ⟨_, _, _, frame⟩ := reply_frame ((maskClusters (field p 1 1)).foldl
      (ceilOn (field p 0 1) (field p 2 2) (BitVec.ofNat 32 (field p 4 4))) s) m (ok [])
  rw [frame]
  refine ⟨dram, fun k => ⟨mem k, fun on => ?_, fun off => congrArg Cluster.slots (others k ?_)⟩⟩
  · have here := mem_maskClusters.2 on
    obtain ⟨-, x, found, -⟩ := h.idle k here
    exact ⟨ceilSlot _ x, (slot k here).trans (by rw [found]; rfl), rfl, rfl, rfl, rfl⟩
  · rw [mem_maskClusters, off]
    exact Bool.false_ne_true

end Sys2Proof.Proofs
end

section
/-! The obligation of the cargo commands (R421 to R424). -/

namespace Sys2Proof.Proofs
open Sys2Proof.Machine

/-- Settles O28: each command passes its checks, and what it does on its clusters one after another leaves the others alone. -/
theorem cargosAreLoadedAndDescribed : Obligations.CargosAreLoadedAndDescribed := by
  intro s m ctx p
  refine ⟨fun q r h => ?load, fun g found => ⟨?unload, cargoInfo_answers (found := found), ?ceiling⟩⟩
  case load =>
    intro off len cl rd hd taken aligned named fourClusters reserved region own retain powered idle inside clean format descriptors
      resident adaptation sets locks handles slots free
    exact cargoLoad_loads
      ⟨taken, aligned, named, fourClusters, reserved, region, own, retain, powered, idle, inside, clean⟩ rfl rfl
      ⟨format, descriptors, resident, adaptation, sets, locks, handles, slots⟩ free
  case unload =>
    intro taken reserved own idle unused
    exact cargoUnload_unloads taken found reserved own idle unused
  case ceiling =>
    intro v slot taken own named fourClusters inCargo value each
    refine cargoCeiling_ceils ⟨taken, found, own, named, fourClusters, inCargo, value, fun k hk => ?_, fun k hk => ?_⟩
    · exact (each k (mem_maskClusters.1 hk)).1
    · exact (each k (mem_maskClusters.1 hk)).2

end Sys2Proof.Proofs
end

section
/-! SUPPORT. A run changed together with the share on a core, and the end of an engine's operation (R65, R568). -/

namespace Sys2Proof.Proofs
open Sys2Proof.Machine Sys2Proof.Laws

variable {s t u : State} {co : CoreId} {r : Run} {h : Share}

/-- A run whose share of an index is changed. -/
def withShare (f : Share → Share) (i : Fin 4) (q : Run) : Run := { q with shares := sharesMod f q.shares i }

/-- A run that has gathered numeric flags. -/
def flagged (fl : W16) (q : Run) : Run := { q with flags := q.flags ||| fl }

/-- A run that has repaired further rows. -/
def repairing (n : Nat) (q : Run) : Run := { q with repaired := q.repaired + n }

/-- The run and share that a core holds, by the run's number and the share's index. -/
theorem shareOn_of_holds {rid : Nat} {i : Fin 4} (held : s.holds co = some (rid, i)) :
    s.shareOn co = (s.run? rid).bind (fun r => (r.shares.find? (fun h => h.idx = i)).map (fun h => (r, h))) := by
  unfold State.holds at held
  unfold State.shareOn
  rw [held]

theorem shareOn_of_holds_none (held : s.holds co = none) : s.shareOn co = none := by
  unfold State.holds at held
  unfold State.shareOn
  rw [held]

theorem modShare_eq_modRun {rid : Nat} {i : Fin 4} (held : s.holds co = some (rid, i)) (f : Share → Share) :
    s.modShare co f = s.modRun rid (withShare f i) := by
  unfold State.holds at held
  unfold State.modShare
  rw [held]
  rfl

/-- Two changes of the runs of a number are one. -/
theorem modRun_modRun (s : State) (rid : Nat) (f g : Run → Run) (hf : ∀ q, (f q).rid = q.rid) :
    (s.modRun rid f).modRun rid g = s.modRun rid (g ∘ f) := by
  have runs : (s.sched.runs.map (fun r => if r.rid = rid then f r else r)).map (fun r => if r.rid = rid then g r else r) =
      s.sched.runs.map (fun r => if r.rid = rid then (g ∘ f) r else r) := by
    rw [List.map_map]
    refine List.map_congr_left fun q _ => ?_
    by_cases same : q.rid = rid <;> simp [same, hf]
  exact congrArg (fun l => ({ s with sched := { s.sched with runs := l } } : State)) runs

theorem modRun_repairing_zero (s : State) (rid : Nat) : s.modRun rid (repairing 0) = s := by
  have runs : s.sched.runs.map (fun r => if r.rid = rid then repairing 0 r else r) = s.sched.runs := by
    refine (List.map_congr_left fun q _ => ?_).trans (List.map_id _)
    exact ite_self q
  exact congrArg (fun l => ({ s with sched := { s.sched with runs := l } } : State)) runs

/-- The runs after a change of those of a number, where they depend on the runs before only. -/
theorem modRun_sched_congr (same : t.sched = s.sched) (rid : Nat) (f : Run → Run) : (t.modRun rid f).sched = (s.modRun rid f).sched := by
  unfold State.modRun
  rw [same]

/-- A state whose cores hold the same shares, and whose runs are those of before with the run on a core changed, its share on that
core among it, differs from the first only in that run and share. -/
theorem onlyShare_of_modRun {g : Run → Run} {r1 : Run} {h1 : Share} (on : s.shareOn co = some (r, h))
    (held : ∀ co', t.holds co' = s.holds co') (sched : t.sched = (s.modRun r.rid g).sched) (rid : ∀ q, (g q).rid = q.rid)
    (run : g r = { r1 with shares := (g r).shares }) (share : (g r).shares.find? (fun x => x.idx = h.idx) = some h1)
    (others : ∀ q i, i ≠ h.idx → (g q).shares.find? (fun x => x.idx = i) = q.shares.find? (fun x => x.idx = i)) :
    s.onlyShare t co r1 h1 := by
  obtain ⟨holds, found, -⟩ := shareOn_some on
  have number : r1.rid = r.rid := (congrArg Run.rid run).symm.trans (rid r)
  have runs (x : Nat) : t.run? x = (s.run? x).map (fun q => if q.rid = r.rid then g q else q) := by
    rw [← run_modRun s r.rid x g rid]
    unfold State.run?
    rw [sched]
  refine ⟨by rw [sched]; rfl, ⟨g r, ?_, run⟩, fun co' other => ?_, fun x other => ?_⟩
  · rw [shareOn_of_holds ((held co).trans holds), runs, found]
    simp [share]
  · cases holds' : s.holds co' with
    | none => rw [shareOn_of_holds_none holds', shareOn_of_holds_none ((held co').trans holds')]
    | some p =>
      obtain ⟨x, i⟩ := p
      rw [shareOn_of_holds holds', shareOn_of_holds ((held co').trans holds'), runs]
      cases found' : s.run? x with
      | none => rfl
      | some q =>
        have numbered := run_rid found'
        simp only [Option.map_some, Option.bind_some, Option.map_map, Function.comp_def, Option.map_id']
        split
        · next same =>
          have index : i ≠ h.idx := by
            rintro rfl
            exact other (by rw [holds', holds, ← numbered, same])
          rw [others q i index]
        · rfl
  · rw [runs]
    cases found' : s.run? x with
    | none => rfl
    | some q =>
      have numbered := run_rid found'
      rw [Option.map_some, if_neg (by rw [numbered, ← number]; exact other)]

/-- The share without an operation that is done; with a layer goes the parity error met in a pass of it. -/
def withoutOp (o : EngOp) (h : Share) : Share :=
  { h with ops := h.ops.filter (fun x => x.seq ≠ o.seq), parity := if o.kind = .matrix then none else h.parity }

/-- The share with its engine status words as they are in a state. -/
def synced (s : State) (r : Run) (h : Share) : Share :=
  { h with
    words := (s.engineWord r h .matrix h.words.1, s.engineWord r h .stripe h.words.2.1, s.engineWord r h .attn h.words.2.2) }

theorem syncWords_eq (on : s.shareOn co = some (r, h)) : s.syncWords co = s.modShare co (synced s r) := by
  unfold State.syncWords
  rw [on]
  rfl

/-- The end of an operation changes the runs only. -/
theorem opDone_frame (s : State) (co : CoreId) (r : Run) (o : EngOp) (fl : W16) :
    s.opDone co r o fl = { s with sched := { s.sched with runs := (s.opDone co r o fl).sched.runs } } := by
  have sync (u : State) : u.syncWords co = { u with sched := { u.sched with runs := (u.syncWords co).sched.runs } } := by
    unfold State.syncWords
    split
    · rfl
    · unfold State.modShare
      split <;> rfl
  unfold State.opDone
  rw [sync]
  unfold State.modShare
  split <;> rfl

/-- The share sought, changed in place, is found. -/
theorem find_withShare (f : Share → Share) (hf : ∀ h, (f h).idx = h.idx) {q : Run} {i : Fin 4}
    (found : q.shares.find? (fun x => x.idx = i) = some h) :
    (withShare f i q).shares.find? (fun x => x.idx = i) = some (f h) := by
  have index : h.idx = i := by simpa using List.find?_some found
  unfold withShare
  rw [find_shares _ _ _ _ hf, found, Option.map_some, if_pos index]

/-- A share of another index is found as it was. -/
theorem find_withShare_other (f : Share → Share) (hf : ∀ h, (f h).idx = h.idx) (q : Run) {i j : Fin 4} (other : j ≠ i) :
    (withShare f i q).shares.find? (fun x => x.idx = j) = q.shares.find? (fun x => x.idx = j) := by
  unfold withShare
  rw [find_shares _ _ _ _ hf]
  cases found : q.shares.find? (fun x => x.idx = j) with
  | none => rfl
  | some g =>
    have index : g.idx = j := by simpa using List.find?_some found
    rw [Option.map_some, if_neg (by rw [index]; exact other)]

/-- What the end of an operation makes of its run, before the engine status words are brought up to date. -/
def opLeft (o : EngOp) (fl : W16) (i : Fin 4) (q : Run) : Run := flagged fl (withShare (withoutOp o) i q)

/-- An operation that ends, in a state that differs from `s` in the rows its run has repaired: of all runs and shares only its share
changes, which it leaves, and of its run the flags and the rows repaired. -/
theorem opDone_onlyShare {n : Nat} (on : s.shareOn co = some (r, h)) (held : ∀ co', u.holds co' = s.holds co')
    (sched : u.sched = (s.modRun r.rid (repairing n)).sched) (o : EngOp) (fl : W16) :
    ∃ ws, s.onlyShare (u.opDone co r o fl) co { r with flags := r.flags ||| fl, repaired := r.repaired + n }
      { withoutOp o h with words := ws } := by
  obtain ⟨holds, -, found⟩ := shareOn_some on
  have holds' := (held co).trans holds
  have left : (u.modShare co (withoutOp o)).modRun r.rid (flagged fl) = u.modRun r.rid (opLeft o fl h.idx) := by
    rw [modShare_eq_modRun holds']
    exact modRun_modRun u r.rid (withShare (withoutOp o) h.idx) (flagged fl) fun _ => rfl
  have runs (g : Run → Run) : (u.modRun r.rid g).sched = (s.modRun r.rid (g ∘ repairing n)).sched := by
    rw [modRun_sched_congr sched, modRun_modRun s r.rid (repairing n) g fun _ => rfl]
  have leaves : s.onlyShare (u.modRun r.rid (opLeft o fl h.idx)) co
      { r with flags := r.flags ||| fl, repaired := r.repaired + n } (withoutOp o h) :=
    onlyShare_of_modRun on held (runs _) (fun _ => rfl) rfl (find_withShare (withoutOp o) (fun _ => rfl) (q := repairing n r) found)
      fun q _ other => find_withShare_other (withoutOp o) (fun _ => rfl) (repairing n q) other
  obtain ⟨-, ⟨r', on', -⟩, -⟩ := leaves
  have done : u.opDone co r o fl = u.modRun r.rid
      (withShare (synced (u.modRun r.rid (opLeft o fl h.idx)) r') h.idx ∘ opLeft o fl h.idx) := by
    have e : u.opDone co r o fl = ((u.modShare co (withoutOp o)).modRun r.rid (flagged fl)).syncWords co := rfl
    rw [e, left, syncWords_eq on', modShare_eq_modRun (s := u.modRun r.rid (opLeft o fl h.idx)) holds',
      modRun_modRun u r.rid (opLeft o fl h.idx) _ fun _ => rfl]
  rw [done]
  refine ⟨_, onlyShare_of_modRun on held (runs _) (fun _ => rfl) rfl
    (find_withShare (synced _ r') (fun _ => rfl) (q := opLeft o fl h.idx (repairing n r))
      (find_withShare (withoutOp o) (fun _ => rfl) (q := repairing n r) found)) fun q i other => ?_⟩
  exact (find_withShare_other (synced _ r') (fun _ => rfl) (opLeft o fl h.idx (repairing n q)) other).trans
    (find_withShare_other (withoutOp o) (fun _ => rfl) (repairing n q) other)

end Sys2Proof.Proofs
end

section
/-! SUPPORT. What an engine's operation writes in the clusters (R104, R145 to R149, R167 to R183). -/

namespace Sys2Proof.Proofs
open Sys2Proof.Machine Sys2Proof.Laws

variable {s t u : State} {co : CoreId} {r : Run} {h : Share} {o : EngOp} {k : EngKind}

/-- What a ready operation tells: its share is on the core, and it is of the engine and of an op asked for. -/
theorem readyOp_some {ops : List Nat} (ready : s.readyOp co k ops = some (r, h, o)) :
    s.shareOn co = some (r, h) ∧ h.ops.find? (fun x => x.kind = k) = some o ∧ o.op ∈ ops := by
  unfold State.readyOp at ready
  split at ready
  · cases ready
  · next on =>
    split at ready
    · next found =>
      split at ready
      · next may =>
        obtain ⟨rfl, rfl, rfl⟩ : _ ∧ _ ∧ _ := by simpa using ready
        simp only [Bool.and_eq_true, decide_eq_true_eq] at may
        exact ⟨on, found, may.1.1.2⟩
      · cases ready
    · cases ready

/-- `t` has the cluster memories and local memories of `s`, and its cores the same shares. -/
def KeepsStores (s t : State) : Prop :=
  ∀ d : Fin 4, t.clusters[d].mem = s.clusters[d].mem ∧ t.clusters[d].lmem = s.clusters[d].lmem ∧
    ∀ k : Fin 4, t.clusters[d].cores[k].cur = s.clusters[d].cores[k].cur

theorem KeepsStores.of_clusters (same : t.clusters = s.clusters) : KeepsStores s t := by
  intro d
  rw [same]
  exact ⟨rfl, rfl, fun _ => rfl⟩

theorem KeepsStores.trans (st : KeepsStores s t) (tu : KeepsStores t u) : KeepsStores s u := by
  intro d
  obtain ⟨mem, lmem, cur⟩ := st d
  obtain ⟨mem', lmem', cur'⟩ := tu d
  exact ⟨mem'.trans mem, lmem'.trans lmem, fun k => (cur' k).trans (cur k)⟩

/-- A change of a cluster that leaves its memories and what its cores hold. -/
theorem KeepsStores.modCl (s : State) (c : Fin 4) {f : Cluster → Cluster} (mem : ∀ x, (f x).mem = x.mem)
    (lmem : ∀ x, (f x).lmem = x.lmem) (cur : ∀ (x : Cluster) (k : Fin 4), (f x).cores[k].cur = x.cores[k].cur) :
    KeepsStores s (s.modCl c f) := by
  intro d
  by_cases e : d = c
  · subst e
    simp only [Fin.getElem_fin, modCl_same]
    exact ⟨mem _, lmem _, cur _⟩
  · rw [modCl_other s e]
    exact ⟨rfl, rfl, fun _ => rfl⟩

/-- What an operation of share index i on cluster c writes: that cluster's memory and the share's local memory; every other memory of
a cluster, and what the cores hold, is as it was. -/
structure WritesStores (s t : State) (c i : Fin 4) (mem loc : Mem) : Prop where
  mem : t.clusters[c].mem = mem
  loc : t.clusters[c].lmem[i] = loc
  otherLocal : ∀ j : Fin 4, j ≠ i → t.clusters[c].lmem[j] = s.clusters[c].lmem[j]
  others : ∀ d : Fin 4, d ≠ c → t.clusters[d].mem = s.clusters[d].mem ∧ t.clusters[d].lmem = s.clusters[d].lmem
  held : ∀ co, t.holds co = s.holds co

theorem WritesStores.keeps {c i : Fin 4} {mem loc : Mem} (writes : WritesStores s t c i mem loc) (keeps : KeepsStores t u) :
    WritesStores s u c i mem loc where
  mem := (keeps c).1.trans writes.mem
  loc := by rw [(keeps c).2.1]; exact writes.loc
  otherLocal j other := by rw [(keeps c).2.1]; exact writes.otherLocal j other
  others d other := ⟨(keeps d).1.trans (writes.others d other).1, (keeps d).2.1.trans (writes.others d other).2⟩
  held co := ((keeps co.c).2.2 co.k).trans (writes.held co)

/-- A change of one cluster in its memory and one local memory, and in what is no memory. -/
theorem WritesStores.modCl (s : State) (c i : Fin 4) {f : Cluster → Cluster} {mem loc : Mem}
    (hmem : (f s.clusters[c]).mem = mem) (hloc : (f s.clusters[c]).lmem = vset s.clusters[c].lmem i loc)
    (cur : ∀ k : Fin 4, (f s.clusters[c]).cores[k].cur = s.clusters[c].cores[k].cur) :
    WritesStores s (s.modCl c f) c i mem loc := by
  have at_c : (s.modCl c f).clusters[c] = f s.clusters[c] := modCl_same s c f
  refine ⟨by rw [at_c, hmem], by rw [at_c, hloc]; exact vset_same _ i loc, fun j other => ?_, fun d other => ?_, fun co => ?_⟩
  · rw [at_c, hloc]
    exact vset_other _ i j loc other
  · rw [modCl_other s other]
    exact ⟨rfl, rfl⟩
  · unfold State.holds
    obtain ⟨d, k⟩ := co
    by_cases e : d = c
    · subst e
      rw [at_c]
      exact cur k
    · rw [modCl_other s e]

/-- A local memory that an operation writes, with the memory of its cluster as it was. -/
theorem modLocal_writesStores (s : State) (c i : Fin 4) (loc : Mem) :
    WritesStores s (s.modLocal c i (fun _ => loc)) c i s.clusters[c].mem loc :=
  WritesStores.modCl s c i rfl rfl fun _ => rfl

/-- The end of an operation keeps what it wrote. -/
theorem WritesStores.opDone {c i : Fin 4} {mem loc : Mem} (writes : WritesStores s u c i mem loc) (co : CoreId) (r : Run) (o : EngOp)
    (fl : W16) : WritesStores s (u.opDone co r o fl) c i mem loc :=
  writes.keeps (.of_clusters (by rw [opDone_frame]))

end Sys2Proof.Proofs
end

section
/-! SUPPORT. Matrix layers (R104, R109) that no clip slot holds back (R80). -/

namespace Sys2Proof.Proofs
open Sys2Proof.Machine Sys2Proof.Laws

variable {s : State} {co : CoreId} {r : Run} {h : Share} {o : EngOp}

theorem exec_matrixLayer (ready : s.readyOp co .matrix [0x01] = some (r, h, o)) :
    exec (.matrixLayer co) s = .next (s.runLayer co r h o) := by
  change Host.Outcome.next (s.engine co .matrix 0x01) = _
  unfold State.engine
  rw [ready]

/-- The engine's own stores are no memory. -/
theorem modEng_keepsStores (s : State) (co : CoreId) (f : Core → Core) (cur : ∀ y, (f y).cur = y.cur) :
    KeepsStores s (s.modCl co.c (fun x => { x with cores := vmod x.cores co.k f })) := by
  refine KeepsStores.modCl s co.c (fun _ => rfl) (fun _ => rfl) fun x k => ?_
  by_cases e : k = co.k
  · subst e
    simp only [Fin.getElem_fin, vmod_same]
    exact cur _
  · exact congrArg Core.cur (vmod_other x.cores co.k k f e)

/-- A layer's counts change clip slots only. -/
theorem clipAdd_frame (s : State) (r : Run) (addr slot : Nat) (res : EngRes) :
    KeepsStores s (s.clipAdd r addr slot res) ∧ ∃ x, s.clipAdd r addr slot res = { s with clusters := x } := by
  unfold State.clipAdd
  split
  · exact ⟨.of_clusters rfl, s.clusters, rfl⟩
  · exact ⟨.modCl s _ (fun _ => rfl) (fun _ => rfl) fun _ _ => rfl, _, rfl⟩

theorem watchFlags_frame (s : State) (r : Run) (addr : Nat) (flags : W16) : ∃ x, s.watchFlags r addr flags = { s with trc := x } := by
  unfold State.watchFlags
  split
  · exact ⟨s.trc, rfl⟩
  · exact ⟨_, rfl⟩

/-- A clip slot holds back the step of a run's layer (R80). -/
def holdsBack (slot : Option ClipSlot) (r : Run) (addr : Nat) : Prop :=
  r.entry.cls ≠ 3 ∧ ∃ x, slot = some x ∧ x.holds r.rid addr = true

theorem holdsBack_iff (slot : Option ClipSlot) (r : Run) (addr : Nat) :
    (r.entry.cls ≠ 3 && slot.any (fun t => t.holds r.rid addr)) = true ↔ holdsBack slot r addr := by
  unfold holdsBack
  cases slot <;> simp

section
variable (s co r h o)

/-- The descriptor of the layer of an operation. -/
def layerDesc : LayerDesc := LayerDesc.ofBytes (s.shareBytes co.c h.idx o.addr 128)

/-- The clip slot of the layer of an operation. -/
def layerSlot : Option ClipSlot := s.slot? co.c r.entry.cargo (layerDesc s co h o).slot

/-- The ceiling that the layer of an operation meets, and whether it is a fallback ceiling. -/
def layerCeiling : W32 × Bool := ((layerSlot s co r h o).map (fun t => t.ceilingOf r.rid o.addr)).getD (0x7F800000, false)

/-- What the layer of an operation computes. -/
def layerRes : EngRes :=
  layerRun s.clusters[co.c].lmem[h.idx] s.clusters[co.c].mem (layerCeiling s co r h o).1.toNat (layerDesc s co h o)

/-- The flags that a layer's run gathers, clip_fb among them where the ceiling is a fallback ceiling (R65). -/
def layerFlags : W16 := (layerRes s co r h o).flags.word ||| (if (layerCeiling s co r h o).2 then 0x40 else 0)

/-- The state with a layer's output and what the engine's own stores hold after it. -/
def layerWritten : State :=
  (s.modLocal co.c h.idx (fun _ => (layerRes s co r h o).loc)).modCl co.c (fun x =>
    { x with
      cores := vmod x.cores co.k (fun y =>
        { y with
          eng := layerStores s.clusters[co.c].lmem[h.idx] s.clusters[co.c].mem (layerCeiling s co r h o).1.toNat (layerDesc s co h o)
            s.clusters[co.c].cores[co.k].eng }) })

/-- The same, with the counts of the clip slot, of the watchers and of the MACs. -/
def layerCounted : State :=
  let d := layerDesc s co h o
  let res := layerRes s co r h o
  (((layerWritten s co r h o).clipAdd r o.addr d.slot res).watchFlags r o.addr res.flags.word).count
    (64 * co.c.val + b2n d.a16) (d.m * d.n * d.k)

end

theorem layerWritten_writes :
    WritesStores s (layerWritten s co r h o) co.c h.idx s.clusters[co.c].mem (layerRes s co r h o).loc :=
  (modLocal_writesStores s co.c h.idx _).keeps (modEng_keepsStores _ co _ fun _ => rfl)

/-- Counting changes no memory, and beside clip slots the trace only. -/
theorem layerCounted_frame : KeepsStores (layerWritten s co r h o) (layerCounted s co r h o) ∧
    ∃ x y, layerCounted s co r h o = { s with clusters := x, trc := y } := by
  obtain ⟨keeps, x, e⟩ := clipAdd_frame (layerWritten s co r h o) r o.addr (layerDesc s co h o).slot (layerRes s co r h o)
  unfold layerCounted
  rw [e] at keeps
  extract_lets d res
  rw [e]
  obtain ⟨y, e⟩ := watchFlags_frame { layerWritten s co r h o with clusters := x } r o.addr res.flags.word
  rw [e]
  exact ⟨keeps, x, _, rfl⟩

theorem runLayer_held (held : holdsBack (layerSlot s co r h o) r o.addr) : s.runLayer co r h o = s := by
  unfold State.runLayer
  exact if_pos ((holdsBack_iff _ r o.addr).2 held)

theorem runLayer_free (free : ¬ holdsBack (layerSlot s co r h o) r o.addr) :
    s.runLayer co r h o = (layerCounted s co r h o).opDone co r o (layerFlags s co r h o) := by
  unfold State.runLayer
  exact if_neg (mt (holdsBack_iff _ r o.addr).1 free)

/-- A layer that no clip slot holds back writes its output to the share's local memory, and leaves the share. -/
theorem matrixLayer_ends (ready : s.readyOp co .matrix [0x01] = some (r, h, o)) (free : ¬ holdsBack (layerSlot s co r h o) r o.addr) :
    ∃ t ws, exec (.matrixLayer co) s = .next t ∧ t = { s with sched := t.sched, clusters := t.clusters, trc := t.trc } ∧
      s.onlyShare t co { r with flags := r.flags ||| layerFlags s co r h o, repaired := r.repaired + 0 }
        { withoutOp o h with words := ws } ∧
      WritesStores s t co.c h.idx s.clusters[co.c].mem (layerRes s co r h o).loc := by
  obtain ⟨on, -, -⟩ := readyOp_some ready
  obtain ⟨keeps, x, y, frame⟩ := layerCounted_frame (s := s) (co := co) (r := r) (h := h) (o := o)
  have writes := layerWritten_writes.keeps keeps
  have sched : (layerCounted s co r h o).sched = (s.modRun r.rid (repairing 0)).sched := by rw [modRun_repairing_zero, frame]
  obtain ⟨ws, only⟩ := opDone_onlyShare on writes.held sched o (layerFlags s co r h o)
  refine ⟨_, ws, ?_, ?_, only, writes.opDone co r o _⟩
  · rw [exec_matrixLayer ready, runLayer_free free]
  · rw [opDone_frame, frame]

end Sys2Proof.Proofs
end

section
/-! SUPPORT. Stripe operations (R145 to R149, R151): INGEST, GATHER, DEPTHWISE, MAXPOOL and AVGPOOL. -/

namespace Sys2Proof.Proofs
open Sys2Proof.Machine Sys2Proof.Laws

variable {s : State} {co : CoreId} {r : Run} {h : Share} {o : EngOp}

theorem engine_stripe {op : Nat} (ready : s.readyOp co .stripe [op] = some (r, h, o)) : s.engine co .stripe op = s.runStripe co r h o := by
  unfold State.engine
  rw [ready]

section
variable (s co r h o)

/-- What the planned operation computes. -/
def stripeDone : StripeRes := s.stripeRes co.c r h (s.stripePlan r h o o.index)

/-- The rows that the operation repairs. -/
def stripeFixed : Nat := (stripeDone s co r h o).fixed.length - (s.stripePlan r h o o.index).x.fixed.length

/-- The share's stripe state after the operation. -/
def stripeKept : StripeSt :=
  let p := s.stripePlan r h o o.index
  (stripeDone s co r h o).st.keep { p.x.after p.ops p.gs r.info o.index with fixed := (stripeDone s co r h o).fixed }

/-- The state with the memories and the stripe state that the operation leaves. -/
def stripeWritten : State :=
  s.modCl co.c (fun k =>
    { k with
      mem := (stripeDone s co r h o).clus, lmem := vset k.lmem h.idx (stripeDone s co r h o).loc,
      stripe := vset k.stripe h.idx (stripeKept s co r h o) })

/-- The same, with the rows repaired counted in the run and for its frame (R139). -/
def stripeRepaired : State :=
  if stripeFixed s co r h o = 0 then stripeWritten s co r h o
  else
    ((stripeWritten s co r h o).modRun r.rid (repairing (stripeFixed s co r h o))).modOvr r.entry.source r.count
      (fun x => { x with repair := x.repair + stripeFixed s co r h o })

end

theorem runStripe_eq : s.runStripe co r h o =
    ((stripeRepaired s co r h o).count (64 * co.c.val + 21) (stripeFixed s co r h o)).opDone co r o (stripeDone s co r h o).fl.word :=
  rfl

theorem stripeWritten_writes :
    WritesStores s (stripeWritten s co r h o) co.c h.idx (stripeDone s co r h o).clus (stripeDone s co r h o).loc :=
  WritesStores.modCl s co.c h.idx rfl rfl fun _ => rfl

theorem stripeRepaired_frame : ∃ x, stripeRepaired s co r h o = { stripeWritten s co r h o with sched := x } := by
  unfold stripeRepaired
  split
  · exact ⟨s.sched, rfl⟩
  · exact ⟨_, rfl⟩

/-- The runs with the rows repaired; where none is, the frames' counts are as they were. -/
theorem stripeRepaired_sched :
    (stripeRepaired s co r h o).sched =
      (State.modRun { s with sched := { s.sched with ovr := (stripeRepaired s co r h o).sched.ovr } } r.rid
        (repairing (stripeFixed s co r h o))).sched ∧
    (stripeFixed s co r h o = 0 → (stripeRepaired s co r h o).sched.ovr = s.sched.ovr) := by
  unfold stripeRepaired
  split
  · next none_fixed =>
    rw [none_fixed, modRun_repairing_zero]
    exact ⟨rfl, fun _ => rfl⟩
  · next fixed => exact ⟨rfl, fun e => absurd e fixed⟩

/-- A stripe operation writes the core's cluster memory, the share's local memory and its stripe state, and leaves the share. -/
theorem runStripe_ends (on : s.shareOn co = some (r, h)) :
    let t := s.runStripe co r h o
    t = { s with sched := t.sched, clusters := t.clusters, trc := t.trc } ∧
    (∃ ws, State.onlyShare { s with sched := { s.sched with ovr := t.sched.ovr } } t co
      { r with flags := r.flags ||| (stripeDone s co r h o).fl.word, repaired := r.repaired + stripeFixed s co r h o }
      { withoutOp o h with words := ws }) ∧
    (stripeFixed s co r h o = 0 → t.sched.ovr = s.sched.ovr) ∧
    WritesStores s t co.c h.idx (stripeDone s co r h o).clus (stripeDone s co r h o).loc ∧
    t.clusters[co.c].stripe = vset s.clusters[co.c].stripe h.idx (stripeKept s co r h o) := by
  intro t
  obtain ⟨x, frame⟩ := stripeRepaired_frame (s := s) (co := co) (r := r) (h := h) (o := o)
  obtain ⟨sched, ovr⟩ := stripeRepaired_sched (s := s) (co := co) (r := r) (h := h) (o := o)
  have ended : t = (State.count _ _ _).opDone co r o _ := runStripe_eq
  generalize stripeRepaired s co r h o = u at frame sched ovr ended
  have keepsOvr : t.sched.ovr = u.sched.ovr := by rw [ended, opDone_frame]; rfl
  have writes : WritesStores s u co.c h.idx _ _ := stripeWritten_writes.keeps (.of_clusters (by rw [frame]))
  rw [keepsOvr]
  refine ⟨?_, ?_, ovr, ?_, ?_⟩
  · rw [ended, opDone_frame, frame]
    rfl
  · rw [ended]
    exact opDone_onlyShare (s := { s with sched := { s.sched with ovr := u.sched.ovr } }) (u := u.count _ _) on writes.held sched o _
  · rw [ended]
    exact WritesStores.opDone (u := u.count _ _) (writes.keeps (.of_clusters rfl)) co r o _
  · rw [ended, opDone_frame, frame]
    exact congrArg Cluster.stripe (modCl_same s co.c _)

end Sys2Proof.Proofs
end

section
/-! SUPPORT. Attention operations (R167, R171, R180) of runs of class TICK, which no budget holds back (R265). -/

namespace Sys2Proof.Proofs
open Sys2Proof.Machine Sys2Proof.Laws

variable {s : State} {co : CoreId} {r : Run} {h : Share} {o : EngOp}

theorem engine_attn {op : Nat} (ready : s.readyOp co .attn [op] = some (r, h, o)) : s.engine co .attn op = s.runAttn co r h o := by
  unfold State.engine
  rw [ready]

section
variable (s co r h o)

/-- The descriptor of an attention operation, with the offset its program gave. -/
def attnDesc : AttnDesc := { AttnDesc.ofBytes (s.shareBytes co.c h.idx o.addr 128) with seqOff := o.seqOff }

/-- The bytes of the set descriptor of an attention operation. -/
def attnSetBytes : List Byte := s.shareBytes co.c h.idx (attnDesc s co h o).set 64

/-- The set of an attention operation. -/
def attnSet : SetDesc := SetDesc.ofBytes (attnSetBytes s co h o)

/-- A range of the operation is being copied (R278). -/
def attnCopied : Bool := ((attnDesc s co h o).dram (attnSet s co h o)).any (fun x => s.copying x.1 x.2)

/-- What an attention operation computes: APPEND, ATTEND or ATTEND_BWD. -/
def attnRes : AttnRes :=
  let set := (s.setIndex r (attnSetBytes s co h o)).1
  match o.op with
  | 0x30 => appendRun (s.engMem co.c h.idx) (attnDesc s co h o) (attnSet s co h o) set
  | 0x31 => attendRun (s.engMem co.c h.idx) (attnDesc s co h o) (attnSet s co h o) set s.clusters[co.c].kvB
  | _ => attendBwdRun (s.engMem co.c h.idx) (attnDesc s co h o) (attnSet s co h o) set s.clusters[co.c].kvB

/-- The state with the memories that the operation leaves. -/
def attnWritten : State :=
  let res := attnRes s co r h o
  State.modCl { (s.setIndex r (attnSetBytes s co h o)).2 with dram := res.mem.dram, poison := res.mem.poison } co.c (fun k =>
    { k with mem := res.mem.clus, lmem := vset k.lmem h.idx res.mem.loc })

/-- The same, with the operation's events. -/
def attnReported : State :=
  (attnRes s co r h o).events.foldl (fun (s : State) (e : Nat × List Byte) => s.event e.1 r.ctx co.c.val false e.2)
    (attnWritten s co r h o)

/-- The same, with the positions that an adaptation of the run's entry has found stale. -/
def attnCounted : State :=
  { attnReported s co r h o with
    jobs := (attnReported s co r h o).jobs.map (fun (j : Job) =>
      if j.entry = r.entry.id ∧ j.phase = 2 then { j with stale := j.stale + BitVec.ofNat 32 (attnRes s co r h o).stale } else j) }

end

/-- What is computed, by the op asked for. -/
theorem attnRes_eq {op : Nat} (isOp : o.op = op) (known : op = 0x30 ∨ op = 0x31 ∨ op = 0x32) :
    attnRes s co r h o =
      let m := s.engMem co.c h.idx
      let set := (s.setIndex r (attnSetBytes s co h o)).1
      if op = 0x30 then appendRun m (attnDesc s co h o) (attnSet s co h o) set
      else if op = 0x31 then attendRun m (attnDesc s co h o) (attnSet s co h o) set s.clusters[co.c].kvB
      else attendBwdRun m (attnDesc s co h o) (attnSet s co h o) set s.clusters[co.c].kvB := by
  unfold attnRes
  rw [isOp]
  rcases known with rfl | rfl | rfl <;> rfl

theorem runAttn_copied (copied : attnCopied s co h o = true) : s.runAttn co r h o = s := by
  unfold State.runAttn
  exact if_pos copied

theorem runAttn_tick (free : attnCopied s co h o = false) (tick : r.entry.cls = 0) (owed : o.owed = none) :
    s.runAttn co r h o = (attnCounted s co r h o).opDone co r o (attnRes s co r h o).flags.word := by
  unfold State.runAttn
  refine (if_neg (Bool.eq_false_iff.1 free)).trans ?_
  rw [owed, tick]
  rfl

/-- The index of a set that its cargo has in no table is a free value drawn; nothing else changes. -/
theorem setIndex_frame (s : State) (r : Run) (d : List Byte) : ∃ x, (s.setIndex r d).2 = { s with fresh := x } := by
  unfold State.setIndex
  split
  · exact ⟨s.fresh, rfl⟩
  · exact ⟨_, rfl⟩

/-- `t` has all of `s` but the event log, the rings, host memory and interrupts. -/
def OnlyReports (s t : State) : Prop := ∃ l a b p g, t = { s with log := l, host := a, rings := b, pcie := p, glb := g }

theorem OnlyReports.refl (s : State) : OnlyReports s s := ⟨s.log, s.host, s.rings, s.pcie, s.glb, rfl⟩

theorem OnlyReports.trans {t u : State} (st : OnlyReports s t) (tu : OnlyReports t u) : OnlyReports s u := by
  obtain ⟨_, _, _, _, _, rfl⟩ := st
  obtain ⟨_, _, _, _, _, rfl⟩ := tu
  exact ⟨_, _, _, _, _, rfl⟩

theorem event_onlyReports (s : State) (code ctx w : Nat) (log : Bool) (data : List Byte) :
    OnlyReports s (s.event code ctx w log data) := event_frame s code ctx w log data

theorem events_onlyReports (ctx w : Nat) (l : List (Nat × List Byte)) (s : State) :
    OnlyReports s (l.foldl (fun (s : State) (e : Nat × List Byte) => s.event e.1 ctx w false e.2) s) := by
  induction l generalizing s with
  | nil => exact .refl s
  | cons e l ih => exact (event_onlyReports s e.1 ctx w false e.2).trans (ih _)

/-- What an attention operation leaves as it was, and the DRAM it leaves, before it is done. -/
theorem attnCounted_frame : ∃ f l a b p g j,
    attnCounted s co r h o =
      { s with
        fresh := f, log := l, host := a, rings := b, pcie := p, glb := g, jobs := j, dram := (attnRes s co r h o).mem.dram,
        poison := (attnRes s co r h o).mem.poison, clusters := (attnWritten s co r h o).clusters } := by
  obtain ⟨f, e⟩ := setIndex_frame s r (attnSetBytes s co h o)
  obtain ⟨l, a, b, p, g, reported⟩ := events_onlyReports r.ctx co.c.val (attnRes s co r h o).events (attnWritten s co r h o)
  have written : attnWritten s co r h o = { s with
      fresh := f, dram := (attnRes s co r h o).mem.dram, poison := (attnRes s co r h o).mem.poison,
      clusters := (attnWritten s co r h o).clusters } := by
    unfold attnWritten
    rw [e]
    rfl
  refine ⟨f, l, a, b, p, g, (attnCounted s co r h o).jobs, ?_⟩
  unfold attnCounted attnReported
  rw [reported, written]

/-- Of the clusters an attention operation changes the core's, in its memory and the share's local memory. -/
theorem attnWritten_clusters : (attnWritten s co r h o).clusters = (s.modCl co.c (fun k =>
    { k with mem := (attnRes s co r h o).mem.clus, lmem := vset k.lmem h.idx (attnRes s co r h o).mem.loc })).clusters := by
  obtain ⟨f, e⟩ := setIndex_frame s r (attnSetBytes s co h o)
  unfold attnWritten
  rw [e]
  rfl

theorem attnWritten_writes :
    WritesStores s (attnWritten s co r h o) co.c h.idx (attnRes s co r h o).mem.clus (attnRes s co r h o).mem.loc :=
  (WritesStores.modCl s co.c h.idx rfl rfl fun _ => rfl).keeps (.of_clusters attnWritten_clusters)

/-- An attention operation of a run of class TICK writes package DRAM, the core's cluster memory and the share's local memory, and
leaves the share. -/
theorem runAttn_ends (on : s.shareOn co = some (r, h)) (free : attnCopied s co h o = false) (tick : r.entry.cls = 0)
    (owed : o.owed = none) :
    let t := s.runAttn co r h o
    (∃ ws, s.onlyShare t co { r with flags := r.flags ||| (attnRes s co r h o).flags.word, repaired := r.repaired + 0 }
      { withoutOp o h with words := ws }) ∧
    WritesStores s t co.c h.idx (attnRes s co r h o).mem.clus (attnRes s co r h o).mem.loc ∧
    (∀ d, d ≠ co.c → t.clusters[d] = s.clusters[d]) ∧
    t.dram = (attnRes s co r h o).mem.dram ∧ t.poison = (attnRes s co r h o).mem.poison ∧
    t.barges = s.barges ∧ t.cargos = s.cargos ∧ t.cfg = s.cfg ∧ t.nor = s.nor := by
  intro t
  have ended : t = (attnCounted s co r h o).opDone co r o _ := runAttn_tick free tick owed
  obtain ⟨f, l, a, b, p, g, j, frame⟩ := attnCounted_frame (s := s) (co := co) (r := r) (h := h) (o := o)
  generalize attnCounted s co r h o = u at frame ended
  have clusters : u.clusters = (attnWritten s co r h o).clusters := by rw [frame]
  have writes := attnWritten_writes.keeps (.of_clusters clusters)
  have sched : u.sched = (s.modRun r.rid (repairing 0)).sched := by rw [modRun_repairing_zero, frame]
  refine ⟨?_, ?_, fun d other => ?_, ?_⟩
  · rw [ended]
    exact opDone_onlyShare on writes.held sched o _
  · rw [ended]
    exact writes.opDone co r o _
  · rw [ended, opDone_frame]
    dsimp only
    rw [clusters, attnWritten_clusters, modCl_other s other]
  · rw [ended, opDone_frame, frame]
    exact ⟨rfl, rfl, rfl, rfl, rfl, rfl⟩

end Sys2Proof.Proofs
end

section
/-! The obligation of engine operations. -/

namespace Sys2Proof.Proofs
open Sys2Proof.Machine Sys2Proof.Laws

/-- Settles O15: each engine's operation by what it writes before it is done, and what its end leaves of the runs. -/
theorem engineOperationsComplete : Obligations.EngineOperationsComplete := by
  intro s co r h o left others
  refine ⟨fun ready => ?matrix, fun c op form ready => ?stripe, fun c op form ready => ?attention⟩
  case matrix =>
    intro d slot held cf res
    refine ⟨fun back => ?_, fun free => ?_⟩
    · rw [exec_matrixLayer ready, runLayer_held back]
    · obtain ⟨t, ws, runs, frame, only, writes⟩ := matrixLayer_ends ready free
      exact ⟨t, runs, frame, ⟨ws, only⟩, ⟨writes.others, writes.otherLocal⟩, writes.mem, writes.loc⟩
  case stripe =>
    intro p res fixed
    obtain ⟨on, -, -⟩ := readyOp_some ready
    obtain ⟨frame, only, unrepaired, writes, stripe⟩ := runStripe_ends (o := o) on
    have runs : exec c s = .next (s.runStripe co r h o) := by
      rw [← engine_stripe ready]
      rcases form with e | e | e | e | e <;> (obtain ⟨rfl, rfl⟩ := Prod.mk.inj e; rfl)
    refine ⟨_, runs, frame, only, unrepaired, ⟨writes.others, writes.otherLocal⟩, writes.mem, writes.loc, ?_, fun i other => ?_⟩
    · rw [stripe]
      exact vset_same _ _ _
    · rw [stripe]
      exact vset_other _ _ _ _ other
  case attention =>
    intro a d st m set res
    obtain ⟨on, -, isOp⟩ := readyOp_some ready
    have runs : exec c s = .next (s.runAttn co r h o) := by
      rw [← engine_attn ready]
      rcases form with e | e | e <;> (obtain ⟨rfl, rfl⟩ := Prod.mk.inj e; rfl)
    have known : op = 0x30 ∨ op = 0x31 ∨ op = 0x32 := form.imp (congrArg Prod.snd) (Or.imp (congrArg Prod.snd) (congrArg Prod.snd))
    have computes : attnRes s co r h o = res := attnRes_eq (List.mem_singleton.1 isOp) known
    refine ⟨fun copied => ?_, fun free tick owed => ?_⟩
    · rw [runs, runAttn_copied copied]
    · obtain ⟨only, writes, clusters, kept⟩ := runAttn_ends on free tick owed
      rw [computes] at only writes kept
      obtain ⟨dram, poison, outside⟩ := kept
      exact ⟨_, runs, only, ⟨writes.others, writes.otherLocal⟩, clusters, dram, poison, writes.mem, writes.loc, outside⟩

end Sys2Proof.Proofs
end

section
/-! SUPPORT. What waits that end and shares that cores take leave of health: nothing ends or adds a self-test (R551). -/

namespace Sys2Proof.Proofs
open Sys2Proof.Machine Sys2Proof.Laws

/-- `t` has the self-tests of the units that `s` has. -/
@[simp] abbrev SameTests (s t : State) : Prop := t.health.tests.map (·.unit) = s.health.tests.map (·.unit)

theorem SameTests.trans {s t u : State} (st : SameTests s t) (tu : SameTests t u) : SameTests s u := Eq.trans tu st

theorem foldl_sameTests {α : Type} {f : State → α → State} (h : ∀ s a, SameTests s (f s a)) (l : List α) (s : State) :
    SameTests s (l.foldl f s) :=
  foldl_frame SameTests (fun _ => rfl) (fun _ _ _ => SameTests.trans) f h l s

@[simp] theorem setKeeper_sameTests (s : State) (k : KeeperId) (v : Keeper) : SameTests s (s.setKeeper k v) := by
  cases k <;> rfl

@[simp] theorem release_sameTests (s : State) (w : Waiter) : SameTests s (s.release w) := by
  unfold State.release
  obtain ⟨x, h⟩ := waitEnded_frame s w 0
  rw [h]
  dsimp only
  split <;> rfl

@[simp] theorem settle_sameTests (s : State) (k : KeeperId) (lock : Nat) : SameTests s (s.settle k lock) := by
  unfold State.settle
  exact (setKeeper_sameTests s k _).trans (foldl_sameTests release_sameTests _ _)

@[simp] theorem dropWaiters_sameTests (s : State) (p : Waiter → Bool) : SameTests s (s.dropWaiters p) := by
  unfold State.dropWaiters
  refine foldl_sameTests (fun s k => ?_) _ s
  exact (setKeeper_sameTests s k _).trans (foldl_sameTests (fun s l => settle_sameTests s k l) _ _)

@[simp] theorem spill_sameTests (s : State) (c : Fin 4) (p : Point) : SameTests s (s.spill c p) := by
  unfold State.spill
  refine foldl_sameTests (fun s a => ?_) _ s
  rfl

/-- A share that moves adds to what the test of the core it left counts. -/
@[simp] theorem moveKeep_sameTests (s : State) (c i old : Fin 4) : SameTests s (s.moveKeep c i old) := by
  unfold State.moveKeep
  simp only [SameTests, List.map_map]
  refine List.map_congr_left fun t _ => ?_
  simp only [Function.comp]
  split <;> rfl

@[simp] theorem startShare_sameTests (s : State) (c k : Fin 4) (r : Run) (i : Fin 4) : SameTests s (s.startShare c k r i) := by
  unfold State.startShare
  extract_lets cl partner second moved spilled kept fresh taken
  have spills : SameTests s spilled := by
    unfold spilled
    split
    · split
      · simp
      · rfl
    · rfl
  clear_value spilled moved
  have moves : SameTests spilled kept := by
    unfold kept
    split
    · simp
    · rfl
  exact spills.trans moves

theorem recount_sameTests (s : State) (c : Fin 4) : SameTests s (s.recount c) := rfl

@[simp] theorem dispatch_sameTests (s : State) (c : Fin 4) : SameTests s (s.dispatch c) := by
  unfold State.dispatch
  split
  · rfl
  · refine SameTests.trans (foldl_sameTests (fun s k => ?_) _ s) (recount_sameTests _ c)
    dsimp only
    split
    · rfl
    · split
      · simp
      · rfl

end Sys2Proof.Proofs
end

section
/-! SUPPORT. Parity errors of the array: the event, the test that follows, and a share that stops for good (R115 to R117). -/

namespace Sys2Proof.Proofs
open Sys2Proof.Machine Sys2Proof.Laws

variable {s t : State} {co : CoreId} {r : Run} {h : Share} {o : EngOp} {p : Nat}

/-- A self-test of a unit is queued or goes on. -/
def Tested (s : State) (u : TestUnit) : Prop := ∃ x ∈ s.health.tests, x.unit = u

theorem Tested.of_sameTests {u : TestUnit} (tested : Tested s u) (same : SameTests s t) : Tested t u := by
  have units (x : State) : Tested x u ↔ u ∈ x.health.tests.map (·.unit) := by simp [Tested]
  rw [units, same, ← units]
  exact tested

theorem queueTest_tested (s : State) (u : TestUnit) (trigger : Nat) (m : Option (Fin 8)) : Tested (s.queueTest u trigger m) u := by
  unfold State.queueTest
  split
  · next pending =>
    obtain ⟨x, mem, same⟩ := List.any_eq_true.1 pending
    exact ⟨x, mem, of_decide_eq_true same⟩
  · exact ⟨_, List.mem_append_right _ (List.mem_singleton.2 rfl), rfl⟩

theorem queueTest_frame (s : State) (u : TestUnit) (trigger : Nat) (m : Option (Fin 8)) :
    ∃ x, s.queueTest u trigger m = { s with health := x } := by
  unfold State.queueTest
  split
  · exact ⟨s.health, rfl⟩
  · exact ⟨_, rfl⟩

/-- The event of a parity error and the queued test leave what the device works on; the array has a test, and the event is reported. -/
theorem parityEvent_leaves (s : State) (co : CoreId) (set stopped : Nat) :
    SameWork s (s.parityEvent co set stopped) ∧ Tested (s.parityEvent co set stopped) (.array co) ∧
      s.reports (s.parityEvent co set stopped) 0x030C 0 co.c.val true (leBytes 1 set ++ leBytes 1 stopped) := by
  have tested := queueTest_tested (s.event 0x030C 0 co.c.val true (leBytes 1 set ++ leBytes 1 stopped)) (.array co) 0x030C none
  obtain ⟨x, e⟩ := queueTest_frame (s.event 0x030C 0 co.c.val true (leBytes 1 set ++ leBytes 1 stopped)) (.array co) 0x030C none
  have e' : s.parityEvent co set stopped = _ := e
  exact ⟨by rw [e']; exact event_sameWork s _ _ _ _ _, tested, by rw [e']; exact ⟨rfl, rfl, rfl⟩⟩

/-- What an event reports does not depend on the runs. -/
theorem reports_of_sched {u : State} {a : Sched} (runs : u = { s with sched := a }) {code ctx w : Nat} {log : Bool}
    {data : List Byte} (reported : u.reports t code ctx w log data) : s.reports t code ctx w log data := by
  subst runs
  obtain ⟨logged, rings, host⟩ := reported
  have e : ({ s with sched := a } : State).event code ctx w log data = withSchedPwr a s.pwr (s.event code ctx w log data) :=
    event_withSchedPwr a s.pwr s code ctx w log data
  rw [e] at logged rings host
  exact ⟨logged, rings, host⟩

/-! ### Errors that stop nothing -/

theorem exec_activeSetParityError (ready : s.readyOp co .matrix [0x01] = some (r, h, o)) (first : h.parity ≠ some p) :
    exec (.activeSetParityError ⟨co, p⟩) s = .next ((s.modShare co (fun h => { h with parity := some p })).parityEvent co 0 0) := by
  change execActiveSetParityError ⟨co, p⟩ s = _
  unfold execActiveSetParityError
  rw [ready]
  exact congrArg Host.Outcome.next (if_neg first)

/-- The first error in the active set in a pass marks the pass. -/
theorem activeSetParityError_marks (ready : s.readyOp co .matrix [0x01] = some (r, h, o)) (first : h.parity ≠ some p) :
    ∃ t, exec (.activeSetParityError ⟨co, p⟩) s = .next t ∧ s.onlyShare t co r { h with parity := some p } ∧
      Tested t (.array co) ∧ s.reports t 0x030C 0 co.c.val true [0, 0] ∧ t.clusters = s.clusters ∧ t.dram = s.dram := by
  obtain ⟨on, -, -⟩ := readyOp_some ready
  obtain ⟨⟨-, sched, clusters, dram, -⟩, tested, reported⟩ :=
    parityEvent_leaves (s.modShare co (fun h => { h with parity := some p })) co 0 0
  have frame := modShare_frame s co (fun h => { h with parity := some p })
  refine ⟨_, exec_activeSetParityError ready first, ?_, tested, ?_, ?_, ?_⟩
  · refine onlyShare_of (f := fun h => { h with parity := some p }) on (fun _ => rfl) (fun co' => ?_) sched
    unfold State.holds
    rw [clusters, frame]
  · exact reports_of_sched frame reported
  · rw [clusters, frame]
  · rw [dram, frame]

theorem shadowSetParityError_reports (ready : s.readyOp co .matrix [0x01] = some (r, h, o)) :
    ∃ t, exec (.shadowSetParityError co) s = .next t ∧ t.sched = s.sched ∧ Tested t (.array co) ∧
      s.reports t 0x030C 0 co.c.val true [1, 0] ∧ t.clusters = s.clusters ∧ t.dram = s.dram := by
  obtain ⟨⟨-, sched, clusters, dram, -⟩, tested, reported⟩ := parityEvent_leaves s co 1 0
  refine ⟨_, ?_, sched, tested, reported, clusters, dram⟩
  change execShadowSetParityError co s = _
  unfold execShadowSetParityError
  rw [ready]

/-! ### Errors that stop the share -/

theorem parityStop_eq (ready : s.readyOp co .matrix [0x01] = some (r, h, o)) (set : Nat) :
    s.parityStop co set p = ((s.parityEvent co set 1).stopShare co r h (some p)).settleStop := by
  unfold State.parityStop
  rw [ready]

theorem exec_activeSetParityError_again (ready : s.readyOp co .matrix [0x01] = some (r, h, o)) (again : h.parity = some p) :
    exec (.activeSetParityError ⟨co, p⟩) s = .next (s.parityStop co 0 p) := by
  change execActiveSetParityError ⟨co, p⟩ s = _
  unfold execActiveSetParityError
  rw [ready]
  exact congrArg Host.Outcome.next (if_pos again)

theorem exec_arrayParityStop_again (on : s.shareOn co = some (r, h)) (again : h.parity = some p) :
    exec (.arrayParityStop ⟨co, p⟩ .activeAgain) s = .next (s.parityStop co 0 p) := by
  change execArrayParityStop ⟨co, p⟩ .activeAgain s = _
  unfold execArrayParityStop
  dsimp only
  rw [on, if_pos (by simpa using again)]

/-- A share that has stopped for good. -/
def stopped (h : Share) : Share :=
  { h with
    st := .stopped, ops := [],
    words := (h.words.1 % 2 ^ 24 + 2 ^ 29, h.words.2.1 % 2 ^ 24 + 2 ^ 29, h.words.2.2 % 2 ^ 24 + 2 ^ 29) }

/-- A run one of whose shares has stopped for good: it can no longer complete. -/
def shareStopped (i : Fin 4) (q : Run) : Run := { q with stopped := true, shares := sharesMod stopped q.shares i }

/-- A layer that stops in a pass has written local memory only. -/
theorem partLayer_leaves (s : State) (co : CoreId) (r : Run) (h : Share) (n : Nat) :
    SameButWaits s (s.partLayer co r h n) ∧ SameTests s (s.partLayer co r h n) := by
  unfold State.partLayer
  split
  · simp
  · split
    · simp
    · exact ⟨⟨rfl, rfl, modCl_mems s co.c (fun _ => rfl), rfl, rfl⟩, rfl⟩

section
variable (s co r h o p)

/-- The state with what the layer of a share that stops in a pass has written, and without the share's waits. -/
def withdrawnShare : State :=
  (s.partLayer co r h (p / (LayerDesc.ofBytes (s.shareBytes co.c h.idx o.addr 128)).passes)).dropWaiters (fun w => match w.who with
    | .share _ rid i => decide (rid = r.rid ∧ i = h.idx)
    | _ => false)

/-- The same, with the share stopped and its core free. -/
def haltedShare : State :=
  ((withdrawnShare s co r h o p).modRun r.rid (shareStopped h.idx)).modCl co.c (fun x =>
    { x with
      cores := x.cores.map (fun (k : Core) =>
        { k with
          cur := if k.cur = some (r.rid, h.idx) then none else k.cur,
          susp := k.susp.filter (fun z => z ≠ (r.rid, h.idx)) }) })

end

theorem withdrawnShare_leaves : SameButWaits s (withdrawnShare s co r h o p) ∧ SameTests s (withdrawnShare s co r h o p) := by
  unfold withdrawnShare
  obtain ⟨same, tests⟩ := partLayer_leaves s co r h (p / (LayerDesc.ofBytes (s.shareBytes co.c h.idx o.addr 128)).passes)
  exact ⟨SameButWaits.trans same (dropWaiters_sameButWaits _ _), SameTests.trans tests (dropWaiters_sameTests _ _)⟩

theorem haltedShare_sched :
    (haltedShare s co r h o p).sched = ((withdrawnShare s co r h o p).modRun r.rid (shareStopped h.idx)).sched := by
  rw [haltedShare, modCl_sched]

/-- The run of the share is marked; its deadlines are as they were. -/
theorem haltedShare_run (found : s.run? r.rid = some r) :
    ∃ q, (haltedShare s co r h o p).run? r.rid = some q ∧ q.stopped = true ∧ q.passed = r.passed := by
  have leaves := withdrawnShare_leaves (s := s) (co := co) (r := r) (h := h) (o := o) (p := p)
  have sched := haltedShare_sched (s := s) (co := co) (r := r) (h := h) (o := o) (p := p)
  generalize haltedShare s co r h o p = t at sched
  generalize withdrawnShare s co r h o p = u at leaves sched
  obtain ⟨⟨-, -, -, -, view⟩, -⟩ := leaves
  obtain ⟨q, found', same⟩ := run_of_view (view := unwaited) (fun _ => rfl) view found
  refine ⟨shareStopped h.idx q, ?_, rfl, (congrArg Run.passed same :)⟩
  have e := run_modRun u r.rid r.rid (shareStopped h.idx) (fun _ => rfl)
  rw [found', Option.map_some, if_pos (run_rid found')] at e
  rw [← e]
  unfold State.run?
  rw [sched]

/-- A run but for its shares and the mark that one of them has stopped. -/
def unstopped (q : Run) : Run := { q with stopped := false, shares := [] }

theorem haltedShare_leaves (noStop : s.noStop) :
    (haltedShare s co r h o p).noStop ∧ (haltedShare s co r h o p).dram = s.dram ∧ SameTests s (haltedShare s co r h o p) := by
  have leaves := withdrawnShare_leaves (s := s) (co := co) (r := r) (h := h) (o := o) (p := p)
  unfold haltedShare
  generalize withdrawnShare s co r h o p = u at leaves
  obtain ⟨⟨mboxes, dram, -, -, view⟩, tests⟩ := leaves
  have noStop' := noStop_of_view (view := unwaited) (fun _ => rfl) (fun _ => rfl) noStop mboxes view
  have marked := modRun_view u r.rid (f := shareStopped h.idx) (view := unstopped) fun _ => rfl
  exact ⟨noStop_of_view (view := unstopped) (fun _ => rfl) (fun _ => rfl) noStop' rfl marked, dram, tests⟩

/-- A share that has no barge outstanding stops; its run waits for its deadline. -/
theorem stopShare_eq (found : s.run? r.rid = some r) (first : r.passed = 0) (noBarges : h.barges = [])
    (layer : h.ops.find? (fun x => x.kind = .matrix) = some o) :
    s.stopShare co r h (some p) = (haltedShare s co r h o p).dispatch co.c := by
  unfold State.stopShare
  rw [layer]
  extract_lets written abandoned waitless stop marked freed ended
  have none_left : abandoned = written := by
    unfold abandoned
    rw [noBarges]
    simp
  have halted : freed = haltedShare s co r h o p := by
    unfold freed marked waitless
    rw [none_left]
    rfl
  obtain ⟨q, found', -, passed⟩ := haltedShare_run (co := co) (h := h) (o := o) (p := p) found
  have unended : ended = haltedShare s co r h o p := by
    unfold ended
    rw [halted, found']
    dsimp only
    rw [passed, first]
    rfl
  rw [unended]

/-- A parity stop with no barge outstanding, before the run's deadline: the run is marked stopped, package DRAM is unchanged, and a
test of the array is queued. -/
theorem parityStop_stops (ready : s.readyOp co .matrix [0x01] = some (r, h, o)) (set : Nat) (first : r.passed = 0)
    (noBarges : h.barges = []) (noStop : s.noStop) :
    ∃ q, (s.parityStop co set p).run? r.rid = some q ∧ q.stopped = true ∧ (s.parityStop co set p).dram = s.dram ∧
      Tested (s.parityStop co set p) (.array co) := by
  obtain ⟨on, layer, -⟩ := readyOp_some ready
  obtain ⟨⟨mboxes, sched, -, dram, -⟩, tested, -⟩ := parityEvent_leaves s co set 1
  rw [parityStop_eq ready]
  generalize s.parityEvent co set 1 = u at mboxes sched dram tested
  have found : u.run? r.rid = some r := by
    unfold State.run?
    rw [sched]
    exact (shareOn_some on).2.1
  rw [stopShare_eq found first noBarges layer]
  obtain ⟨q, found', marked, -⟩ := haltedShare_run (co := co) (h := h) (o := o) (p := p) found
  obtain ⟨noStop', dram', tests'⟩ := haltedShare_leaves (s := u) (co := co) (r := r) (h := h) (o := o) (p := p)
    (noStop_of noStop mboxes (by rw [sched]; exact noStop.2))
  generalize haltedShare u co r h o p = v at found' noStop' dram' tests'
  obtain ⟨mboxes'', dram'', -, -, view⟩ := dispatch_sameButPlaces v co.c
  have settled := settleStop_of_noStop (noStop_of_view (view := unplaced) (fun _ => rfl) (fun _ => rfl) noStop' mboxes'' view)
  obtain ⟨q', found'', same⟩ := run_of_view (view := unplaced) (fun _ => rfl) view found'
  rw [settled]
  exact ⟨q', found'', Eq.trans (congrArg Run.stopped same :) marked, (dram''.trans dram').trans dram,
    tested.of_sameTests (tests'.trans (dispatch_sameTests v co.c))⟩

end Sys2Proof.Proofs
end

section
/-! The obligation of parity errors in the array. -/

namespace Sys2Proof.Proofs
open Sys2Proof.Machine

/-- Settles O16: an error that stops nothing by what its event leaves, one that stops the share by what the stopped share leaves of
the runs. -/
theorem parityErrorsAreHandled : Obligations.ParityErrorsAreHandled := by
  intro s co r h o p ready tested stops
  have stop {c : Instr} {set : Nat} (runs : exec c s = .next (s.parityStop co set p)) : stops c set := by
    refine ⟨by rw [runs, parityStop_eq ready], fun first noBarges _ noStop => ?_⟩
    obtain ⟨q, stopped⟩ := parityStop_stops (p := p) ready set first noBarges noStop
    exact ⟨_, q, runs, stopped⟩
  obtain ⟨on, -, -⟩ := readyOp_some ready
  exact ⟨activeSetParityError_marks ready, shadowSetParityError_reports ready,
    fun again => ⟨stop (exec_activeSetParityError_again ready again), stop (exec_arrayParityStop_again on again)⟩,
    stop rfl, stop rfl⟩

end Sys2Proof.Proofs
end

section
/-! SUPPORT. Undefined ranges of memory, and events of a context that do not go to the event log. -/

namespace Sys2Proof.Proofs
open Sys2Proof.Machine Sys2Proof.Laws

section
variable {lo len a : Nat} (outside : ¬ (lo ≤ a ∧ a < lo + len))
include outside

theorem find_outside_range (l : List Host.Cell) : Mem.find (l.filter (fun c => !inRange lo len c.1)) a = Mem.find l a := by
  induction l with
  | nil => rfl
  | cons c l ih =>
    by_cases removed : inRange lo len c.1 = true
    · have other : a ≠ c.1 := by
        rintro rfl
        exact outside (of_decide_eq_true removed)
      simp [removed, Mem.find, other, ih]
    · simp [removed, Mem.find, ih]

theorem read_junk_outside (m : Mem) (k : Nat) : (m.junk lo len k).read a = m.read a := by
  simp only [Mem.read, Mem.unlisted, Mem.junk, find_outside_range outside, Mem.epochAt, if_neg outside,
    epochAt_filter _ _ _ _ outside]

end

/-- `t` has what the rings' entries are made of and go to: time, reaches and PCIe function, event log, rings, host memory. -/
structure SameRings (s t : State) : Prop where
  dev : t.dev = s.dev
  pcie : t.pcie = s.pcie
  log : t.log = s.log
  rings : t.rings = s.rings
  host : t.host = s.host

section
variable {s t : State} (same : SameRings s t)
include same

theorem sendVec_sameRings (v : Nat) : SameRings (s.sendVec v) (t.sendVec v) := by
  obtain ⟨dev, pcie, log, rings, host⟩ := same
  unfold State.sendVec
  rw [pcie]
  split <;> exact ⟨dev, rfl, log, rings, host⟩

theorem modRing_sameRings (r : Nat) (f : Ring → Ring) : SameRings (s.modRing r f) (t.modRing r f) := by
  obtain ⟨dev, pcie, log, rings, host⟩ := same
  exact ⟨dev, pcie, log, by simp only [State.modRing, rings], host⟩

theorem qmUp_sameRings : t.qmUp = s.qmUp := by
  simp only [State.qmUp, State.on, same.dev, same.pcie]

theorem now_sameRings : t.now = s.now := congrArg (fun d => d.systime.toNat) same.dev

theorem ringPut_sameRings (r : Nat) (e : List Byte) : SameRings (s.ringPut r e) (t.ringPut r e) := by
  obtain ⟨dev, pcie, log, rings, host⟩ := same
  have entry : assoc t.rings r = assoc s.rings r := by rw [rings]
  unfold State.ringPut
  rw [entry]
  split
  · exact ⟨dev, pcie, log, rings, host⟩
  · next g _ =>
    have put := modRing_sameRings (s := { s with host := s.host.writeBytes (g.slot g.dev.toNat) (padTo 64 e) })
      (t := { t with host := t.host.writeBytes (g.slot g.dev.toNat) (padTo 64 e) })
      ⟨dev, pcie, log, rings, by rw [host]⟩ r (fun g => { g with dev := g.dev + 1, arm := false })
    dsimp only
    split
    · exact sendVec_sameRings put _
    · exact put

theorem eventLost_sameRings (r : Nat) : SameRings (s.eventLost r) (t.eventLost r) := by
  unfold State.eventLost
  rw [same.rings, qmUp_sameRings same, now_sameRings same]
  split
  · exact same
  · split
    · exact same
    · split
      · exact same
      · exact modRing_sameRings (ringPut_sameRings same r _) r _

theorem ringEvent_sameRings (r code ctx w : Nat) (log : Bool) (data : List Byte) :
    SameRings (s.ringEvent r code ctx w log data) (t.ringEvent r code ctx w log data) := by
  have lost := eventLost_sameRings same r
  unfold State.ringEvent
  dsimp only
  rw [lost.rings, qmUp_sameRings lost, now_sameRings lost]
  split
  · exact lost
  · split
    · exact modRing_sameRings lost r _
    · exact modRing_sameRings (ringPut_sameRings lost r _) r _

/-- An event outside the log does the same to the rings, whatever else the device holds. -/
theorem event_sameRings (code ctx w : Nat) (data : List Byte) :
    SameRings (s.event code ctx w false data) (t.event code ctx w false data) := by
  unfold State.event State.eventRing
  rw [same.rings]
  dsimp only [Bool.false_eq_true, if_false]
  split
  · exact same
  · exact ringEvent_sameRings same _ code ctx w false data

/-- What an event outside the log reports depends on the rings alone. -/
theorem event_reports {code ctx w : Nat} {data : List Byte} : s.reports (t.event code ctx w false data) code ctx w false data := by
  have reported := event_sameRings same code ctx w data
  exact ⟨reported.log, reported.rings, reported.host⟩

end

end Sys2Proof.Proofs
end

section
/-! SUPPORT. The end of an adaptation job (R205). -/

namespace Sys2Proof.Proofs
open Sys2Proof.Machine Sys2Proof.Laws

/-- The data of ADAPT_DONE. -/
def adaptDone (j : Job) (outcome : Nat) : List Byte :=
  leBytes 1 j.cargo ++ leBytes 1 outcome ++ leBytes 4 j.done ++ leBytes 4 j.dropped ++ w32 j.before ++ w32 j.after ++ w32 j.stale

/-- `t` is `s` without the job `j` of its cargo, ADAPT_DONE reported with the outcome. -/
structure JobEnds (s t : State) (j : Job) (outcome : Nat) : Prop where
  jobs : t.jobs = s.jobs.filter (fun x => x.cargo ≠ j.cargo)
  work : SameWork s t
  done : s.reports t 0x0207 j.owner 0xFF false (adaptDone j outcome)

/-- The state without the job on a cargo. -/
def withoutJob (s : State) (c : Nat) : State := { s with jobs := s.jobs.filter (fun x => x.cargo ≠ c) }

theorem withoutJob_sameRings (s : State) (c : Nat) : SameRings s (withoutJob s c) := ⟨rfl, rfl, rfl, rfl, rfl⟩

theorem jobEnd_eq (s : State) {j : Job} (waiting : j.phase ≠ 4) (outcome : Nat) :
    s.jobEnd j outcome = (withoutJob s j.cargo).event 0x0207 j.owner 0xFF false (adaptDone j outcome) := if_neg waiting

theorem jobEnd_ends (s : State) {j : Job} (waiting : j.phase ≠ 4) (outcome : Nat) : JobEnds s (s.jobEnd j outcome) j outcome := by
  rw [jobEnd_eq s waiting outcome]
  refine ⟨?jobs, event_sameWork (withoutJob s j.cargo) _ _ _ _ _, event_reports (withoutJob_sameRings s j.cargo)⟩
  obtain ⟨_, _, _, _, _, frame⟩ := event_frame (withoutJob s j.cargo) 0x0207 j.owner 0xFF false (adaptDone j outcome)
  rw [frame]
  rfl

theorem jobOf_cargo {s : State} {c : Nat} {j : Job} (found : s.jobOf c = some j) : j.cargo = c :=
  of_decide_eq_true (List.find?_some found :)

end Sys2Proof.Proofs
end

section
/-! SUPPORT. ADAPT_START, ADAPT_ABORT and ADAPT_INFO (R205, R206, R437). -/

namespace Sys2Proof.Proofs
open Sys2Proof.Machine Sys2Proof.Laws

variable {s : State} {m : Fin 8} {ctx : Nat} {p : List Byte} {g : Cargo} {j : Job}

/-- Mailbox m holds an ADAPT_START of legal fields taken (R437): cargo `g` of its context has no job, the entry named is of class
ADAPT and ticked by a CONTROL source (R198), and the region named, of partition `q`, is there, powered and idle. -/
structure StartsJob (s : State) (m : Fin 8) (ctx : Nat) (p : List Byte) (g : Cargo) (q : Fin 4) : Prop where
  taken : s.holdsTaken m 0x0C01 ctx p
  flags : field p 2 1 < 2
  reserved : field p 3 1 = 0
  black : field p 8 2 ≤ 1024
  footage : 1 ≤ field p 10 2 ∧ field p 10 2 ≤ 4096
  iterations : 1 ≤ field p 12 4 ∧ field p 12 4 ≤ 1000000
  seconds : 1 ≤ field p 16 4 ∧ field p 16 4 ≤ 86400
  found : s.cargo? (field p 0 1) = some g
  own : g.owner = ctx
  region : ∃ r, s.region? (field p 4 4) = some (q, r)
  entry : ∃ tt e, s.sched.tt = some tt ∧ tt.entries.find? (fun e => e.id = field p 1 1) = some e ∧ e.cls = 3 ∧
    s.sched.src[e.source].kind = 4
  free : s.jobOf (field p 0 1) = none
  powered : s.on (clusterReach q) = true
  idle : s.regionBusy (field p 4 4) = false

theorem exec_adaptStart {q : Fin 4} (h : StartsJob s m ctx p g q) :
    ∃ j f, exec (.adaptStart m) s = .next (State.reply { s with jobs := s.jobs ++ [j], fresh := f } m (ok [])) ∧
      j.cargo = field p 0 1 ∧ j.phase = 1 ∧ j.owner = ctx ∧ j.region = field p 4 4 ∧
      j.limit = s.now + field p 16 4 * 1000000000 ∧ j.captured = 0 ∧ j.groups = [] := by
  obtain ⟨r, region⟩ := h.region
  obtain ⟨tt, e, running, entry, ground, control⟩ := h.entry
  have legal : (s.sched.tt.bind (fun tt => tt.entries.find? (fun e => e.id = field p 1 1))).any
      (fun e => e.cls = 3 && s.sched.src[e.source].kind = 4) = true := by
    rw [running, Option.bind_some, entry, Option.any_some, ground, control]
    rfl
  change ∃ j f, execAdaptStart m s = _ ∧ _
  unfold execAdaptStart
  rw [answer_holdsTaken h.taken]
  dsimp only
  rw [checked_of_passed]
  · exact ⟨_, _, rfl, rfl, rfl, rfl, rfl, rfl, rfl, rfl⟩
  · simp only [List.forall_mem_cons, List.not_mem_nil, h.found, h.free, region]
    exact ⟨decide_eq_false (not_le.2 h.flags), decide_eq_false (not_not.2 h.reserved), decide_eq_false (not_lt.2 h.black),
      decide_eq_false (by have := h.footage; omega), decide_eq_false (by have := h.iterations; omega),
      decide_eq_false (by have := h.seconds; omega), rfl, any_some_eq_false (decide_eq_false (not_not.2 h.own)), rfl,
      by rw [legal]; rfl, rfl, any_some_eq_false (by rw [h.powered]; rfl), h.idle, fun _ h => h.elim⟩

/-- A legal ADAPT_START enters one job, in its capture phase. -/
theorem adaptStart_enters {q : Fin 4} (h : StartsJob s m ctx p g q) :
    ∃ t j, exec (.adaptStart m) s = .next t ∧ s.replied t m (ok []) ∧ t.jobs = s.jobs ++ [j] ∧ j.cargo = field p 0 1 ∧
      j.phase = 1 ∧ j.owner = ctx ∧ j.region = field p 4 4 ∧ j.limit = s.now + field p 16 4 * 1000000000 ∧ j.captured = 0 ∧
      j.groups = [] ∧ t = { s with jobs := t.jobs, fresh := t.fresh, mboxes := t.mboxes, glb := t.glb, pcie := t.pcie } := by
  obtain ⟨j, f, executed, cargo, phase, owner, region, limit, captured, groups⟩ := exec_adaptStart h
  refine ⟨_, j, executed, replied_reply s { s with jobs := s.jobs ++ [j], fresh := f } rfl m _, ?_⟩
  obtain ⟨_, _, _, frame⟩ := reply_frame { s with jobs := s.jobs ++ [j], fresh := f } m (ok [])
  rw [frame]
  exact ⟨rfl, cargo, phase, owner, region, limit, captured, groups, rfl⟩

/-- The checks of ADAPT_ABORT and ADAPT_INFO pass for a cargo that is there. -/
theorem adaptTarget_passed {t : Taken} (found : s.cargo? (field t.payload 0 1) = some g) (reserved : field t.payload 1 3 = 0) :
    ∀ x ∈ s.adaptTarget t, x.1 = false := by
  simp only [State.adaptTarget, List.forall_mem_cons, List.not_mem_nil, found]
  exact ⟨decide_eq_false (not_not.2 reserved), rfl, fun _ h => h.elim⟩

section
variable (found : s.cargo? (field p 0 1) = some g) (job : s.jobOf (field p 0 1) = some j) (reserved : field p 1 3 = 0)
include found job reserved

theorem exec_adaptAbort (taken : s.holdsTaken m 0x0C02 ctx p) (own : g.owner = ctx) :
    exec (.adaptAbort m) s = .next ((s.jobEnd j 2).reply m (ok [])) := by
  change execAdaptAbort m s = _
  unfold execAdaptAbort
  rw [answer_holdsTaken taken]
  dsimp only
  rw [checked_of_passed]
  · simp only [job]
  · simp only [List.forall_mem_append, List.forall_mem_cons, List.not_mem_nil, found, job]
    exact ⟨adaptTarget_passed found reserved, any_some_eq_false (decide_eq_false (not_not.2 own)), rfl, fun _ h => h.elim⟩

/-- ADAPT_ABORT ends the job with ADAPT_DONE, outcome 2. -/
theorem adaptAbort_ends (taken : s.holdsTaken m 0x0C02 ctx p) (own : g.owner = ctx) (waiting : j.phase ≠ 4) :
    ∃ t, exec (.adaptAbort m) s = .next t ∧ s.replied t m (ok []) ∧ t.jobs = s.jobs.filter (fun x => x.cargo ≠ field p 0 1) ∧
      t.dram = s.dram ∧ t.clusters = s.clusters ∧ s.reports t 0x0207 j.owner 0xFF false (adaptDone j 2) := by
  obtain ⟨jobs, ⟨mboxes, -, clusters, dram, -⟩, done⟩ := jobEnd_ends s waiting 2
  rw [jobOf_cargo job] at jobs
  refine ⟨_, exec_adaptAbort found job reserved taken own, replied_reply s _ mboxes m _, ?_⟩
  obtain ⟨_, _, _, frame⟩ := reply_frame (s.jobEnd j 2) m (ok [])
  rw [frame]
  exact ⟨jobs, dram, clusters, done⟩

/-- ADAPT_INFO answers the job's phase and counts. -/
theorem adaptInfo_answers (taken : s.holdsTaken m 0x0C03 ctx p) :
    Answers (.adaptInfo m) s m (ok (leBytes 4 j.phase ++ leBytes 4 j.done ++ leBytes 4 j.dropped ++ w32 j.stale)) := by
  refine answers_of_reply ?_
  change execAdaptInfo m s = _
  unfold execAdaptInfo
  rw [answer_holdsTaken taken]
  dsimp only
  rw [checked_of_passed (adaptTarget_passed found reserved)]
  simp only [job]

end

end Sys2Proof.Proofs
end

section
/-! SUPPORT. The capture of a row, the time limit and the commit of a job (R199, R201, R203 to R205). -/

namespace Sys2Proof.Proofs
open Sys2Proof.Machine Sys2Proof.Laws

variable {s : State} {c : Byte} {j : Job}

/-- A range of DRAM left undefined leaves the other bytes. -/
theorem junkDram_outside (s : State) {base len a : Nat} (outside : a < base ∨ base + len ≤ a) :
    (s.junkDram base len).dram.read a = s.dram.read a :=
  read_junk_outside (by omega) s.dram s.epoch

/-- What a job's end leaves, for the job found on a cargo. -/
theorem JobEnds.of_cargo {t : State} {outcome : Nat} (ends : JobEnds s t j outcome) (cargo : j.cargo = c.toNat) :
    t.jobs = s.jobs.filter (fun x => x.cargo ≠ c.toNat) ∧ t.dram = s.dram ∧
      s.reports t 0x0207 j.owner 0xFF false (adaptDone j outcome) := by
  obtain ⟨jobs, ⟨-, -, -, dram, -⟩, done⟩ := ends
  exact ⟨cargo ▸ jobs, dram, done⟩

/-- The job of a cargo, after a change of it that keeps its cargo. -/
theorem jobOf_modJob (s : State) (c : Nat) {f : Job → Job} (cargo : ∀ j, (f j).cargo = j.cargo) :
    (s.modJob c f).jobOf c = (s.jobOf c).map f := by
  have same : (fun j => decide (j.cargo = c)) ∘ (fun j => if j.cargo = c then f j else j) = fun j : Job => decide (j.cargo = c) := by
    funext j
    simp only [Function.comp]
    split
    · rw [cargo]
    · rfl
  simp only [State.jobOf, State.modJob, List.find?_map, same]
  exact Option.map_congr fun j found => if_pos (of_decide_eq_true (List.find?_some found :))

/-- The state with the job on a cargo replaced by one of that cargo. -/
theorem jobOf_replaced (s : State) (y : Job) :
    State.jobOf { s with jobs := s.jobs.filter (fun x => x.cargo ≠ y.cargo) ++ [y] } y.cargo = some y := by
  have none_left : (s.jobs.filter (fun x => x.cargo ≠ y.cargo)).find? (fun x => x.cargo = y.cargo) = none := by
    simp [List.find?_eq_none]
  unfold State.jobOf
  rw [List.find?_append, none_left, Option.none_or]
  exact List.find?_cons_of_pos (decide_eq_true rfl)

/-! ### Capture -/

/-- The place of the newest prepared row of a receiver among all rows. -/
def rowPlace (x : Rx) : Nat := x.frame.toNat * 65536 + (x.row - 1)

/-- The newest row of receiver `n` of the video chain is there for job `j` of cargo `c` in its capture phase to take (R199), and is not
the last of its frame; the job's region `r` is reached. -/
structure Captures (s : State) (c : Nat) (j : Job) (n : Fin 2) (r : Region) : Prop where
  job : s.jobOf c = some j
  firmware : s.fwUp = true
  source : s.videoRx = some n
  phase : j.phase = 1
  inFrame : s.img.rx[n].inFrame = true
  prepared : 0 < s.img.rx[n].row
  notLast : s.img.rx[n].row < s.img.rx[n].cfg.height
  new : j.pos < rowPlace s.img.rx[n]
  more : j.captured ≠ j.black + j.footage
  region : ∃ q, s.region? j.region = some (q, r) ∧ s.clusterUp q = true
  notCopied : s.copying r.base r.len = false

/-- A job with the row at `pos` captured and `captured` whole frames (R199). -/
def rowTaken (captured pos : Nat) (x : Job) : Job :=
  { x with pos := pos, captured := captured, phase := if captured = x.black + x.footage then 2 else 1 }

theorem exec_dataSetCapture {n : Fin 2} {r : Region} (h : Captures s c.toNat j n r) :
    exec (.dataSetCapture c) s =
      .next ((s.junkDram r.base r.len).modJob c.toNat (rowTaken j.captured (rowPlace s.img.rx[n]))) := by
  obtain ⟨q, region, up⟩ := h.region
  have notLast : decide (s.img.rx[n].row = s.img.rx[n].cfg.height) = false := decide_eq_false (Nat.ne_of_lt h.notLast)
  change execDataSetCapture c s = _
  unfold execDataSetCapture
  rw [h.job, h.source]
  dsimp only
  rw [if_pos ⟨h.phase, h.firmware, h.inFrame, h.prepared, h.new⟩, region, jobOf_cargo h.job]
  simp only [up, h.notCopied, notLast, b2n, Nat.add_zero, Bool.not_true, Bool.false_eq_true, if_false]
  rfl

/-- A row captured moves the job on and touches DRAM in its region only. -/
theorem dataSetCapture_moves_on {n : Fin 2} {r : Region} (h : Captures s c.toNat j n r) :
    ∃ t, exec (.dataSetCapture c) s = .next t ∧ t = { s with dram := t.dram, epoch := t.epoch, jobs := t.jobs } ∧
      t.jobOf c.toNat = some { j with pos := rowPlace s.img.rx[n] } ∧
      ∀ a, a < r.base ∨ r.base + r.len ≤ a → t.dram.read a = s.dram.read a := by
  have job : (s.junkDram r.base r.len).jobOf c.toNat = some j := h.job
  have moved : rowTaken j.captured (rowPlace s.img.rx[n]) j = { j with pos := rowPlace s.img.rx[n] } := by
    rw [rowTaken, if_neg h.more, ← h.phase]
  refine ⟨_, exec_dataSetCapture h, rfl, ?_, fun a => junkDram_outside s⟩
  rw [jobOf_modJob _ _ (fun _ => by rfl), job, Option.map_some, moved]

/-! ### Time limit -/

/-- A job past its limit ends with outcome 3. -/
theorem adaptTimeLimit_ends (job : s.jobOf c.toNat = some j) (firmware : s.fwUp = true) (early : j.phase ≤ 2)
    (late : j.limit ≤ s.now) : ∃ t, exec (.adaptTimeLimit c) s = .next t ∧ JobEnds s t j 3 := by
  refine ⟨_, ?_, jobEnd_ends s (by omega) 3⟩
  change execAdaptTimeLimit c s = _
  unfold execAdaptTimeLimit
  rw [job]
  exact congrArg Host.Outcome.next (if_pos ⟨firmware, early, late⟩)

/-! ### Commit -/

/-- A job once its losses before and after are known. -/
def evaluatedJob (j : Job) (before after : W32) : Job := { j with before := before, after := after }

theorem evaluatedJob_waiting (phase : j.phase = 3) (before after : W32) : (evaluatedJob j before after).phase ≠ 4 := by
  change j.phase ≠ 4
  omega

/-- The new adapter is discarded where the job does not commit by itself. -/
theorem adaptCommit_discards (job : s.jobOf c.toNat = some j) (firmware : s.fwUp = true) (phase : j.phase = 3)
    (manual : j.auto = false) (before : W32) (new : NewAdapter) :
    ∃ t, exec (.adaptCommit c before new) s = .next t ∧ JobEnds s t (evaluatedJob j before new.loss) 1 := by
  refine ⟨_, ?_, jobEnd_ends s (evaluatedJob_waiting phase before new.loss) 1⟩
  change execAdaptCommit c before new s = _
  unfold execAdaptCommit
  rw [job]
  dsimp only
  rw [if_neg (not_not.2 ⟨firmware, phase⟩), manual]
  split <;> rfl

/-- The job of a committed adapter that awaits its takeover, with the groups of weights that the command carries (log entry 53)
quantised (R203, R204). -/
def committedJob (j : Job) (before : W32) (new : NewAdapter) : Job :=
  { evaluatedJob j before new.loss with phase := 4, groups := new.weights.map adaptQuantise }

/-- The first address of the inactive half of a cargo's adapter area (R203). -/
def inactiveHalf (s : State) (g : Cargo) (c : Nat) : Nat :=
  g.base + g.adapterOff + ((s.adapters.find? (fun a => a.cargo = c)).map (fun a => 1 - a.half)).getD 1 * g.adapterLen

/-- The job of cargo `g` commits: AUTO, evaluated with a loss that fell, and the inactive half of the adapter area is reached. -/
structure Commits (s : State) (c : Nat) (j : Job) (g : Cargo) (before after : W32) : Prop where
  job : s.jobOf c = some j
  firmware : s.fwUp = true
  phase : j.phase = 3
  found : s.cargo? c = some g
  auto : j.auto = true
  fell : (fcmp fp32 .lt after.toNat before.toNat).1 = true
  area : g.adapterOff ≠ 0
  reached : ∀ q, partOf (inactiveHalf s g c) = some q → s.clusterUp q = true
  notCopied : s.copying (inactiveHalf s g c) g.adapterLen = false

/-- The state as a commit leaves it: ADAPT_DONE with outcome 0, and the job again, awaiting its takeover. -/
def commitDone (s : State) (g : Cargo) (j : Job) (before : W32) (new : NewAdapter) : State :=
  let t := (s.junkDram (inactiveHalf s g j.cargo) g.adapterLen).jobEnd (evaluatedJob j before new.loss) 0
  { t with jobs := t.jobs ++ [committedJob j before new] }

theorem exec_adaptCommit {g : Cargo} {before : W32} {new : NewAdapter} (h : Commits s c.toNat j g before new.loss) :
    exec (.adaptCommit c before new) s = .next (commitDone s g j before new) := by
  obtain ⟨job, firmware, phase, found, auto, fell, area, reached, notCopied⟩ := h
  have cargo := jobOf_cargo job
  rw [← cargo] at found reached notCopied
  have up : (partOf (inactiveHalf s g j.cargo)).any (fun p => !s.clusterUp p) = false := by
    cases part : partOf (inactiveHalf s g j.cargo) with
    | none => rfl
    | some q => exact any_some_eq_false (by rw [reached q part]; rfl)
  change execAdaptCommit c before new s = _
  unfold execAdaptCommit
  rw [job]
  dsimp only
  rw [if_neg (not_not.2 ⟨firmware, phase⟩), found]
  unfold inactiveHalf at *
  dsimp only
  rw [if_pos (by simp [auto, fell, area]), if_neg (Bool.eq_false_iff.1 up), if_neg (Bool.eq_false_iff.1 notCopied)]
  rfl

/-- A commit leaves the job in phase 4 with its weights quantised, and touches DRAM in the inactive half only. -/
theorem adaptCommit_commits {g : Cargo} {before : W32} {new : NewAdapter} (h : Commits s c.toNat j g before new.loss) :
    ∃ t, exec (.adaptCommit c before new) s = .next t ∧ t.jobOf c.toNat = some (committedJob j before new) ∧
      ∀ a, a < inactiveHalf s g c.toNat ∨ inactiveHalf s g c.toNat + g.adapterLen ≤ a → t.dram.read a = s.dram.read a := by
  have cargo := jobOf_cargo h.job
  obtain ⟨jobs, ⟨-, -, -, dram, -⟩, -⟩ := jobEnd_ends (s.junkDram (inactiveHalf s g j.cargo) g.adapterLen)
    (evaluatedJob_waiting h.phase before new.loss) 0
  refine ⟨_, exec_adaptCommit h, ?_, fun a outside => ?_⟩
  · have replaced := jobOf_replaced s (committedJob j before new)
    unfold commitDone
    dsimp only
    rw [jobs, ← cargo]
    exact replaced
  · rw [← cargo] at outside
    exact (congrArg (fun d => d.read a) dram).trans (junkDram_outside s outside)

end Sys2Proof.Proofs
end

section
/-! The obligation of the adaptation jobs. -/

namespace Sys2Proof.Proofs
open Sys2Proof.Machine

/-- Settles O44: the commands of the mailbox by what they do once their checks pass, the end of a job by `JobEnds`, and DRAM by a read
outside the range that a capture or a commit leaves undefined. -/
theorem adaptationJobsRun : Obligations.AdaptationJobsRun := by
  refine ⟨fun s m ctx p g found => ⟨?start, fun j job reserved => ⟨?abort, ?info⟩⟩,
    fun s c j job firmware => ⟨?capture, ?limit, fun before after weights phase => ⟨?discard, ?commit⟩⟩⟩
  case start =>
    intro tt e r taken flags zero black footage footage' iterations iterations' seconds seconds' own region running entry ground
      control free powered idle
    exact adaptStart_enters (q := r.1) ⟨taken, flags, zero, black, ⟨footage, footage'⟩, ⟨iterations, iterations'⟩,
      ⟨seconds, seconds'⟩, found, own, ⟨r.2, region⟩, ⟨tt, e, running, entry, ground, control⟩, free, powered, idle⟩
  case abort => exact adaptAbort_ends found job reserved
  case info => exact adaptInfo_answers found job reserved
  case capture =>
    intro n q r x source phase inFrame prepared notLast new more region up notCopied
    exact dataSetCapture_moves_on
      ⟨job, firmware, source, phase, inFrame, prepared, notLast, new, more, ⟨q, region, up⟩, notCopied⟩
  case limit =>
    intro early late
    obtain ⟨t, executed, ends⟩ := adaptTimeLimit_ends job firmware early late
    exact ⟨t, executed, ends.of_cargo (jobOf_cargo job)⟩
  case discard =>
    intro manual
    have cargo := jobOf_cargo job
    obtain ⟨t, executed, ends⟩ := adaptCommit_discards job firmware phase manual before ⟨after, weights⟩
    exact ⟨t, executed, ends.of_cargo cargo⟩
  case commit =>
    intro g half at_ found auto fell area reached notCopied
    obtain ⟨t, executed, job', outside⟩ := adaptCommit_commits (new := ⟨after, weights⟩)
      ⟨job, firmware, phase, found, auto, fell, area, reached, notCopied⟩
    exact ⟨t, executed, ⟨_, job', rfl, rfl, rfl, rfl⟩, outside⟩

end Sys2Proof.Proofs
end

section
/-! SUPPORT. Keyed lists, and a command that changes the state before its reply. -/

namespace Sys2Proof.Proofs
open Sys2Proof.Machine Sys2Proof.Laws

section
variable {α β : Type} [DecidableEq α]

/-- What a keyed list holds once a value is put. -/
theorem assoc_assocSet (l : List (α × β)) (k x : α) (v : β) :
    assoc (assocSet l k v) x = if x = k then some v else assoc l x := by
  induction l with
  | nil => rfl
  | cons e l ih =>
    obtain ⟨a, w⟩ := e
    by_cases here : k = a
    · subst here
      simp only [assocSet, if_true, assoc]
      split <;> rfl
    · rw [assocSet, if_neg here, assoc, ih, assoc]
      by_cases at_ : x = a
      · subst at_
        simp only [if_true, if_neg (Ne.symm here)]
      · simp only [if_neg at_]

theorem assoc_assocSet_same (l : List (α × β)) (k : α) (v : β) : assoc (assocSet l k v) k = some v := by
  rw [assoc_assocSet, if_pos rfl]

theorem assoc_assocSet_other (l : List (α × β)) {k x : α} (other : x ≠ k) (v : β) : assoc (assocSet l k v) x = assoc l x := by
  rw [assoc_assocSet, if_neg other]

/-- What a keyed list holds once a key is removed. -/
theorem assoc_assocDel (l : List (α × β)) (k x : α) : assoc (assocDel l k) x = if x = k then none else assoc l x := by
  induction l with
  | nil => simp [assocDel, assoc]
  | cons e l ih =>
    obtain ⟨a, w⟩ := e
    unfold assocDel at *
    by_cases here : a = k
    · subst here
      rw [List.filter_cons_of_neg (by simp), ih, assoc]
      split <;> rfl
    · rw [List.filter_cons_of_pos (by simpa using here), assoc, ih, assoc]
      by_cases at_ : x = a
      · subst at_
        simp only [if_true, if_neg here]
      · simp only [if_neg at_]

theorem assoc_assocDel_same (l : List (α × β)) (k : α) : assoc (assocDel l k) k = none := by
  rw [assoc_assocDel, if_pos rfl]

theorem assoc_assocDel_other (l : List (α × β)) {k x : α} (other : x ≠ k) : assoc (assocDel l k) x = assoc l x := by
  rw [assoc_assocDel, if_neg other]

end

/-- A command that leaves `u` before it replies: beside the reply, `u` stays. -/
theorem replied_of_reply {c : Instr} {s u : State} {m : Fin 8} {r : Reply} (executed : exec c s = .next (u.reply m r))
    (mboxes : u.mboxes = s.mboxes) :
    ∃ t, exec c s = .next t ∧ s.replied t m r ∧ t = { u with mboxes := t.mboxes, glb := t.glb, pcie := t.pcie } := by
  refine ⟨_, executed, replied_reply s u mboxes m r, ?_⟩
  obtain ⟨b, p, g, frame⟩ := reply_frame u m r
  rw [frame]

end Sys2Proof.Proofs
end

section
/-! SUPPORT. The commands of contexts and quotas (R264, R266, R409, R411, R430, R432). -/

namespace Sys2Proof.Proofs
open Sys2Proof.Machine Sys2Proof.Laws

variable {s : State} {m : Fin 8} {ctx c : Nat} {p : List Byte}

/-! ### CONTEXT_CREATE -/

/-- The context that a CONTEXT_CREATE or its payload asks for (R430). -/
def newCtx (p : List Byte) : Ctx := ⟨field p 0 1, field p 4 4, field p 8 4, field p 8 4, none, false⟩

theorem exec_contextCreate (taken : s.holdsTaken m 0x0410 ctx p) (cls : field p 0 1 < 4) (reserved : field p 1 3 = 0)
    (quota : field p 4 4 ≤ 16384) (budget : field p 8 4 ≤ 5460)
    (free : ((List.range 63).map (· + 1)).find? (fun c => !s.ctxExists c) = some c) :
    exec (.contextCreate m) s = .next (State.reply { s with ctxs := assocSet s.ctxs c (newCtx p) } m (ok (leBytes 4 c))) := by
  change execContextCreate m s = _
  unfold execContextCreate
  rw [answer_holdsTaken taken]
  simp only [free]
  rw [checked_of_passed]
  · rfl
  · simp only [List.forall_mem_cons, List.not_mem_nil]
    exact ⟨decide_eq_false (by omega), decide_eq_false (by omega), decide_eq_false (by omega), decide_eq_false (by omega), rfl,
      fun _ h => h.elim⟩

/-- CONTEXT_CREATE makes the lowest free context (R430). -/
theorem contextCreate_creates (taken : s.holdsTaken m 0x0410 ctx p) (cls : field p 0 1 < 4) (reserved : field p 1 3 = 0)
    (quota : field p 4 4 ≤ 16384) (budget : field p 8 4 ≤ 5460)
    (free : ((List.range 63).map (· + 1)).find? (fun c => !s.ctxExists c) = some c) :
    ∃ t, exec (.contextCreate m) s = .next t ∧ s.replied t m (ok (leBytes 4 c)) ∧
      t = { s with ctxs := t.ctxs, used := t.used, mboxes := t.mboxes, glb := t.glb, pcie := t.pcie } ∧ t.used = s.used ∧
      assoc t.ctxs c = some (newCtx p) ∧ ∀ d, d ≠ c → assoc t.ctxs d = assoc s.ctxs d := by
  obtain ⟨t, executed, replied, left⟩ := replied_of_reply (exec_contextCreate taken cls reserved quota budget free) rfl
  refine ⟨t, executed, replied, ?_⟩
  rw [left]
  exact ⟨rfl, rfl, assoc_assocSet_same _ _ _, fun d other => assoc_assocSet_other _ other _⟩

/-! ### A context named -/

/-- The checks of the context a command names pass where it exists and, unless the command takes 0, is not 0. -/
theorem ctxTarget_passed {t : Taken} {zero : Bool} (known : field t.payload 0 1 ≤ 63) (named : zero = true ∨ 0 < field t.payload 0 1)
    (reserved : field t.payload 1 3 = 0) (found : s.ctxExists (field t.payload 0 1) = true) :
    ∀ x ∈ s.ctxTarget t zero, x.1 = false := by
  simp only [State.ctxTarget, List.forall_mem_cons, List.not_mem_nil, found]
  refine ⟨?_, decide_eq_false (by omega), rfl, fun _ h => h.elim⟩
  rw [decide_eq_false (by omega), Bool.false_or]
  obtain rfl | positive := named
  · rfl
  · rw [decide_eq_false (by omega), Bool.and_false]

theorem ctxExists_of_assoc {x : Ctx} (found : assoc s.ctxs c = some x) : s.ctxExists c = true := by
  rw [State.ctxExists, found]
  rfl

/-! ### CONTEXT_DESTROY -/

/-- The state without a context (R411). -/
def withoutCtx (s : State) (c : Nat) : State :=
  { s with ctxs := assocDel s.ctxs c, used := s.used.filter (fun u => u.1.1 ≠ c) }

theorem exec_contextDestroy (taken : s.holdsTaken m 0x0411 ctx p) (named : 0 < field p 0 1) (known : field p 0 1 ≤ 63)
    (reserved : field p 1 3 = 0) (found : s.ctxExists (field p 0 1) = true) (empty : s.ctxOwns (field p 0 1) = false) :
    exec (.contextDestroy m) s = .next ((withoutCtx s (field p 0 1)).reply m (ok [])) := by
  change execContextDestroy m s = _
  unfold execContextDestroy
  rw [answer_holdsTaken taken]
  dsimp only
  rw [checked_of_passed]
  · rfl
  · simp only [List.forall_mem_append, List.forall_mem_cons, List.not_mem_nil]
    exact ⟨ctxTarget_passed known (.inr named) reserved found, empty, fun _ h => h.elim⟩

/-- CONTEXT_DESTROY removes the context and no other (R411, R430). -/
theorem contextDestroy_destroys (taken : s.holdsTaken m 0x0411 ctx p) (named : 0 < field p 0 1) (known : field p 0 1 ≤ 63)
    (reserved : field p 1 3 = 0) (found : s.ctxExists (field p 0 1) = true) (empty : s.ctxOwns (field p 0 1) = false) :
    ∃ t, exec (.contextDestroy m) s = .next t ∧ s.replied t m (ok []) ∧
      t = { s with ctxs := t.ctxs, used := t.used, mboxes := t.mboxes, glb := t.glb, pcie := t.pcie } ∧
      assoc t.ctxs (field p 0 1) = none ∧ ∀ d, d ≠ field p 0 1 → assoc t.ctxs d = assoc s.ctxs d := by
  obtain ⟨t, executed, replied, left⟩ := replied_of_reply (exec_contextDestroy taken named known reserved found empty) rfl
  refine ⟨t, executed, replied, ?_⟩
  rw [left]
  exact ⟨rfl, assoc_assocDel_same _ _, fun d other => assoc_assocDel_other _ other⟩

/-! ### QUOTA_SET -/

/-- A context with the quota and the budget of a QUOTA_SET: the budget takes effect at the next tick (R266). -/
def requota (now : Nat) (p : List Byte) (x : Ctx) : Ctx :=
  { x with
    quota := field p 4 4, budgetSet := field p 8 4, setStamp := if field p 8 4 = x.budgetSet then x.setStamp else some now }

/-- Mailbox m holds a QUOTA_SET of legal fields taken, of a context `x` that exists (R432). -/
structure SetsQuota (s : State) (m : Fin 8) (ctx : Nat) (p : List Byte) (x : Ctx) : Prop where
  taken : s.holdsTaken m 0x0430 ctx p
  named : 0 < field p 0 1
  known : field p 0 1 ≤ 63
  reserved : field p 1 3 = 0
  found : assoc s.ctxs (field p 0 1) = some x
  quota : field p 4 4 ≤ 16384
  budget : field p 8 4 ≤ 5460

/-- The state with a context replaced. -/
def withCtx (s : State) (c : Nat) (x : Ctx) : State := { s with ctxs := assocSet s.ctxs c x }

theorem exec_quotaSet {x : Ctx} (h : SetsQuota s m ctx p x) :
    exec (.quotaSet m) s = .next (
      if field p 4 4 < s.use (field p 0 1) then
        (withCtx s (field p 0 1) { requota s.now p x with overQuota := true }).reply m ⟨0x4003, []⟩
      else ((withCtx s (field p 0 1) (requota s.now p x)).settleQuota (field p 0 1)).reply m (ok [])) := by
  obtain ⟨taken, named, known, reserved, found, quota, budget⟩ := h
  change execQuotaSet m s = _
  unfold execQuotaSet
  rw [answer_holdsTaken taken]
  dsimp only
  rw [checked_of_passed]
  · rw [found, Option.getD_some]
    split <;> rfl
  · simp only [List.forall_mem_append, List.forall_mem_cons, List.not_mem_nil]
    exact ⟨⟨decide_eq_false (by omega), decide_eq_false (by omega), fun _ h => h.elim⟩,
      ctxTarget_passed known (.inr named) reserved (ctxExists_of_assoc found)⟩

/-- A context that uses more than its new quota gets W_OVER_QUOTA (R264). -/
theorem quotaSet_over {x : Ctx} (h : SetsQuota s m ctx p x) (exceeds : field p 4 4 < s.use (field p 0 1)) :
    ∃ t, exec (.quotaSet m) s = .next t ∧ s.replied t m ⟨0x4003, []⟩ ∧
      t = { s with ctxs := t.ctxs, used := t.used, mboxes := t.mboxes, glb := t.glb, pcie := t.pcie } ∧
      assoc t.ctxs (field p 0 1) = some { requota s.now p x with overQuota := true } := by
  have executed := exec_quotaSet h
  rw [if_pos exceeds] at executed
  obtain ⟨t, executed, replied, left⟩ := replied_of_reply executed rfl
  refine ⟨t, executed, replied, ?_⟩
  rw [left]
  exact ⟨rfl, assoc_assocSet_same _ _ _⟩

/-- A context whose use its quota allows is not over it once that is settled, which beside the context changes only what QUOTA_OK
reports (R264). -/
theorem settleQuota_within {x : Ctx} (found : assoc s.ctxs c = some x) (within : s.use c ≤ x.quota) :
    ∃ l a b q g k, s.settleQuota c = { s with ctxs := k, log := l, host := a, rings := b, pcie := q, glb := g } ∧
      assoc k c = some { x with overQuota := false } := by
  unfold State.settleQuota
  rw [found]
  dsimp only
  split
  · obtain ⟨l, a, b, q, g, frame⟩ := event_frame { s with ctxs := assocSet s.ctxs c { x with overQuota := false } } 0x0305 c 0xFF false
      (leBytes 4 (s.use c))
    exact ⟨l, a, b, q, g, _, frame, assoc_assocSet_same _ _ _⟩
  · next settled =>
    have notOver : x.overQuota = false := by simpa [within] using settled
    refine ⟨s.log, s.host, s.rings, s.pcie, s.glb, s.ctxs, rfl, ?_⟩
    rw [found, ← notOver]

/-- A context within its new quota is not over it (R264). -/
theorem quotaSet_within {x : Ctx} (h : SetsQuota s m ctx p x) (within : s.use (field p 0 1) ≤ field p 4 4) :
    ∃ t, exec (.quotaSet m) s = .next t ∧ s.replied t m (ok []) ∧
      assoc t.ctxs (field p 0 1) = some { requota s.now p x with overQuota := false } ∧ t.parts = s.parts ∧ t.dram = s.dram := by
  have executed := exec_quotaSet h
  rw [if_neg (Nat.not_lt.2 within)] at executed
  obtain ⟨l, a, b, q, g, k, settled, ctx⟩ := settleQuota_within (s := withCtx s (field p 0 1) (requota s.now p x)) (c := field p 0 1)
    (assoc_assocSet_same _ _ _) within
  rw [settled] at executed
  obtain ⟨t, executed, replied, left⟩ := replied_of_reply executed rfl
  refine ⟨t, executed, replied, ?_⟩
  rw [left]
  exact ⟨ctx, rfl, rfl⟩

/-! ### QUOTA_INFO -/

/-- QUOTA_INFO answers use, quota, budget and flags (R432). -/
theorem quotaInfo_answers {x : Ctx} (taken : s.holdsTaken m 0x0431 ctx p) (known : field p 0 1 ≤ 63) (reserved : field p 1 3 = 0)
    (found : assoc s.ctxs (field p 0 1) = some x) :
    Answers (.quotaInfo m) s m (ok (leBytes 4 (s.use (field p 0 1)) ++ leBytes 4 x.quota ++ leBytes 4 x.budgetSet ++
      leBytes 4 (b2n x.overQuota + 2 * b2n x.setStamp.isSome))) := by
  refine answers_of_reply ?_
  change execQuotaInfo m s = _
  unfold execQuotaInfo
  rw [answer_holdsTaken taken]
  dsimp only
  rw [checked_of_passed (ctxTarget_passed known (.inl rfl) reserved (ctxExists_of_assoc found)), found, Option.getD_some]

end Sys2Proof.Proofs
end

section
/-! The obligation of contexts and quotas. -/

namespace Sys2Proof.Proofs
open Sys2Proof.Machine

/-- Settles O26: each command by what it does once its checks pass, a context by what its keyed list then holds. -/
theorem contextsAndQuotas : Obligations.ContextsAndQuotas := by
  refine fun s m ctx p => ⟨?create, ?destroy, ?quota, ?info⟩
  case create => exact fun c => contextCreate_creates
  case destroy => exact contextDestroy_destroys
  case quota =>
    intro x c taken named known reserved found quota budget
    have legal : SetsQuota s m ctx p x := ⟨taken, named, known, reserved, found, quota, budget⟩
    exact ⟨quotaSet_over legal, quotaSet_within legal⟩
  case info => exact fun x => quotaInfo_answers

end Sys2Proof.Proofs
end

section
/-! SUPPORT. The slots of an arbiter's window (R267, R268, R270, R271) and the budget period (R265). -/

namespace Sys2Proof.Proofs
open Sys2Proof.Machine Sys2Proof.Laws

/-! ### Slots -/

/-- What a class with `base` slots gets of the `left` slots where it wants `want`. -/
def toppedUp (base want left : Nat) : Nat := base + min (want - base) left

/-- The slots left after it. -/
def leftAfter (base want left : Nat) : Nat := left - min (want - base) left

theorem grants_four (a m0 m1 m2 m3 w0 w1 w2 w3 : Nat) :
    let b0 := min m0 w0
    let b1 := min m1 w1
    let b2 := min m2 w2
    let b3 := min m3 w3
    let l0 := a - (b0 + (b1 + (b2 + b3)))
    let l1 := leftAfter b0 w0 l0
    let l2 := leftAfter b1 w1 l1
    grants a [m0, m1, m2, m3] [w0, w1, w2, w3] =
      [toppedUp b0 w0 l0, toppedUp b1 w1 l1, toppedUp b2 w2 l2, toppedUp b3 w3 (leftAfter b2 w2 l2)] :=
  rfl

/-- A class gets at least its base and at most what it wants; what it gets is no longer left; it gets less than it wants only where
nothing is left. -/
theorem toppedUp_spec {base want : Nat} (within : base ≤ want) (left : Nat) :
    base ≤ toppedUp base want left ∧ toppedUp base want left ≤ want ∧
      toppedUp base want left + leftAfter base want left = base + left ∧
      (toppedUp base want left < want → leftAfter base want left = 0) := by
  unfold toppedUp leftAfter
  omega

/-- Slots left after a class are among those left before it. -/
theorem leftAfter_le (base want left : Nat) : leftAfter base want left ≤ left := Nat.sub_le _ _

/-- The grants of a window (R267, R268). -/
theorem grants_spec (a m0 m1 m2 m3 w0 w1 w2 w3 : Nat) (enough : m0 + m1 + m2 + m3 ≤ a) :
    ∃ g0 g1 g2 g3, grants a [m0, m1, m2, m3] [w0, w1, w2, w3] = [g0, g1, g2, g3] ∧
      min m0 w0 ≤ g0 ∧ min m1 w1 ≤ g1 ∧ min m2 w2 ≤ g2 ∧ min m3 w3 ≤ g3 ∧ g0 ≤ w0 ∧ g1 ≤ w1 ∧ g2 ≤ w2 ∧ g3 ≤ w3 ∧
      g0 + g1 + g2 + g3 ≤ a ∧ (g0 < w0 ∨ g1 < w1 ∨ g2 < w2 ∨ g3 < w3 → g0 + g1 + g2 + g3 = a) := by
  have granted := grants_four a m0 m1 m2 m3 w0 w1 w2 w3
  dsimp only at granted
  have base : min m0 w0 + (min m1 w1 + (min m2 w2 + min m3 w3)) ≤ a := by omega
  have within0 := Nat.min_le_right m0 w0
  have within1 := Nat.min_le_right m1 w1
  have within2 := Nat.min_le_right m2 w2
  have within3 := Nat.min_le_right m3 w3
  generalize min m0 w0 = b0, min m1 w1 = b1, min m2 w2 = b2, min m3 w3 = b3 at *
  obtain ⟨least0, most0, sum0, less0⟩ := toppedUp_spec within0 (a - (b0 + (b1 + (b2 + b3))))
  generalize leftAfter b0 w0 _ = l1 at *
  obtain ⟨least1, most1, sum1, less1⟩ := toppedUp_spec within1 l1
  have left1 := leftAfter_le b1 w1 l1
  generalize leftAfter b1 w1 l1 = l2 at *
  obtain ⟨least2, most2, sum2, less2⟩ := toppedUp_spec within2 l2
  have left2 := leftAfter_le b2 w2 l2
  generalize leftAfter b2 w2 l2 = l3 at *
  obtain ⟨least3, most3, sum3, less3⟩ := toppedUp_spec within3 l3
  have left3 := leftAfter_le b3 w3 l3
  exact ⟨_, _, _, _, granted, least0, least1, least2, least3, most0, most1, most2, most3, by omega, by omega⟩

/-! ### The window -/

/-- `t` differs from `s` in the trace alone. -/
abbrev OnlyTrace (s t : State) : Prop := ∃ x, t = { s with trc := x }

theorem OnlyTrace.refl (s : State) : OnlyTrace s s := ⟨s.trc, rfl⟩

theorem OnlyTrace.trans {s t u : State} (st : OnlyTrace s t) (tu : OnlyTrace t u) : OnlyTrace s u := by
  obtain ⟨x, rfl⟩ := st
  obtain ⟨y, rfl⟩ := tu
  exact ⟨y, rfl⟩

theorem foldl_onlyTrace {α : Type} {f : State → α → State} (h : ∀ s a, OnlyTrace s (f s a)) (l : List α) (s : State) :
    OnlyTrace s (l.foldl f s) :=
  foldl_frame OnlyTrace OnlyTrace.refl (fun _ _ _ => OnlyTrace.trans) f h l s

/-- An arbiter once a window has passed, short or not, with ADAPT and BACKGROUND both held at their minimums or not (R270). -/
def windowPassed (short held : Bool) (y : Arb) : Arb :=
  { frameWin := y.frameWin + 1, frameShort := y.frameShort + b2n short, frameHeldAll := y.frameHeldAll && (!short || held) }

theorem exec_arbiterWindow {s : State} {p : Fin 4} (up : s.clusterUp p = true) (ch : Fin 2) (w0 w1 w2 w3 aside : Nat) (short : Bool) :
    ∃ u held, OnlyTrace s u ∧ exec (.arbiterWindow p ch w0 w1 w2 w3 aside short) s =
      .next (u.modPart p (fun x => { x with arb := vmod x.arb ch (windowPassed short held) })) := by
  change ∃ u held, _ ∧ execArbiterWindow p ch w0 w1 w2 w3 aside short s = _
  unfold execArbiterWindow
  rw [up]
  refine ⟨_, _, ?counted, rfl⟩
  have held (b : Nat) (s : State) (h : Bool × Nat) : OnlyTrace s (if h.1 then s.count (b + 30 + h.2) 1 else s) := by
    split
    · exact count_frame _ _ _
    · exact .refl s
  have counted (s : State) (i : Nat) : OnlyTrace s (if short then s.count i 1 else s) := by
    split
    · exact count_frame _ _ _
    · exact .refl s
  exact (((foldl_onlyTrace (fun _ _ => count_frame _ _ _) _ s).trans (foldl_onlyTrace (held _) _ _)).trans (counted _ _)).trans
    (count_frame _ _ _)

/-- ARBITER_WINDOW counts the window for its channel (R270, R271). -/
theorem arbiterWindow_counts {s : State} {p : Fin 4} (up : s.clusterUp p = true) (ch : Fin 2) (w0 w1 w2 w3 aside : Nat)
    (short : Bool) :
    ∃ t, exec (.arbiterWindow p ch w0 w1 w2 w3 aside short) s = .next t ∧ t = { s with parts := t.parts, trc := t.trc } ∧
      t.parts[p].arb[ch].frameWin = s.parts[p].arb[ch].frameWin + 1 ∧
      t.parts[p].arb[ch].frameShort = s.parts[p].arb[ch].frameShort + (if short then 1 else 0) ∧
      t.parts[p] = { s.parts[p] with arb := t.parts[p].arb } ∧ ∀ q, q ≠ p → t.parts[q] = s.parts[q] := by
  obtain ⟨_, held, ⟨x, rfl⟩, executed⟩ := exec_arbiterWindow up ch w0 w1 w2 w3 aside short
  refine ⟨_, executed, rfl, ?_⟩
  have others (q : Fin 4) := vmod_other s.parts p q (fun x => { x with arb := vmod x.arb ch (windowPassed short held) })
  simp only [Fin.getElem_fin, modPart_same, vmod_same]
  exact ⟨rfl, rfl, trivial, others⟩

/-! ### The budget period -/

/-- A fold whose steps over the elements of a list all leave the state. -/
theorem foldl_eq_self {α σ : Type} {f : σ → α → σ} {s : σ} {l : List α} (h : ∀ a ∈ l, f s a = s) : l.foldl f s = s := by
  induction l with
  | nil => rfl
  | cons a l ih => rw [List.foldl_cons, h a List.mem_cons_self, ih fun b hb => h b (List.mem_cons_of_mem a hb)]

/-- No operation waits for its context's budget. -/
theorem payOps_of_none_owed {s : State} (none_owed : ∀ r ∈ s.sched.runs, ∀ h ∈ r.shares, ∀ o ∈ h.ops, o.owed = none) :
    s.payOps = s := by
  unfold State.payOps
  exact foldl_eq_self fun r hr => foldl_eq_self fun h hh => foldl_eq_self fun o ho => by rw [none_owed r hr h hh o ho]

/-- A new microsecond with no traffic held back (R265). -/
theorem exec_budgetPeriod {s : State} (new : s.now / 1000 ≠ s.period) (barges : ∀ b ∈ s.barges, b.owed = [])
    (ops : ∀ r ∈ s.sched.runs, ∀ h ∈ r.shares, ∀ o ∈ h.ops, o.owed = none) :
    exec .budgetPeriod s = .next { s with used := [], period := s.now / 1000 } := by
  change execBudgetPeriod s = _
  unfold execBudgetPeriod
  rw [if_neg new]
  dsimp only
  rw [payOps_of_none_owed (s := { s with used := [], period := s.now / 1000 }) ops]
  exact congrArg Host.Outcome.next (foldl_eq_self fun b hb => by rw [barges b hb]; rfl)

end Sys2Proof.Proofs
end

section
/-! SUPPORT. Accesses to DRAM through BAR2 (R252, R253, R274, R275, R278). -/

namespace Sys2Proof.Proofs
open Sys2Proof.Machine Sys2Proof.Laws

variable {s : State} {a : Nat} {p : Fin 4}

/-- An address of DRAM is its own offset. -/
theorem spaceOf_dram {addr : Nat} (space : spaceOf addr = .dram p a) : a = addr := by
  unfold spaceOf at space
  split_ifs at space
  exact (Space.dram.inj space).2.symm

/-- An access to a stack that can be reached is none to note (R253). -/
theorem offAccess_of_up (space : spaceOf a = .dram p a) (up : s.clusterUp p = true) : s.offAccess a = s := by
  unfold State.offAccess
  rw [space]
  simp only [up, Bool.true_or, if_true]

/-- The access is held: a copy of its row range is under way (R278). -/
def heldAlso (p : Fin 4) (x : HeldAccess) (s : State) : State := s.modPart p (fun y => { y with held := y.held ++ [x] })

theorem exec_bar2Read_held (space : spaceOf a = .dram p a) {n : Nat} (legal : bar2Ok a n = true) (copied : s.copying a n = true) :
    exec (.bar2Read a n) s = .next (heldAlso p ⟨a, false, n, []⟩ s) := by
  change execBar2Read a n s = _
  unfold execBar2Read
  simp only [space, legal, copied, Bool.not_true, Bool.false_eq_true, if_false, if_true]
  rfl

theorem exec_bar2Write_held (space : spaceOf a = .dram p a) {data : List Byte} (legal : bar2Ok a data.length = true)
    (copied : s.copying a data.length = true) :
    exec (.bar2Write a data) s = .next (heldAlso p ⟨a, true, data.length, data⟩ s) := by
  change execBar2Write a data s = _
  unfold execBar2Write
  simp only [space, legal, copied, Bool.not_true, Bool.false_eq_true, if_false, if_true]
  rfl

/-- A read over no poisoned line completes with the bytes of DRAM (R252). -/
theorem exec_bar2Read (space : spaceOf a = .dram p a) (up : s.clusterUp p = true) {n : Nat} (legal : bar2Ok a n = true)
    (free : s.copying a n = false) (clean : s.poisoned a n = []) :
    exec (.bar2Read a n) s = .next { s with pcie := { s.pcie with bar2Data := s.dram.readBytes a n, bar2Ep := false } } := by
  change execBar2Read a n s = _
  unfold execBar2Read
  simp only [space, legal, free, Bool.not_true, Bool.false_eq_true, if_false, State.hostRead, offAccess_of_up space up, up, clean,
    List.isEmpty_nil, Bool.and_false, Bool.or_false]

/-- A write over no poisoned line (R275). -/
theorem dramWrite_of_clean {data : List Byte} (clean : ∀ l ∈ linesOf a data.length, l ∉ s.poison) :
    s.dramWrite a data = ({ s with dram := s.dram.writeBytes a data }, []) := by
  have none_bad : (linesOf a data.length).filter (fun l => l ∈ s.poison) = [] := by
    simpa [List.filter_eq_nil_iff] using clean
  unfold State.dramWrite dramPut
  simp only [none_bad, List.isEmpty_nil, if_true]

theorem exec_bar2Write (space : spaceOf a = .dram p a) (up : s.clusterUp p = true) {data : List Byte}
    (legal : bar2Ok a data.length = true) (free : s.copying a data.length = false)
    (clean : ∀ l ∈ linesOf a data.length, l ∉ s.poison) :
    exec (.bar2Write a data) s = .next { s with dram := s.dram.writeBytes a data } := by
  change execBar2Write a data s = _
  unfold execBar2Write
  simp only [space, legal, free, Bool.not_true, Bool.false_eq_true, if_false, State.hostStore, up, dramWrite_of_clean clean,
    List.foldl_nil]

end Sys2Proof.Proofs
end

section
/-! The obligation of shared DRAM. -/

namespace Sys2Proof.Proofs
open Sys2Proof.Machine Sys2Proof.Laws

/-- Settles O20: a window's grants class by class, the counters by their frame, BAR2 by the laws of sparse memory. -/
theorem dramIsShared : Obligations.DramIsShared := by
  refine ⟨grants_spec, fun s p ch w0 w1 w2 w3 aside short up => arbiterWindow_counts up ch w0 w1 w2 w3 aside short,
    fun s => exec_budgetPeriod, fun s addr p a space up => ?_⟩
  obtain rfl := spaceOf_dram space
  refine ⟨?read, fun n => exec_bar2Read_held space, fun data => exec_bar2Write_held space, ?write⟩
  case read =>
    intro n legal free clean
    exact ⟨_, exec_bar2Read space up legal free clean, rfl, rfl, rfl⟩
  case write =>
    intro data legal free clean canonical
    exact ⟨_, exec_bar2Write space up legal free clean, rfl, readBytes_writeBytes data s.dram a canonical,
      fun x outside => read_writeBytes_out data s.dram a x canonical outside, wf_writeBytes data s.dram a canonical⟩

end Sys2Proof.Proofs
end

section
/-! SUPPORT. Errors of DRAM (R273 to R275), and which parts of a partition reporting and the accesses of a host leave alone. -/

namespace Sys2Proof.Proofs
open Sys2Proof.Machine Sys2Proof.Laws

variable {s : State} {p : Fin 4} {addr a : Nat}

theorem modPart_part (s : State) (p : Fin 4) (f : Part → Part) : (s.modPart p f).parts[p] = f s.parts[p] := modPart_same s p f

theorem modPart_part_other (s : State) {p q : Fin 4} (other : q ≠ p) (f : Part → Part) : (s.modPart p f).parts[q] = s.parts[q] :=
  vmod_other _ _ _ _ other

/-! ### Errors -/

/-- A range no test of which waits or runs is queued last (R273). -/
theorem queueRange_of_new {base : Nat} (new : base ∉ s.parts[p].queue) (idle : s.parts[p].test = none) :
    s.queueRange p base = s.modPart p (fun x => { x with queue := x.queue ++ [base] }) := by
  unfold State.queueRange
  simp only [idle, Option.any_none, Bool.or_false, decide_eq_true_eq, if_neg new]

/-- A range no test of which runs waits once it is queued. -/
theorem mem_queueRange {base : Nat} (idle : s.parts[p].test = none) : base ∈ (s.queueRange p base).parts[p].queue := by
  by_cases waits : base ∈ s.parts[p].queue
  · have kept : s.queueRange p base = s := by
      unfold State.queueRange
      simp only [waits, decide_true, Bool.true_or, if_true]
    rwa [kept]
  · rw [queueRange_of_new waits idle, modPart_part]
    exact List.mem_append_right _ List.mem_cons_self

theorem queueRange_frame (s : State) (p : Fin 4) (base : Nat) : ∃ x, s.queueRange p base = { s with parts := x } := by
  unfold State.queueRange
  dsimp only
  split
  · exact ⟨s.parts, rfl⟩
  · exact ⟨_, rfl⟩

/-- The corrected errors of a row range within one second, the present one first (R273). -/
def recentErrors (s : State) (p : Fin 4) (base : Nat) : List Nat :=
  s.now :: ((assoc s.parts[p].ce base).getD []).filter (fun t => s.now < t + 1000000000)

theorem dramCorrectableError_remembered (space : spaceOf addr = .dram p a) (up : s.clusterUp p = true)
    (below : (recentErrors s p (rowRange addr)).length < s.key .memCeLimit) :
    ∃ t, exec (.dramCorrectableError addr) s = .next t ∧ t = { s with parts := t.parts } ∧
      assoc t.parts[p].ce (rowRange addr) = some (recentErrors s p (rowRange addr)) := by
  refine ⟨s.modPart p (fun x => { x with ce := assocSet x.ce (rowRange addr) (recentErrors s p (rowRange addr)) }), ?_, rfl, ?_⟩
  · change execDramCorrectableError addr s = _
    unfold execDramCorrectableError
    simp only [space, up, Bool.not_true, Bool.false_eq_true, if_false]
    exact congrArg Host.Outcome.next (if_neg (Nat.not_le.2 below))
  · rw [modPart_part]
    exact assoc_assocSet_same _ _ _

theorem dramCorrectableError_queues (space : spaceOf addr = .dram p a) (up : s.clusterUp p = true)
    (reached : s.key .memCeLimit ≤ (recentErrors s p (rowRange addr)).length) (new : rowRange addr ∉ s.parts[p].queue)
    (idle : s.parts[p].test = none) :
    ∃ t, exec (.dramCorrectableError addr) s = .next t ∧ t = { s with parts := t.parts } ∧
      assoc t.parts[p].ce (rowRange addr) = none ∧ t.parts[p].queue = s.parts[p].queue ++ [rowRange addr] := by
  have cleared := modPart_part s p (fun x => { x with ce := assocDel x.ce (rowRange addr) })
  refine ⟨(s.modPart p (fun x => { x with ce := assocDel x.ce (rowRange addr) })).modPart p
    (fun x => { x with queue := x.queue ++ [rowRange addr] }), ?_, rfl, ?_⟩
  · change execDramCorrectableError addr s = _
    unfold execDramCorrectableError
    simp only [space, up, Bool.not_true, Bool.false_eq_true, if_false]
    rw [← queueRange_of_new (by rw [cleared]; exact new) (by rw [cleared]; exact idle)]
    exact congrArg Host.Outcome.next (if_pos reached)
  · rw [modPart_part, cleared]
    exact ⟨assoc_assocDel_same _ _, rfl⟩

/-- An uncorrectable error of a line that is not poisoned poisons it and is reported (R274). -/
theorem exec_dramUe (space : spaceOf addr = .dram p a) (up : s.clusterUp p = true) (clean : lineOf addr ∉ s.poison)
    (reader : DramReader) :
    ∃ data, exec (.dramUe addr reader) s = .next
      ((State.event { s with poison := lineOf addr :: s.poison } 0x0307 0 p.val true data).queueRange p (rowRange (lineOf addr))) := by
  change ∃ data, execDramUe addr reader s = _
  unfold execDramUe
  simp only [space, up, clean, Bool.not_true, decide_false, Bool.or_false, Bool.false_eq_true, if_false]
  exact ⟨_, rfl⟩

theorem dramUe_poisons (space : spaceOf addr = .dram p a) (up : s.clusterUp p = true) (reader : DramReader)
    (clean : lineOf addr ∉ s.poison) :
    ∃ t, exec (.dramUe addr reader) s = .next t ∧ t.poison = lineOf addr :: s.poison ∧ t.dram = s.dram ∧ t.clusters = s.clusters ∧
      (s.parts[p].test = none → rowRange (lineOf addr) ∈ t.parts[p].queue) := by
  obtain ⟨data, executed⟩ := exec_dramUe space up clean reader
  obtain ⟨l, h, b, q, g, reported⟩ := event_frame { s with poison := lineOf addr :: s.poison } 0x0307 0 p.val true data
  rw [reported] at executed
  refine ⟨_, executed, ?_⟩
  obtain ⟨x, queued⟩ := queueRange_frame
    { s with poison := lineOf addr :: s.poison, log := l, host := h, rings := b, pcie := q, glb := g } p (rowRange (lineOf addr))
  refine ⟨by rw [queued], by rw [queued], by rw [queued], fun idle => mem_queueRange idle⟩

/-! ### What reporting and host accesses leave of the tests -/

/-- A maintenance event leaves the partitions, package DRAM and what TOWPATH holds (R282). -/
theorem maint_keeps (s : State) (p : Fin 4) (resumed : Bool) (activity pos : Nat) :
    (∀ q : Fin 4, (s.maint p resumed activity pos).parts[q] = s.parts[q]) ∧ (s.maint p resumed activity pos).dram = s.dram ∧
      (s.maint p resumed activity pos).dev = s.dev := by
  obtain ⟨_, _, _, _, _, frame⟩ := event_frame s (if resumed then 0x030B else 0x030A) 0 p.val true
    (leBytes 1 activity ++ leBytes 8 pos)
  unfold State.maint
  rw [frame]
  exact ⟨fun _ => rfl, rfl, rfl⟩

/-- What a partition holds of its row-range tests: the test in progress, the spares, the accesses held. -/
def testing (x : Part) : Option RowTest × List (Nat × Nat) × List HeldAccess := (x.test, x.spares, x.held)

/-- `t` has the row-range tests of `s`. -/
def SameTesting (s t : State) : Prop := ∀ q : Fin 4, testing t.parts[q] = testing s.parts[q]

theorem SameTesting.test {s t : State} (same : SameTesting s t) (q : Fin 4) : t.parts[q].test = s.parts[q].test :=
  congrArg (fun x => x.1) (same q)

theorem SameTesting.spares {s t : State} (same : SameTesting s t) (q : Fin 4) : t.parts[q].spares = s.parts[q].spares :=
  congrArg (fun x => x.2.1) (same q)

theorem SameTesting.held {s t : State} (same : SameTesting s t) (q : Fin 4) : t.parts[q].held = s.parts[q].held :=
  congrArg (fun x => x.2.2) (same q)

theorem SameTesting.trans {s t u : State} (st : SameTesting s t) (tu : SameTesting t u) : SameTesting s u :=
  fun q => (tu q).trans (st q)

theorem SameTesting.of_parts {s t : State} (same : t.parts = s.parts) : SameTesting s t := fun q => by rw [same]

theorem foldl_sameTesting {α : Type} {f : State → α → State} (h : ∀ s a, SameTesting s (f s a)) (l : List α) (s : State) :
    SameTesting s (l.foldl f s) :=
  foldl_frame SameTesting (fun _ _ => rfl) (fun _ _ _ => SameTesting.trans) f h l s

theorem modPart_sameTesting (s : State) (p : Fin 4) {f : Part → Part} (h : ∀ x, testing (f x) = testing x) :
    SameTesting s (s.modPart p f) := by
  intro q
  by_cases same : q = p
  · subst same
    rw [modPart_part, h]
  · rw [modPart_part_other s same]

theorem event_sameTesting (s : State) (code ctx w : Nat) (log : Bool) (data : List Byte) :
    SameTesting s (s.event code ctx w log data) := by
  obtain ⟨_, _, _, _, _, frame⟩ := event_frame s code ctx w log data
  exact .of_parts (by rw [frame])

theorem maint_sameTesting (s : State) (p : Fin 4) (resumed : Bool) (activity pos : Nat) :
    SameTesting s (s.maint p resumed activity pos) := fun q => congrArg testing ((maint_keeps s p resumed activity pos).1 q)

theorem offAccess_sameTesting (s : State) (a : Nat) : SameTesting s (s.offAccess a) := by
  unfold State.offAccess
  split
  · split
    · exact .of_parts rfl
    · exact (modPart_sameTesting s _ fun _ => by rfl).trans (event_sameTesting _ _ _ _ _ _)
  · exact .of_parts rfl

theorem hostRead_sameTesting (s : State) (p : Fin 4) (a n : Nat) : SameTesting s (s.hostRead p a n) :=
  offAccess_sameTesting s a

theorem hostStore_sameTesting (s : State) (p : Fin 4) (a : Nat) (data : List Byte) : SameTesting s (s.hostStore p a data) := by
  unfold State.hostStore
  split
  · exact offAccess_sameTesting s a
  · exact foldl_sameTesting (fun s _ => event_sameTesting s _ _ _ _ _) _ (s.dramWrite a data).1

/-- The accesses held proceed, and none is held any more (R278). -/
theorem releaseHeld_sameTesting (s : State) (p : Fin 4) :
    SameTesting (s.modPart p (fun x => { x with held := [] })) (s.releaseHeld p) :=
  foldl_sameTesting
    (fun s h => by
      split
      · exact hostStore_sameTesting s p _ _
      · exact hostRead_sameTesting s p _ _) _ _

theorem reply_sameTesting (s : State) (m : Fin 8) (r : Reply) : SameTesting s (s.reply m r) := by
  obtain ⟨_, _, _, frame⟩ := reply_frame s m r
  exact .of_parts (by rw [frame])

theorem replyFor_sameTesting (s : State) (m : Fin 8) (code : Nat) (r : Reply) : SameTesting s (s.replyFor m code r) := by
  unfold State.replyFor
  split
  · split
    · exact reply_sameTesting s m r
    · exact .of_parts rfl
  · exact .of_parts rfl

theorem hostRangeDone_sameTesting (s : State) (p : Fin 4) (base result : Nat) : SameTesting s (s.hostRangeDone p base result) := by
  unfold State.hostRangeDone
  refine foldl_sameTesting (fun s h => ?_) _ _
  have ended : SameTesting s { s with health := { s.health with host := s.health.host.filter (fun x => x.mbox ≠ h.mbox) } } :=
    .of_parts rfl
  exact ended.trans (replyFor_sameTesting _ _ _ _)

theorem startRetrain_sameTesting (s : State) (p : Fin 4) (ch : Fin 2) : SameTesting s (s.startRetrain p ch) :=
  modPart_sameTesting s p fun _ => by rfl

/-- What resumes once nothing higher runs is no test (R282). -/
theorem resumeMaint_sameTesting (s : State) (p : Fin 4) : SameTesting s (s.resumeMaint p) := by
  unfold State.resumeMaint
  dsimp only
  split
  · exact .of_parts rfl
  · split
    · split
      · exact (startRetrain_sameTesting s p _).trans (maint_sameTesting _ _ _ _ _)
      · exact startRetrain_sameTesting s p _
    · split
      · exact (modPart_sameTesting s p fun _ => by rfl).trans (maint_sameTesting _ _ _ _ _)
      · exact .of_parts rfl

end Sys2Proof.Proofs
end

section
/-! SUPPORT. Tests of row ranges (R277 to R279, R282). -/

namespace Sys2Proof.Proofs
open Sys2Proof.Machine Sys2Proof.Laws

variable {s : State} {p : Fin 4}

/-- No retraining of the partition is in progress. -/
theorem retrain_idle (idle : ∀ ch : Fin 2, s.parts[p].retrain[ch].state ≠ 1) :
    s.parts[p].retrain.toList.any (fun r => r.state = 1) = false := by
  rw [List.any_eq_false]
  intro r hr
  obtain ⟨i, hi, rfl⟩ := List.mem_iff_getElem.1 hr
  simpa using idle ⟨i, by simpa using hi⟩

/-- A running scrub pauses in its partition alone (R282). -/
theorem pauseScrub_keeps (s : State) (p : Fin 4) : (s.pauseScrub p).dram = s.dram ∧ (s.pauseScrub p).dev = s.dev ∧
    ∃ n, (s.pauseScrub p).parts[p] = { s.parts[p] with scrubState := n } := by
  unfold State.pauseScrub
  split
  · obtain ⟨part, dram, dev⟩ := maint_keeps (s.modPart p (fun x => { x with scrubState := 2 })) p false 2 (s.scrubAt p)
    exact ⟨dram, dev, 2, (part p).trans (modPart_part s p _)⟩
  · exact ⟨rfl, rfl, s.parts[p].scrubState, rfl⟩

/-- A partition whose test of the range `base` on spare `n` begins with its copy (R277). -/
def testBegun (base n : Nat) (rest : List Nat) (x : Part) : Part :=
  { x with
    test := some ⟨base, n, .copying⟩, spares := (n, base) :: x.spares.filter (fun e => e ≠ (n, base)), queue := rest,
    ready := x.ready.filter (fun b => b ≠ base), kept := assocDel x.kept base, testDue := false,
    noSpare := x.noSpare.filter (fun b => b ≠ base) }

theorem exec_rowRangeTestStart {base n : Nat} {rest : List Nat} (up : s.clusterUp p = true) (queued : s.parts[p].queue = base :: rest)
    (firmware : s.fwUp = true) (idle : s.parts[p].test = none) (due : base ∈ s.parts[p].ready ∨ s.fed p = false)
    (spare : (assoc s.parts[p].kept base).or s.parts[p].freeSpare = some n)
    (retrain : ∀ ch : Fin 2, s.parts[p].retrain[ch].state ≠ 1) :
    exec (.rowRangeTestStart p) s = .next ((s.pauseScrub p).modPart p (testBegun base n rest)) := by
  have begins : (decide (base ∈ s.parts[p].ready) || !s.fed p) = true := by
    obtain ready | unfed := due
    · rw [decide_eq_true ready, Bool.true_or]
    · rw [unfed, Bool.not_false, Bool.or_true]
  change execRowRangeTestStart p s = _
  unfold execRowRangeTestStart State.rowTest
  simp only [queued, List.head?_cons, Option.any_some, begins, firmware, up, idle, Option.isSome_none, Bool.not_true, Bool.or_false,
    Bool.false_eq_true, if_false, spare, retrain_idle retrain]
  rfl

theorem rowRangeTestStart_starts {base n : Nat} {rest : List Nat} (up : s.clusterUp p = true) (queued : s.parts[p].queue = base :: rest)
    (firmware : s.fwUp = true) (idle : s.parts[p].test = none) (due : base ∈ s.parts[p].ready ∨ s.fed p = false)
    (spare : (assoc s.parts[p].kept base).or s.parts[p].freeSpare = some n)
    (retrain : ∀ ch : Fin 2, s.parts[p].retrain[ch].state ≠ 1) :
    ∃ t, exec (.rowRangeTestStart p) s = .next t ∧ t.parts[p].test = some ⟨base, n, .copying⟩ ∧ t.parts[p].queue = rest ∧
      (n, base) ∈ t.parts[p].spares ∧ t.dram = s.dram := by
  refine ⟨_, exec_rowRangeTestStart up queued firmware idle due spare retrain, ?_⟩
  rw [modPart_part]
  exact ⟨rfl, rfl, List.mem_cons_self, (pauseScrub_keeps s p).1⟩

/-- A partition whose test in progress is in a later phase. -/
def inPhase (x : RowTest) (phase : TestPhase) (y : Part) : Part := { y with test := some { x with phase := phase } }

/-- The copy's end begins the test and lets the accesses held go (R277, R278). -/
theorem rowRangeCopyDone_tests {x : RowTest} (up : s.clusterUp p = true) (test : s.parts[p].test = some x) (phase : x.phase = .copying) :
    ∃ t, exec (.rowRangeCopyDone p) s = .next t ∧ t.parts[p].test = some { x with phase := .testing } ∧ t.parts[p].held = [] ∧
      (s.parts[p].held = [] → t = { s with parts := t.parts }) := by
  have begun := modPart_part s p (inPhase x .testing)
  refine ⟨(s.modPart p (inPhase x .testing)).releaseHeld p, ?_, ?_⟩
  · change execRowRangeCopyDone p s = _
    unfold execRowRangeCopyDone
    rw [test]
    exact congrArg Host.Outcome.next (if_pos ⟨phase, up⟩)
  · have released := releaseHeld_sameTesting (s.modPart p (inPhase x .testing)) p
    have test := released.test p
    have held := released.held p
    rw [modPart_part, begun] at test
    rw [modPart_part] at held
    refine ⟨test, held, fun none_held => ?_⟩
    unfold State.releaseHeld
    rw [begun, show (inPhase x .testing s.parts[p]).held = [] from none_held]
    rfl

/-- A test that ends leaves its partition without a test, and the spares as they were (R277). -/
theorem dramTest_ends (s : State) (p : Fin 4) (x : RowTest) (result : Nat) :
    (s.dramTest p x result).parts[p].test = none ∧ (s.dramTest p x result).parts[p].spares = s.parts[p].spares := by
  have reported := event_sameTesting (s.modPart p (fun y => { y with test := none })) 0x0308 0 p.val true
    (leBytes 8 x.base ++ leBytes 1 result ++ leBytes 1 x.spare)
  unfold State.dramTest
  dsimp only
  generalize State.event _ _ _ _ _ _ = u at *
  have ended := (releaseHeld_sameTesting u p).trans ((hostRangeDone_sameTesting (u.releaseHeld p) p x.base result).trans
    (resumeMaint_sameTesting _ p))
  have test := reported.test p
  have test' := ended.test p
  have spares := reported.spares p
  have spares' := ended.spares p
  rw [modPart_part] at test test' spares spares'
  exact ⟨test'.trans test, spares'.trans spares⟩

/-- A range that passes its test is copied back, one that fails keeps its spare (R277). -/
theorem rowRangeTestDone_goes_on {x : RowTest} (up : s.clusterUp p = true) (test : s.parts[p].test = some x)
    (phase : x.phase = .testing) (firmware : s.fwUp = true) :
    (∃ t, exec (.rowRangeTestDone p true) s = .next t ∧ t = { s with parts := t.parts } ∧
      t.parts[p] = { s.parts[p] with test := some { x with phase := .copyBack } }) ∧
    ∃ t, exec (.rowRangeTestDone p false) s = .next t ∧ t.parts[p].test = none ∧ t.parts[p].spares = s.parts[p].spares := by
  have executed (pass : Bool) : exec (.rowRangeTestDone p pass) s =
      .next (if pass then s.modPart p (inPhase x .copyBack) else s.dramTest p x 1) := by
    change execRowRangeTestDone p pass s = _
    unfold execRowRangeTestDone
    rw [test]
    exact congrArg Host.Outcome.next (if_neg (not_not.2 ⟨phase, up, firmware⟩))
  exact ⟨⟨_, executed true, rfl, modPart_part s p _⟩, _, executed false, dramTest_ends s p x 1⟩

/-- A partition with the spare of a test freed. -/
def spareFreed (x : RowTest) (y : Part) : Part := { y with spares := y.spares.filter (fun e => e ≠ (x.spare, x.base)) }

/-- The copy back's end frees the spare (R277). -/
theorem rowRangeCopyBackDone_frees {x : RowTest} (up : s.clusterUp p = true) (test : s.parts[p].test = some x)
    (phase : x.phase = .copyBack) (firmware : s.fwUp = true) :
    ∃ t, exec (.rowRangeCopyBackDone p) s = .next t ∧ t.parts[p].test = none ∧
      t.parts[p].spares = s.parts[p].spares.filter (fun e => decide (e ≠ (x.spare, x.base))) := by
  refine ⟨(s.modPart p (spareFreed x)).dramTest p x 0, ?_, ?_⟩
  · change execRowRangeCopyBackDone p s = _
    unfold execRowRangeCopyBackDone
    rw [test]
    exact congrArg Host.Outcome.next (if_pos ⟨phase, up, firmware⟩)
  · obtain ⟨ended, spares⟩ := dramTest_ends (s.modPart p (spareFreed x)) p x 0
    rw [modPart_part] at spares
    exact ⟨ended, spares⟩

end Sys2Proof.Proofs
end

section
/-! SUPPORT. The patrol scrub and the retraining of a partition's channels (R280 to R282). -/

namespace Sys2Proof.Proofs
open Sys2Proof.Machine Sys2Proof.Laws

variable {s : State} {p : Fin 4}

/-! ### The scrub -/

/-- A scrub step within its period moves one line on (R280). -/
theorem patrolScrubLine_moves (up : s.clusterUp p = true) (idle : s.parts[p].test = none)
    (retrain : ∀ ch : Fin 2, s.parts[p].retrain[ch].state ≠ 1) (running : s.parts[p].scrubState ≠ 2)
    (due : s.parts[p].scrub ≠ 0 ∨ s.parts[p].scrubDue ≤ s.now) :
    let next := (s.parts[p].scrub + 64) % 0x200000000
    ∃ t, exec (.patrolScrubLine p) s = .next t ∧ t = { s with parts := t.parts } ∧
      t.parts[p] = { s.parts[p] with scrub := next, scrubState := if next = 0 then 0 else 1, scrubDue := t.parts[p].scrubDue } ∧
      t.parts[p].scrubDue =
        (if s.parts[p].scrub = 0 then s.now + s.key .memScrubHours * 3600000000000 else s.parts[p].scrubDue) := by
  have inPeriod : ¬ (s.parts[p].scrub = 0 ∧ s.now < s.parts[p].scrubDue) := by omega
  refine ⟨s.modPart p (fun x => { x with
    scrub := (s.parts[p].scrub + 64) % 0x200000000, scrubState := if (s.parts[p].scrub + 64) % 0x200000000 = 0 then 0 else 1,
    scrubDue := if x.scrub = 0 then s.now + s.key .memScrubHours * 3600000000000 else x.scrubDue }), ?_, rfl, ?_⟩
  · change execPatrolScrubLine p s = _
    unfold execPatrolScrubLine
    simp only [up, idle, running, retrain_idle retrain, Bool.not_true, Option.isSome_none, decide_false, Bool.or_false,
      Bool.false_eq_true, if_false]
    exact congrArg Host.Outcome.next (if_neg (by simpa using inPeriod))
  · rw [modPart_part]
    exact ⟨rfl, rfl⟩

/-! ### Retraining starts -/

/-- A partition with a channel's temperature noted. -/
def tempNoted (ch : Fin 2) (temp : Int) (x : Part) : Part :=
  { x with retrain := vmod x.retrain ch (fun r => { r with temp := some temp }) }

/-- Noting a temperature starts no retraining. -/
theorem tempNoted_state (ch e : Fin 2) (temp : Int) (x : Part) : (tempNoted ch temp x).retrain[e].state = x.retrain[e].state := by
  by_cases same : e = ch
  · subst same
    simp [tempNoted]
  · simp [tempNoted, vmod_other _ _ _ _ same]

/-- A partition with a channel's retraining begun. -/
def retrainBegun (ch : Fin 2) (x : Part) : Part :=
  { x with retrain := vmod x.retrain ch (fun r => { r with state := 1 }), retrainNext := x.retrainNext.filter (fun c => c ≠ ch) }

/-- No activity in partition p stands in the way of a retraining, and none waits (R282). -/
structure RetrainFree (s : State) (p : Fin 4) : Prop where
  test : s.parts[p].test = none
  testDue : s.parts[p].testDue = false
  none_next : s.parts[p].retrainNext = []

section
variable {ch : Fin 2} {temp : Int}

/-- A channel that is not due stays as it is. -/
theorem retrainOne_of_not_due (early : s.parts[p].retrain[ch].due s.now temp = false) : s.retrainOne p temp ch = s := by
  unfold State.retrainOne
  simp only [early, Bool.not_false, Bool.or_true, if_true]

/-- The partition once an idle channel has begun its retraining, which noted the temperature. -/
theorem retrainOne_begins (free : RetrainFree s p) (others : ∀ e : Fin 2, s.parts[p].retrain[e].state ≠ 1)
    (idle : s.parts[p].retrain[ch].state = 0) (due : s.parts[p].retrain[ch].due s.now temp = true) :
    (s.retrainOne p temp ch).dram = s.dram ∧ (s.retrainOne p temp ch).dev = s.dev ∧
      ∃ n, (s.retrainOne p temp ch).parts[p] = retrainBegun ch { tempNoted ch temp s.parts[p] with scrubState := n } := by
  obtain ⟨test, testDue, none_next⟩ := free
  have noted := modPart_part s p (tempNoted ch temp)
  have begun : s.retrainOne p temp ch = ((s.modPart p (tempNoted ch temp)).pauseScrub p).startRetrain p ch := by
    unfold State.retrainOne
    simp only [idle, none_next, due, List.not_mem_nil, decide_false, Bool.not_true, Bool.or_false, ne_eq, not_true, Bool.false_eq_true,
      if_false, test, testDue, Option.isSome_none, retrain_idle others]
    rfl
  obtain ⟨dram, dev, n, paused⟩ := pauseScrub_keeps (s.modPart p (tempNoted ch temp)) p
  rw [noted] at paused
  refine ⟨?_, ?_, n, ?_⟩
  · rw [begun]; exact dram
  · rw [begun]; exact dev
  · rw [begun]
    unfold State.startRetrain
    rw [modPart_part, paused]
    rfl

/-- A channel of a partition once its retraining has begun. -/
theorem retrainBegun_retrain (ch : Fin 2) (temp : Int) (n : Nat) (x : Part) :
    (retrainBegun ch { tempNoted ch temp x with scrubState := n }).retrain[ch] =
      { x.retrain[ch] with state := 1, temp := some temp } := by
  simp [retrainBegun, tempNoted]

/-- The other channel. -/
theorem retrainBegun_retrain_other {e : Fin 2} (other : e ≠ ch) (temp : Int) (n : Nat) (x : Part) :
    (retrainBegun ch { tempNoted ch temp x with scrubState := n }).retrain[e] = x.retrain[e] := by
  simp [retrainBegun, tempNoted, vmod_other _ _ _ _ other]

/-- A channel whose retraining falls due while the other's is in progress waits for it (R282). -/
theorem retrainOne_waits {e : Fin 2} (free : RetrainFree s p) (running : s.parts[p].retrain[e].state = 1)
    (idle : s.parts[p].retrain[ch].state = 0) (due : s.parts[p].retrain[ch].due s.now temp = true) :
    (s.retrainOne p temp ch).parts[p].retrain = (tempNoted ch temp s.parts[p]).retrain ∧
      (s.retrainOne p temp ch).parts[p].retrainNext = [ch] := by
  obtain ⟨test, testDue, none_next⟩ := free
  have busy : s.parts[p].retrain.toList.any (fun r => r.state = 1) = true :=
    List.any_eq_true.2 ⟨s.parts[p].retrain[e], by simp, decide_eq_true running⟩
  unfold State.retrainOne
  simp only [idle, none_next, due, List.not_mem_nil, decide_false, Bool.not_true, Bool.or_false, ne_eq, not_true, Bool.false_eq_true,
    if_false, test, testDue, Option.isSome_none, busy, if_true, modPart_part, List.nil_append]
  exact ⟨rfl, trivial⟩

end

section
variable {temp : Int} (up : s.clusterUp p = true) (free : RetrainFree s p) (others : ∀ e : Fin 2, s.parts[p].retrain[e].state ≠ 1)
include up free others

/-- A retraining that is due starts and notes the temperature (R281). -/
theorem channelRetrain_starts {ch : Fin 2} (idle : s.parts[p].retrain[ch].state = 0) (due : s.parts[p].retrain[ch].due s.now temp = true)
    (first : ch = 1 → s.parts[p].retrain[(0 : Fin 2)].due s.now temp = false) :
    ∃ t, exec (.channelRetrain ⟨p, temp⟩ ch) s = .next t ∧ t.dram = s.dram ∧
      t.parts[p].retrain[ch] = { s.parts[p].retrain[ch] with state := 1, temp := some temp } := by
  have executed : exec (.channelRetrain ⟨p, temp⟩ ch) s = .next (s.retrainOne p temp ch) := by
    change execChannelRetrain ⟨p, temp⟩ ch s = _
    unfold execChannelRetrain
    dsimp only
    rw [up, due, if_neg (by decide)]
    obtain rfl | rfl : ch = 0 ∨ ch = 1 := by omega
    · rw [if_pos rfl]
    · rw [if_neg (by decide), retrainOne_of_not_due (first rfl)]
  obtain ⟨dram, _, n, begun⟩ := retrainOne_begins free others idle due
  refine ⟨_, executed, dram, ?_⟩
  rw [begun, retrainBegun_retrain]

/-- Where both channels are due, channel 0 starts and channel 1 waits for it (R282). -/
theorem channelRetrain_channel_0_first
    (both : ∀ ch : Fin 2, s.parts[p].retrain[ch].state = 0 ∧ s.parts[p].retrain[ch].due s.now temp = true) :
    ∃ t, exec (.channelRetrain ⟨p, temp⟩ 1) s = .next t ∧ t.parts[p].retrain[(0 : Fin 2)].state = 1 ∧
      t.parts[p].retrain[(1 : Fin 2)].state = 0 ∧ t.parts[p].retrainNext = [1] := by
  obtain ⟨idle0, due0⟩ := both 0
  obtain ⟨idle1, due1⟩ := both 1
  have executed : exec (.channelRetrain ⟨p, temp⟩ 1) s = .next ((s.retrainOne p temp 0).retrainOne p temp 1) := by
    change execChannelRetrain ⟨p, temp⟩ 1 s = _
    unfold execChannelRetrain
    dsimp only
    rw [up, due1, if_neg (by decide), if_neg (by decide)]
  obtain ⟨-, dev, n, begun⟩ := retrainOne_begins free others idle0 due0
  have now : (s.retrainOne p temp 0).now = s.now := congrArg (fun d => d.systime.toNat) dev
  generalize s.retrainOne p temp 0 = u at *
  have next : RetrainFree u p := by
    obtain ⟨test, testDue, none_next⟩ := free
    exact ⟨by rw [begun]; exact test, by rw [begun]; exact testDue, by
      rw [begun]
      exact congrArg (List.filter _) none_next⟩
  have running := retrainBegun_retrain 0 temp n s.parts[p]
  have waiting := retrainBegun_retrain_other (ch := 0) (e := 1) (by decide) temp n s.parts[p]
  rw [← begun] at running waiting
  obtain ⟨noted, waits⟩ := retrainOne_waits (e := 0) (ch := 1) (temp := temp) next (by rw [running]) (by rw [waiting, idle1])
    (by rw [waiting, now, due1])
  refine ⟨_, executed, ?_, ?_, waits⟩
  · rw [noted, tempNoted_state, running]
  · rw [noted, tempNoted_state, waiting, idle1]

end

/-! ### Retraining ends -/

/-- Where no retraining is paused or waits, what resumes leaves DRAM and the channels as they are (R282). -/
theorem resumeMaint_keeps_retrain (none_paused : ∀ ch : Fin 2, s.parts[p].retrain[ch].state ≠ 2)
    (none_next : s.parts[p].retrainNext = []) :
    (s.resumeMaint p).dram = s.dram ∧ (s.resumeMaint p).parts[p].retrain = s.parts[p].retrain := by
  have none_waits : (List.finRange 2).find? (fun ch => s.parts[p].retrain[ch].state = 2 || ch ∈ s.parts[p].retrainNext) = none := by
    rw [List.find?_eq_none]
    intro ch _
    simp only [none_next, none_paused ch, List.not_mem_nil, decide_false, Bool.or_false, Bool.false_eq_true, not_false_eq_true]
  unfold State.resumeMaint
  simp only [none_waits]
  split
  · exact ⟨rfl, rfl⟩
  · split
    · obtain ⟨part, dram, -⟩ := maint_keeps (s.modPart p (fun x => { x with scrubState := 1 })) p true 2 (s.scrubAt p)
      have resumed := (part p).trans (modPart_part s p _)
      exact ⟨dram, by rw [resumed]⟩
    · exact ⟨rfl, rfl⟩

/-- A partition with a channel's retraining over. -/
def retrainOver (ch : Fin 2) (now : Nat) (x : Part) : Part :=
  { x with retrain := vmod x.retrain ch (fun r => { r with state := 0, last := now }) }

theorem retrainOver_retrain (ch : Fin 2) (now : Nat) (x : Part) :
    (retrainOver ch now x).retrain[ch] = { x.retrain[ch] with state := 0, last := now } := vmod_same _ _ _

theorem retrainOver_retrain_other {ch e : Fin 2} (other : e ≠ ch) (now : Nat) (x : Part) :
    (retrainOver ch now x).retrain[e] = x.retrain[e] := vmod_other _ _ _ _ other

/-- The end of a retraining stamps it (R281). -/
theorem channelRetrainDone_stamps {ch : Fin 2} (up : s.clusterUp p = true) (running : s.parts[p].retrain[ch].state = 1)
    (none_next : s.parts[p].retrainNext = []) (testDue : s.parts[p].testDue = false)
    (others : ∀ e : Fin 2, e ≠ ch → s.parts[p].retrain[e].state = 0) :
    ∃ t, exec (.channelRetrainDone p ch) s = .next t ∧ t.dram = s.dram ∧
      t.parts[p].retrain[ch] = { s.parts[p].retrain[ch] with state := 0, last := s.now } := by
  have ended := modPart_part s p (retrainOver ch s.now)
  have executed : exec (.channelRetrainDone p ch) s = .next ((s.modPart p (retrainOver ch s.now)).resumeMaint p) := by
    change execChannelRetrainDone p ch s = _
    unfold execChannelRetrainDone
    rw [if_pos ⟨running, up⟩]
    have due : (s.modPart p (retrainOver ch s.now)).parts[p].testDue = false := by rw [ended]; exact testDue
    unfold retrainOver at *
    simp only [due, Bool.false_eq_true, if_false]
  obtain ⟨dram, retrain⟩ := resumeMaint_keeps_retrain (s := s.modPart p (retrainOver ch s.now)) (p := p)
    (fun e => by
      rw [ended]
      by_cases same : e = ch
      · subst same
        rw [retrainOver_retrain]
        exact Nat.zero_ne_add_one 1
      · rw [retrainOver_retrain_other same, others e same]
        exact Nat.zero_ne_add_one 1)
    (by rw [ended]; exact none_next)
  refine ⟨_, executed, dram, ?_⟩
  rw [retrain, ended, retrainOver_retrain]

end Sys2Proof.Proofs
end

section
/-! SUPPORT. Ranges of memory that become zero, and the end of a region's zero fill (R256). -/

namespace Sys2Proof.Proofs
open Sys2Proof.Machine Sys2Proof.Laws

/-! ### Zeroed ranges -/

section
variable {lo len a : Nat}

/-- No cell listed outside a range lies in it. -/
theorem find_inside_range (inside : lo ≤ a ∧ a < lo + len) (l : List Host.Cell) :
    Mem.find (l.filter (fun c => !inRange lo len c.1)) a = none := by
  induction l with
  | nil => rfl
  | cons c l ih =>
    by_cases removed : inRange lo len c.1 = true
    · simp [removed, ih]
    · have other : a ≠ c.1 := by
        rintro rfl
        exact removed (decide_eq_true inside)
      simp [removed, Mem.find, other, ih]

/-- An address that no undefined range meets. -/
theorem epochAt_of_disjoint {l : List Bg} (disjoint : ∀ b ∈ l, ¬ (b.lo ≤ a ∧ a < b.lo + b.len)) : Mem.epochAt l a = none := by
  induction l with
  | nil => rfl
  | cons b l ih =>
    rw [Mem.epochAt, if_neg (disjoint b List.mem_cons_self), ih fun c hc => disjoint c (List.mem_cons_of_mem b hc)]

theorem read_zero_inside (m : Mem) (inside : lo ≤ a ∧ a < lo + len) : (m.zero lo len).read a = 0 := by
  have defined : Mem.epochAt (m.zero lo len).bg a = none := by
    unfold Mem.zero
    dsimp only
    split
    · rw [Mem.epochAt, if_pos inside]
    · next apart =>
      refine epochAt_of_disjoint fun b hb meets => apart (List.any_eq_true.2 ⟨b, hb, decide_eq_true ?_⟩)
      omega
  unfold Mem.read Mem.unlisted
  rw [defined, show (m.zero lo len).cells = m.cells.filter (fun c => !inRange lo len c.1) from rfl, find_inside_range inside]
  rfl

theorem read_zero_outside (m : Mem) (outside : ¬ (lo ≤ a ∧ a < lo + len)) : (m.zero lo len).read a = m.read a := by
  have epoch : Mem.epochAt (m.zero lo len).bg a = Mem.epochAt m.bg a := by
    unfold Mem.zero
    dsimp only
    split
    · rw [Mem.epochAt, if_neg outside, epochAt_filter _ _ _ _ outside]
    · rw [epochAt_filter _ _ _ _ outside]
  unfold Mem.read Mem.unlisted
  rw [epoch, show (m.zero lo len).cells = m.cells.filter (fun c => !inRange lo len c.1) from rfl, find_outside_range outside]

end

/-! ### The zero fill -/

variable {s : State} {m : Fin 8} {p : Fin 4}

/-- The state once a region reads as zeros and its update is over (R256). -/
def zeroFilled (s : State) (p : Fin 4) (r : Region) : State :=
  State.modRegion { s with dram := s.dram.zero r.base r.len, poison := s.poison.filter (fun l => !r.holds l) } p r.slot
    (fun r => { r with update := false })

/-- The zero fill of a region that no copy meets ends (R256, R278). -/
theorem regionZeroFillDone_zeroes {x : InFlight} {k : Taken} {r : Region} (taken : s.mboxes[m].taken = some k)
    (flight : s.mboxes[m].flight = some x) (alloc : k.command = 0x0412) (serving : s.serving = true)
    (part : Fin.ofNat 4 (x.args.getD 0 0) = p) (up : s.clusterUp p = true)
    (found : s.parts[p].regions.find? (fun r => r.slot = x.args.getD 1 0) = some r) (free : s.copying r.base r.len = false) :
    ∃ t, exec (.regionZeroFillDone m) s = .next t ∧ s.replied t m (ok x.reply) ∧
      (∀ a, r.base ≤ a → a < r.base + r.len → t.dram.read a = 0) ∧
      (∀ a, a < r.base ∨ r.base + r.len ≤ a → t.dram.read a = s.dram.read a) := by
  subst part
  have executed : exec (.regionZeroFillDone m) s = .next ((zeroFilled s (Fin.ofNat 4 (x.args.getD 0 0)) r).reply m (ok x.reply)) := by
    change execRegionZeroFillDone m s = _
    unfold execRegionZeroFillDone
    rw [taken, flight]
    dsimp only
    rw [if_neg (not_not.2 ⟨alloc, up, serving⟩), found]
    exact congrArg Host.Outcome.next (if_neg (Bool.eq_false_iff.1 free))
  obtain ⟨t, executed, replied, left⟩ := replied_of_reply executed rfl
  have dram : t.dram = s.dram.zero r.base r.len := by rw [left]; rfl
  refine ⟨t, executed, replied, fun a above below => ?_, fun a outside => ?_⟩
  · rw [dram, read_zero_inside _ ⟨above, below⟩]
  · rw [dram, read_zero_outside _ (by omega)]

end Sys2Proof.Proofs
end

section
/-! The obligation of DRAM errors and row ranges. -/

namespace Sys2Proof.Proofs
open Sys2Proof.Machine

/-- Settles O21: errors and tests by what their commands do in one partition, a test's end by what reporting and held accesses leave of
the tests, a zero fill by a read inside and outside the range. -/
theorem dramErrorsAndRowRanges : Obligations.DramErrorsAndRowRanges := by
  refine fun s p up => ⟨fun addr a space => ⟨dramCorrectableError_remembered space up, dramCorrectableError_queues space up,
    dramUe_poisons space up⟩, fun base rest n => rowRangeTestStart_starts up, fun x test => ⟨rowRangeCopyDone_tests up test,
    rowRangeTestDone_goes_on up test, rowRangeCopyBackDone_frees up test⟩, ?maintenance,
    fun ch => channelRetrainDone_stamps up, ?zeroFill⟩
  case maintenance =>
    refine fun idle retrain => ⟨patrolScrubLine_moves up idle retrain, fun testDue none_next temp => ?_⟩
    have free : RetrainFree s p := ⟨idle, testDue, none_next⟩
    exact ⟨fun ch => channelRetrain_starts up free retrain, channelRetrain_channel_0_first up free retrain⟩
  case zeroFill =>
    intro m x k r taken flight alloc serving part found free _
    exact regionZeroFillDone_zeroes taken flight alloc serving part up found free

end Sys2Proof.Proofs
end

section
/-! SUPPORT. The state at reset, and the boot ROM's run from an erased NOR (R254, R447, R472, R474, R523, R587, R602). -/

namespace Sys2Proof.Proofs
open Sys2Proof.Machine Sys2Proof.Laws

/-! ### Little-endian fields -/

/-- A field apart from the one written. -/
theorem le_putLe_other {m : Mem} (canonical : m.wf = true) {a b k n : Nat} (apart : a + k ≤ b ∨ b + n ≤ a) (v : Nat) :
    (m.putLe b n v).le a k = m.le a k := by
  have same : (m.putLe b n v).readBytes a k = m.readBytes a k := List.map_congr_left fun i hi => by
    have below := List.mem_range.1 hi
    exact read_writeBytes_out _ m b (a + i) canonical (by rw [leBytes_length]; omega)
  rw [Mem.le, same, Mem.le]

/-- A status map in canonical form that starts with its signature and version (R472). -/
structure Signed (m : Mem) : Prop where
  canonical : m.wf = true
  signature : m.le 0 2 = 0x4800
  version : m.le 2 2 = 0x0100

/-- The first two words stay where a field beyond them is written. -/
theorem Signed.putLe {m : Mem} (signed : Signed m) {b : Nat} (beyond : 4 ≤ b) (n v : Nat) : Signed (m.putLe b n v) := by
  obtain ⟨canonical, signature, version⟩ := signed
  exact ⟨wf_putLe _ _ _ _ canonical, by rw [le_putLe_other canonical (by omega), signature],
    by rw [le_putLe_other canonical (by omega), version]⟩

/-- The status map with its signature and version alone. -/
def signedMap : Mem := (Mem.empty.putLe 0 2 0x4800).putLe 2 2 0x0100

theorem signedMap_signed : Signed signedMap := by
  have started := wf_putLe Mem.empty 0 2 0x4800 wf_empty
  refine ⟨wf_putLe _ _ _ _ started, ?_, le_putLe _ 2 2 0x0100 started⟩
  rw [signedMap, le_putLe_other started (by omega)]
  exact le_putLe _ 0 2 0x4800 wf_empty

/-- The first publication of the state group writes beyond them (R474). -/
theorem reset_status_signed : Signed StatusSt.reset.map :=
  (((((signedMap_signed.putLe (b := 8) (by omega) 2 1).putLe (b := 10) (by omega) 2 1).putLe (b := 12) (by omega) 2 1).putLe (b := 14)
    (by omega) 2 0xFF).putLe (b := 16) (by omega) 2 0x4444).putLe (b := 22) (by omega) 2 1

/-! ### The state at reset -/

theorem reset_part (p : Fin 4) : State.reset.parts[p] = Part.reset := Vector.getElem_replicate _

theorem reset_cluster (c : Fin 4) : State.reset.clusters[c] = Cluster.init := Vector.getElem_replicate _

theorem reset_dsp (d : Fin 4) : State.reset.dsps[d] = Dsp.reset := Vector.getElem_replicate _

theorem reset_mbox (m : Fin 8) : State.reset.mboxes[m] = Mbox.reset := Vector.getElem_replicate _

/-- TOWPATH alone is powered. -/
theorem reset_on (r : Fin 10) : State.reset.on r.val = true ↔ r = 0 := by
  change (1#10).getLsbD r.val = true ↔ r = 0
  decide +revert

theorem reset_clustersCanonical : State.reset.clustersCanonical := by
  intro c
  rw [reset_cluster]
  refine ⟨wf_empty, fun i => ?_, fun _ h => nomatch h⟩
  rw [show Cluster.init.lmem[i] = Mem.empty from Vector.getElem_replicate _]
  exact wf_empty

theorem reset_dspsCanonical : State.reset.dspsCanonical := by
  intro d
  rw [reset_dsp]
  exact ⟨wf_empty, wf_empty, wf_empty⟩

/-- A register of TRC reads as ones while CONTROL is not powered (R456, R609). -/
theorem read32_trc_off {s : State} (off : s.on 3 = false) {a : Nat} (least : 0x600000 ≤ a) (most : a < 0x630000) :
    s.read32 a = 0xFFFFFFFF := by
  have block : blockOf a = some (some 3, 0x600000) := by
    unfold blockOf
    repeat rw [if_neg (by omega)]
    rw [if_pos ⟨least, most⟩]
  unfold State.read32
  rw [block]
  exact if_neg (by simp [off])

/-! ### What NOR decides -/

theorem norBytes_congr {s t : State} (same : t.nor = s.nor) (a n : Nat) : t.norBytes a n = s.norBytes a n := by
  unfold State.norBytes State.norByte
  rw [same]

theorem bootCurrent_congr {s t : State} (same : t.nor = s.nor) : t.bootCurrent = s.bootCurrent := by
  unfold State.bootCurrent
  simp only [norBytes_congr same]

theorem verifySlot_congr {s t : State} (same : t.nor = s.nor) (slot : Nat) (valid : Bool) :
    t.verifySlot slot valid = s.verifySlot slot valid := by
  unfold State.verifySlot State.slotHdr State.floor
  simp only [norBytes_congr same]

/-- A slot that does not verify where its area is valid does not verify at all (R585). -/
theorem verifySlot_ne_none {s : State} {slot : Nat} (bad : s.verifySlot slot true ≠ none) (valid : Bool) :
    s.verifySlot slot valid ≠ none := by
  cases valid
  · exact nofun
  · exact bad

/-- No slot of a list is good where none verifies. -/
theorem firstGood_none {s : State} (bad : ∀ x, s.verifySlot x true ≠ none) (l : List Nat) : (s.firstGood l).1 = none := by
  induction l with
  | nil => rfl
  | cons x l ih =>
    obtain ⟨r, failed⟩ := Option.ne_none_iff_exists'.1 (verifySlot_ne_none (bad x) (s.slotValid x))
    unfold State.firstGood
    rw [failed]
    exact ih

/-! ### The boot ROM's run -/

theorem refresh_nor (s : State) : s.refresh.nor = s.nor := by
  obtain ⟨_, _, _, _, frame⟩ := refresh_frame s
  rw [frame]

theorem traceReachOn_nor (s : State) (r : Fin 10) (cause : Nat) : (s.traceReachOn r cause).nor = s.nor := by
  obtain ⟨_, frame⟩ := traceReachOn_frame s r cause
  rw [frame]

/-- CONTROL powers up: NOR stays. -/
theorem reachOn_control_nor (s : State) (cause : Nat) : (s.reachOn 3 cause).nor = s.nor := by
  unfold State.reachOn
  split
  · rfl
  · rw [refresh_nor]
    exact traceReachOn_nor _ 3 cause

/-- Slots rejected change nothing that TOWPATH holds. -/
theorem noteRejected_dev (s : State) (l : List (Nat × Nat)) : (s.noteRejected l).dev = s.dev :=
  foldl_frame (fun s t : State => t.dev = s.dev) (fun _ => rfl) (fun _ _ _ st tu => tu.trans st) _
    (fun s x => by
      obtain ⟨_, _, _, logged⟩ := logOnly_frame { s with fw := { s.fw with rejected := s.fw.rejected ||| 2 ^ x.1 } } 0x0B02
        (leBytes 1 x.1 ++ leBytes 1 x.2)
      dsimp only
      rw [logged]) l s

/-- The state in which the boot ROM looks for an image: CONTROL is powered. -/
def romStarted (s : State) : State :=
  State.reachOn { s with fw := { s.fw with rejected := 0, expired := false, bootCommit := 0, load := none } } 3 2

/-- The state in which the boot ROM has found none: the rejected slots are noted. -/
def romFailed (s : State) : State := (romStarted s).noteRejected ((romStarted s).firstGood [0, 1]).2

/-- Without a boot record and without a slot that verifies, the boot ROM's run leads to RECOVERY (R447, R587). -/
theorem exec_bootRomRun_recovery {s : State} (boot : s.dev.state = .boot) (released : s.dev.perst = false) (up : s.dev.towpath = true)
    (stopped : s.fw.running = false) (idle : s.fw.starting = false) (erased : s.bootCurrent = none)
    (bad : ∀ x, s.verifySlot x true ≠ none) :
    exec .bootRomRun s =
      .next (State.setState { romFailed s with fw := { (romFailed s).fw with slot := 0xFF, image := [] } } .recovery) := by
  have nor : (romStarted s).nor = s.nor := reachOn_control_nor _ 2
  have none_current : (romStarted s).bootCurrent = none := (bootCurrent_congr nor).trans erased
  have none_good : ((romStarted s).firstGood [0, 1]).1 = none :=
    firstGood_none (fun x => by rw [verifySlot_congr nor]; exact bad x) _
  have noTrial : (romStarted s).expireTrial (romStarted s).bootRec = romStarted s := by
    unfold State.bootRec
    rw [none_current]
    rfl
  have ready : ¬ (s.dev.state ≠ .boot ∨ s.dev.perst = true ∨ ¬ s.dev.towpath = true ∨ s.fw.running = true ∨ s.fw.starting = true) := by
    simp [boot, released, up, stopped, idle]
  change execBootRomRun s = _
  unfold execBootRomRun
  rw [if_neg ready]
  unfold romFailed
  generalize started : romStarted s = u at *
  unfold romStarted at started
  simp only [started, none_current, noTrial, Option.isSome_none, Bool.false_eq_true, if_false, none_good]

end Sys2Proof.Proofs
end

section
/-! The obligation of the state at reset. -/

namespace Sys2Proof.Proofs
open Sys2Proof.Machine Sys2Proof.Laws

/-- The boot ROM's run from reset. -/
theorem reset_bootRomRun (erased : State.reset.bootCurrent = none) (bad : ∀ x, State.reset.verifySlot x true ≠ none) :
    ∃ t, exec .bootRomRun State.reset = .next t ∧ t.dev.state = .recovery ∧ t.on 3 = true ∧ t.fw.slot = 0xFF := by
  obtain ⟨_, _, _, recovered⟩ := setState_frame
    { romFailed State.reset with fw := { (romFailed State.reset).fw with slot := 0xFF, image := [] } } .recovery
  refine ⟨_, exec_bootRomRun_recovery rfl rfl rfl rfl rfl erased bad, ?_⟩
  rw [recovered]
  have powered : (romFailed State.reset).on 3 = true := by
    unfold State.on romFailed
    rw [noteRejected_dev]
    exact (reachOn_power _ 3 2).2
  generalize romFailed State.reset = u at *
  exact ⟨rfl, powered, rfl⟩

/-- Settles O59: the fields of the reset state by its definition, TRC's registers by CONTROL's reach being off, the boot ROM's run by
the slots that do not verify. -/
theorem resetState : Obligations.ResetState := by
  refine ⟨rfl, rfl, rfl, rfl, rfl, rfl, rfl, rfl, rfl, rfl, rfl, rfl, rfl, rfl, rfl, rfl, rfl, rfl, rfl, ?mailboxes, ?clusters,
    ?reaches, ?counters, ?signature, ?version, ⟨wf_empty, wf_empty, wf_empty⟩, reset_clustersCanonical, reset_dspsCanonical,
    ⟨_, step_nil rfl⟩, reset_bootRomRun⟩
  case mailboxes =>
    intro m
    rw [reset_mbox]
    exact ⟨rfl, rfl⟩
  case clusters =>
    intro c
    rw [reset_part, reset_cluster]
    exact ⟨rfl, rfl, fun _ _ => rfl⟩
  case reaches => exact reset_on
  case counters => exact fun n => read32_trc_off (by decide) (by omega) (by omega)
  case signature => exact reset_status_signed.signature
  case version => exact reset_status_signed.version

end Sys2Proof.Proofs
end

section
/-! SUPPORT. REGION_SET (R258, R262, R431), and a partition in which two regions have one slot. -/

namespace Sys2Proof.Proofs
open Sys2Proof.Machine Sys2Proof.Laws

variable {s : State} {m : Fin 8} {ctx : Nat} {p : List Byte} {q : Fin 4} {r : Region}

/-- The checks of a command on a region pass where it is there and the context's own. -/
theorem regionTarget_passed {t : Taken} (found : s.region? (field t.payload 0 4) = some (q, r)) (own : r.owner = t.context) :
    ∀ x ∈ s.regionTarget t, x.1 = false := by
  simp only [State.regionTarget, List.forall_mem_cons, List.not_mem_nil, found]
  exact ⟨rfl, any_some_eq_false (by simp [own]), fun _ h => h.elim⟩

/-- REGION_SET with op 1 sets RETAIN of every region of the slot (R431). -/
theorem exec_regionSetRetain (taken : s.holdsTaken m 0x0414 ctx p) (found : s.region? (field p 0 4) = some (q, r)) (own : r.owner = ctx)
    (op : field p 4 1 = 1) (reserved : field p 5 3 = 0) (idle : s.regionBusy (field p 0 4) = false) :
    exec (.regionSetRetain m) s = .next ((s.modRegion q r.slot (fun y => { y with retain := true })).reply m (ok [])) := by
  change execRegionSetRetain m s = _
  unfold execRegionSetRetain State.regionSetRow
  rw [withTaken_holdsTaken taken]
  unfold State.regionSet
  dsimp only
  rw [op, if_pos (by decide), checked_of_passed]
  · simp only [found]
  · simp only [List.forall_mem_append, List.forall_mem_cons, List.not_mem_nil]
    exact ⟨⟨⟨⟨rfl, decide_eq_false (by omega), fun _ h => h.elim⟩, regionTarget_passed (t := ⟨0x0414, ctx, p⟩) found own⟩, idle,
      fun _ h => h.elim⟩, fun _ h => h.elim⟩

/-- A region of slot 0 of context 0 with RETAIN set. -/
def retained : Region := { slot := 0, gen := 1, base := 0, blocks := 1, owner := 0, retain := true, stale := false, update := false }

/-- Another of the same slot with RETAIN clear. -/
def unretained : Region :=
  { slot := 0, gen := 2, base := 0x200000, blocks := 1, owner := 0, retain := false, stale := false, update := false }

/-- The payload of a REGION_SET that sets RETAIN of the first. -/
def setRetain : List Byte := [0, 0, 1, 0, 1, 0, 0, 0]

/-- A device in READY whose partition 0 has both, and whose mailbox 0 holds that command taken. -/
def twinRegions : State :=
  { State.reset with
    dev := { Dev.reset with state := .ready, powered := 9 }, fw := { Fw.reset with running := true },
    parts := vset State.reset.parts 0 { Part.reset with regions := [retained, unretained] },
    mboxes := vset State.reset.mboxes 0 { Mbox.reset with taken := some ⟨0x0414, 0, setRetain⟩ } }

theorem twinRegions_part : twinRegions.parts[(0 : Fin 4)].regions = [retained, unretained] := rfl

theorem twinRegions_found : twinRegions.region? (field setRetain 0 4) = some (0, retained) := rfl

theorem twinRegions_taken : twinRegions.holdsTaken 0 0x0414 0 setRetain := ⟨rfl, rfl, rfl, rfl⟩

/-- The command sets RETAIN of both. -/
theorem twinRegions_both_retained {t : State} (executed : exec (.regionSetRetain 0) twinRegions = .next t) :
    t.parts[(0 : Fin 4)].regions = [retained, { unretained with retain := true }] := by
  rw [exec_regionSetRetain twinRegions_taken twinRegions_found rfl rfl rfl rfl] at executed
  obtain ⟨_, _, _, frame⟩ := reply_frame (twinRegions.modRegion 0 retained.slot (fun y => { y with retain := true })) 0 (ok [])
  rw [frame] at executed
  obtain rfl := Host.Outcome.next.inj executed
  rfl

/-- Refutes O27: of two regions of one slot, the named one with RETAIN set and the other with RETAIN clear, REGION_SET with op 1 sets
RETAIN of both, where the statement leaves the other as it was. REGION_ALLOC makes no two regions of one slot in a partition, but the
statement is about every state. -/
theorem not_regionsAndRings : ¬ Obligations.RegionsAndRings := by
  intro h
  obtain ⟨-, regions, -⟩ := h twinRegions 0 0 setRetain
  obtain ⟨-, set, -⟩ := regions 0 retained twinRegions_found
  obtain ⟨setRetained, -⟩ := set twinRegions_taken rfl rfl rfl
  obtain ⟨t, executed, -, -, marked⟩ := setRetained rfl
  rw [twinRegions_both_retained executed, twinRegions_part] at marked
  exact absurd marked (by decide)

end Sys2Proof.Proofs
end

section
/-! SUPPORT. The trace's epoch stays while reaches power off, and what ends on their clusters: one lemma for each operation, from the
shared ones to `powerOff` (R602). -/

namespace Sys2Proof.Proofs
open Sys2Proof.Machine Sys2Proof.Laws

/-- `t` has the trace epoch of `s`. -/
@[simp] abbrev SameTrcEpoch (s t : State) : Prop := t.trc.epoch = s.trc.epoch

theorem SameTrcEpoch.trans {s t u : State} (st : SameTrcEpoch s t) (tu : SameTrcEpoch t u) : SameTrcEpoch s u := Eq.trans tu st

@[simp] theorem foldl_trcEpoch {α : Type} {f : State → α → State} (h : ∀ s a, SameTrcEpoch s (f s a)) (l : List α) (s : State) :
    SameTrcEpoch s (l.foldl f s) :=
  foldl_frame SameTrcEpoch (fun _ => rfl) (fun _ _ _ => SameTrcEpoch.trans) f h l s

/-- A fold that also gathers a value beside the state. -/
theorem foldl_fst_trcEpoch {α β : Type} {f : State × β → α → State × β} (h : ∀ x a, SameTrcEpoch x.1 (f x a).1) (l : List α)
    (x : State × β) : SameTrcEpoch x.1 (l.foldl f x).1 :=
  foldl_frame (fun x y : State × β => SameTrcEpoch x.1 y.1) (fun _ => rfl) (fun _ _ _ => SameTrcEpoch.trans) f h l x

@[simp] theorem irqSync_trcEpoch (s : State) : SameTrcEpoch s s.irqSync := by
  obtain ⟨p, g, h⟩ := irqSync_frame s
  rw [h]

@[simp] theorem setCause_trcEpoch (s : State) (i : Nat) : SameTrcEpoch s (s.setCause i) := by
  obtain ⟨p, g, h⟩ := setCause_frame s i
  rw [h]

@[simp] theorem event_trcEpoch (s : State) (code ctx w : Nat) (log : Bool) (data : List Byte) :
    SameTrcEpoch s (s.event code ctx w log data) := by
  obtain ⟨l, a, b, p, g, h⟩ := event_frame s code ctx w log data
  rw [h]

@[simp] theorem trace_trcEpoch (s : State) (r : Fin 10) (cls ty hi : Nat) (data : List Byte) :
    SameTrcEpoch s (s.trace r cls ty hi data) := by
  unfold State.trace
  split <;> rfl

@[simp] theorem count_trcEpoch (s : State) (i n : Nat) : SameTrcEpoch s (s.count i n) := rfl

@[simp] theorem waitEnded_trcEpoch (s : State) (w : Waiter) (result : Nat) : SameTrcEpoch s (s.waitEnded w result) := by
  unfold State.waitEnded
  split
  · simp
  · dsimp only
    split
    · simp
    · split <;> simp

@[simp] theorem setKeeper_trcEpoch (s : State) (k : KeeperId) (v : Keeper) : SameTrcEpoch s (s.setKeeper k v) := by
  cases k <;> exact rfl

@[simp] theorem release_trcEpoch (s : State) (w : Waiter) : SameTrcEpoch s (s.release w) := by
  unfold State.release
  dsimp only
  split <;> simp

@[simp] theorem settle_trcEpoch (s : State) (k : KeeperId) (lock : Nat) : SameTrcEpoch s (s.settle k lock) := by
  simp [State.settle]

@[simp] theorem dropWaiters_trcEpoch (s : State) (p : Waiter → Bool) : SameTrcEpoch s (s.dropWaiters p) := by
  unfold State.dropWaiters
  exact foldl_trcEpoch (fun s k => by simp) _ s

@[simp] theorem prefetchGone_trcEpoch (s : State) (entry bid : Nat) (ok : Bool) : SameTrcEpoch s (s.prefetchGone entry bid ok) :=
  rfl

@[simp] theorem ringPut_trcEpoch (s : State) (r : Nat) (e : List Byte) : SameTrcEpoch s (s.ringPut r e) := by
  obtain ⟨a, b, p, h⟩ := ringPut_frame s r e
  rw [h]

@[simp] theorem completeTo_trcEpoch (s : State) (cr : Nat) (e extra : List Byte) : SameTrcEpoch s (s.completeTo cr e extra) := by
  unfold State.completeTo
  split
  · simp
  · dsimp only
    split_ifs <;> simp

@[simp] theorem complete_trcEpoch (s : State) (r kind status index tag bytes : Nat) (extra : List Byte) :
    SameTrcEpoch s (s.complete r kind status index tag bytes extra) := by
  unfold State.complete
  split <;> simp

@[simp] theorem lockWait_trcEpoch (s : State) (k : KeeperId) (lock n expiry : Nat) (who : WaiterId) :
    SameTrcEpoch s (s.lockWait k lock n expiry who).1 := by
  unfold State.lockWait
  dsimp only
  split_ifs <;> simp

@[simp] theorem bargeRefused_trcEpoch (s : State) (ctx : Nat) (c : Fin 4) (code : Nat) (tag : W32) (data : List Byte) :
    SameTrcEpoch s (s.bargeRefused ctx c code tag data) := by
  simp [State.bargeRefused]

@[simp] theorem bargeWait_trcEpoch (s : State) (b : Barge) : SameTrcEpoch s (s.bargeWait b).1 := by
  unfold State.bargeWait
  dsimp only
  split
  · simp
  · split <;> simp

@[simp] theorem refillMover_trcEpoch (m : Mover) (n : Nat) (s : State) : SameTrcEpoch s (State.refillMover m n s) := by
  induction n generalizing s with
  | zero => simp [State.refillMover]
  | succ n ih =>
    unfold State.refillMover
    dsimp only
    split
    · simp
    · split
      · simp
      · split <;> simp [ih]

@[simp] theorem bargeGone_trcEpoch (s : State) (b : Barge) (ok : Bool) (status bytes : Nat) :
    SameTrcEpoch s (s.bargeGone b ok status bytes) := by
  unfold State.bargeGone
  dsimp only
  split <;> simp

@[simp] theorem bargeFails_trcEpoch (s : State) (b : Barge) (code : Nat) (data : List Byte) :
    SameTrcEpoch s (s.bargeFails b code data) := by
  unfold State.bargeFails
  dsimp only
  split <;> simp

@[simp] theorem devWrite_trcEpoch (s : State) (loc : Option (Fin 4 × Fin 4)) (a : Nat) (data : List Byte) :
    SameTrcEpoch s (s.devWrite loc a data).1 := by
  unfold State.devWrite
  split
  · exact rfl
  · simp
  · split
    · exact rfl
    · simp
  · simp

@[simp] theorem writeLines_trcEpoch (s : State) (loc : Option (Fin 4 × Fin 4)) (l : List (Nat × List Byte)) :
    SameTrcEpoch s (s.writeLines loc l).1 :=
  foldl_fst_trcEpoch (fun (x : State × Bool) p => devWrite_trcEpoch x.1 loc p.1 p.2) l (s, false)

@[simp] theorem writeSome_trcEpoch (s : State) (b : Barge) : SameTrcEpoch s (s.writeSome b) := by
  unfold State.writeSome
  dsimp only
  split <;> simp [State.draw]

@[simp] theorem abandonBarge_trcEpoch (s : State) (b : Barge) (code : Nat) (data : List Byte) :
    SameTrcEpoch s (s.abandonBarge b code data) := by
  simp [State.abandonBarge]

@[simp] theorem abandonShareBarges_trcEpoch (s : State) (rid : Nat) : SameTrcEpoch s (s.abandonShareBarges rid) :=
  foldl_trcEpoch (fun s b => abandonBarge_trcEpoch s b 0 []) _ s

@[simp] theorem withdrawRun_trcEpoch (s : State) (rid : Nat) : SameTrcEpoch s (s.withdrawRun rid) := by
  unfold State.withdrawRun
  exact dropWaiters_trcEpoch s _

@[simp] theorem repairEvent_trcEpoch (s : State) (r : Run) : SameTrcEpoch s (s.repairEvent r) := by
  unfold State.repairEvent
  split <;> simp

@[simp] theorem restoreSaved_trcEpoch (s : State) (r : Run) : SameTrcEpoch s (s.restoreSaved r) := by
  unfold State.restoreSaved
  dsimp only
  split <;> simp

@[simp] theorem freeCores_trcEpoch (s : State) (c : Fin 4) (rid : Nat) : SameTrcEpoch s (s.freeCores c rid) := by
  simp [State.freeCores]

@[simp] theorem modOvr_trcEpoch (s : State) (src : Fin 16) (count : Nat) (f : OvrRec → OvrRec) :
    SameTrcEpoch s (s.modOvr src count f) := rfl

@[simp] theorem modRxs_trcEpoch (s : State) (r : Fin 16) (f : RxStream → RxStream) : SameTrcEpoch s (s.modRxs r f) := rfl

@[simp] theorem audWrite_trcEpoch (s : State) (a : AudPlace) (l : List Byte) : SameTrcEpoch s (s.audWrite a l) := by
  cases a <;> exact rfl

@[simp] theorem applyRaise_trcEpoch (s : State) (k : KeeperId) (lock n : Nat) : SameTrcEpoch s (s.applyRaise k lock n) := by
  simp [State.applyRaise, apply_ite State.trc, apply_ite Trc.epoch]

@[simp] theorem lnkErr_trcEpoch (s : State) (b : BitVec 15) : SameTrcEpoch s (s.lnkErr b) := by
  obtain ⟨p, g, h⟩ := lnkErr_frame s b
  rw [h]

@[simp] theorem routeFrame_trcEpoch (s : State) (prio1 : Bool) (f : ZFrame) : SameTrcEpoch s (s.routeFrame prio1 f) := by
  unfold State.routeFrame State.output
  dsimp only
  split_ifs <;> simp

@[simp] theorem sendFrame_trcEpoch (s : State) (ty dst : Nat) (prio1 : Bool) (id seq part : Nat) (payload : List Byte) :
    SameTrcEpoch s (s.sendFrame ty dst prio1 id seq part payload) := by
  unfold State.sendFrame
  split <;> simp

@[simp] theorem raiseRef_trcEpoch (s : State) (own : Option (Fin 4)) (ref : W32) : SameTrcEpoch s (s.raiseRef own ref) := by
  unfold State.raiseRef
  split
  · simp
  · split
    · split <;> simp
    · split <;> simp
    · simp
    · split_ifs <;> simp

@[simp] theorem finaliseUnit_trcEpoch (s : State) (r : Fin 16) : SameTrcEpoch s (s.finaliseUnit r) := by
  unfold State.finaliseUnit
  dsimp only
  split <;> simp

@[simp] theorem finaliseUnits_trcEpoch (r : Fin 16) (n : Nat) (s : State) : SameTrcEpoch s (State.finaliseUnits r n s) := by
  induction n generalizing s with
  | zero => simp [State.finaliseUnits]
  | succ n ih => simp [State.finaliseUnits, ih]

@[simp] theorem streamPart_trcEpoch (s : State) (r : Fin 16) (f : ZFrame) : SameTrcEpoch s (s.streamPart r f) := by
  simp [State.streamPart, State.localDrop, apply_ite State.trc, apply_ite Trc.epoch]

@[simp] theorem streamIn_trcEpoch (s : State) (f : ZFrame) : SameTrcEpoch s (s.streamIn f) := by
  unfold State.streamIn
  dsimp only
  split <;> simp [State.localDrop]

@[simp] theorem sendUnit_trcEpoch (s : State) (stream dst seq stamp : Nat) (data : List Byte) :
    SameTrcEpoch s (s.sendUnit stream dst seq stamp data) :=
  foldl_trcEpoch (fun s n => by dsimp only; split <;> simp) _ s

@[simp] theorem streamSend_trcEpoch (s : State) (t : Fin 16) (place : AudPlace) (n seq stamp : Nat) :
    SameTrcEpoch s (s.streamSend t place n seq stamp) := by
  unfold State.streamSend
  dsimp only
  split <;> simp

@[simp] theorem bufferStreams_trcEpoch (s : State) (entry count stamp : Nat) : SameTrcEpoch s (s.bufferStreams entry count stamp) := by
  unfold State.bufferStreams
  exact foldl_trcEpoch (fun s n => by dsimp only; split <;> simp) _ s

@[simp] theorem audDone_trcEpoch (s : State) (entry count : Nat) (completed bypassed : Bool) :
    SameTrcEpoch s (s.audDone entry count completed bypassed) :=
  foldl_trcEpoch (fun s n => by dsimp only; split <;> simp) _ s

@[simp] theorem txReady_trcEpoch (s : State) (n : Fin 2) : SameTrcEpoch s (s.txReady n) := rfl

@[simp] theorem endSteps_trcEpoch (s : State) (r : Run) (made : Bool) : SameTrcEpoch s (s.endSteps r made) := rfl

@[simp] theorem runEnd_trcEpoch (s : State) (r : Run) (outcome : Nat) (bypassed : Bool) :
    SameTrcEpoch s (s.runEnd r outcome bypassed) := by
  simp [State.runEnd, apply_ite State.trc, apply_ite Trc.epoch]

@[simp] theorem stopRun_trcEpoch (s : State) (r : Run) (bypassed : Bool) : SameTrcEpoch s (s.stopRun r bypassed) := by
  unfold State.stopRun
  dsimp only
  split_ifs <;> simp

@[simp] theorem modStage_trcEpoch (s : State) (n : Fin 2) (f : Stage → Stage) : SameTrcEpoch s (s.modStage n f) := rfl

@[simp] theorem wakeSync_trcEpoch (s : State) : SameTrcEpoch s s.wakeSync := by
  unfold State.wakeSync
  split <;> exact rfl

@[simp] theorem dropSession_trcEpoch (s : State) (n : Fin 2) (reason : Nat) : SameTrcEpoch s (s.dropSession n reason) := by
  unfold State.dropSession
  split
  · simp
  · dsimp only
    split <;> simp [State.holdWake]

@[simp] theorem dropSessions_trcEpoch (s : State) (c : Fin 4) : SameTrcEpoch s (s.dropSessions c).1 :=
  foldl_fst_trcEpoch (fun x n => by dsimp only; split <;> simp) _ (s, false)

@[simp] theorem jobEnd_trcEpoch (s : State) (j : Job) (outcome : Nat) : SameTrcEpoch s (s.jobEnd j outcome) := by
  unfold State.jobEnd
  dsimp only
  split <;> simp

@[simp] theorem jobAbort_trcEpoch (s : State) (j : Job) : SameTrcEpoch s (s.jobAbort j) := by
  unfold State.jobAbort
  dsimp only
  split
  · split <;> simp [State.junkDram, State.newEpoch]
  · simp

@[simp] theorem offAccess_trcEpoch (s : State) (a : Nat) : SameTrcEpoch s (s.offAccess a) := by
  unfold State.offAccess
  split
  · split <;> simp
  · simp

@[simp] theorem hostStore_trcEpoch (s : State) (p : Fin 4) (a : Nat) (data : List Byte) : SameTrcEpoch s (s.hostStore p a data) := by
  unfold State.hostStore
  split
  · simp
  · simp [State.dramWrite]

@[simp] theorem releaseHeld_trcEpoch (s : State) (p : Fin 4) : SameTrcEpoch s (s.releaseHeld p) :=
  foldl_trcEpoch (fun s h => by split <;> simp [State.hostRead]) _ _

@[simp] theorem abandonTests_trcEpoch (s : State) (c : Fin 4) : SameTrcEpoch s (s.abandonTests c) := by
  simp [State.abandonTests, State.selftestEvent]

/-- What ends on a cluster that goes down leaves the power mode and TOWPATH alone. -/
@[simp] theorem clusterDown_trcEpoch (s : State) (c : Fin 4) : SameTrcEpoch s (s.clusterDown c).1 := by
  simp [State.clusterDown]

/-! ### Reaches that power off -/

@[simp] theorem traceMarker_trcEpoch (s : State) (r : Fin 10) (ty : Nat) (data : List Byte) (must : Bool) :
    SameTrcEpoch s (s.traceMarker r ty data must) := by
  unfold State.traceMarker
  split <;> rfl

@[simp] theorem traceSync_trcEpoch (s : State) (r : Fin 10) : SameTrcEpoch s (s.traceSync r) := by
  unfold State.traceSync
  dsimp only
  split <;> rfl

@[simp] theorem traceLost_trcEpoch (s : State) (r : Fin 10) : SameTrcEpoch s (s.traceLost r) := by
  unfold State.traceLost
  split
  · rfl
  · exact traceSync_trcEpoch _ r

/-- The sink takes units of an epoch that stays. -/
theorem serve_epoch (x : Trc) (now : Nat) : (x.serve now).epoch = x.epoch := by
  unfold Trc.serve
  split
  · rfl
  · split
    · rfl
    · split
      · rfl
      · dsimp only
        split_ifs <;> rfl

@[simp] theorem flush_epoch (now n : Nat) (x : Trc) : (Trc.flush now n x).epoch = x.epoch := by
  induction n generalizing x with
  | zero => rfl
  | succ n ih => rw [Trc.flush, ih, serve_epoch]

@[simp] theorem groupChanged_trcEpoch (s : State) : SameTrcEpoch s s.groupChanged := rfl

@[simp] theorem dspOff_trcEpoch (s : State) (d : Fin 4) : SameTrcEpoch s (s.dspOff d) := rfl

@[simp] theorem txHalt_trcEpoch (s : State) (n : Fin 2) : SameTrcEpoch s (s.txHalt n) := rfl

@[simp] theorem reply_trcEpoch (s : State) (m : Fin 8) (r : Reply) : SameTrcEpoch s (s.reply m r) := by
  simp [State.reply, State.writeReply]

@[simp] theorem replyFor_trcEpoch (s : State) (m : Fin 8) (code : Nat) (r : Reply) : SameTrcEpoch s (s.replyFor m code r) := by
  unfold State.replyFor
  split
  · split <;> simp
  · simp

@[simp] theorem i3cCancel_trcEpoch (s : State) (n : Fin 2) : SameTrcEpoch s (s.i3cCancel n) := by
  simp [State.i3cCancel]

@[simp] theorem timeUnlock_trcEpoch (s : State) (cause : Nat) : SameTrcEpoch s (s.timeUnlock cause) := by
  unfold State.timeUnlock
  split <;> simp

@[simp] theorem portDown_trcEpoch (s : State) (p : Fin 4) (reason : Nat) (event : Bool) :
    SameTrcEpoch s (s.portDown p reason event) := by
  simp [State.portDown, apply_ite State.trc, apply_ite Trc.epoch]

/-- A reach that powers off leaves the trace's epoch. -/
@[simp] theorem reachOff_trcEpoch (s : State) (r : Fin 10) : SameTrcEpoch s (s.reachOff r) := by
  unfold State.reachOff
  split
  · rfl
  · dsimp only
    split <;> simp

@[simp] theorem powerOff_trcEpoch (s : State) (r : Fin 10) : SameTrcEpoch s (s.powerOff r) := by
  unfold State.powerOff State.clusterOff
  split
  · split <;> simp
  · simp

end Sys2Proof.Proofs
end

section
/-! SUPPORT. VIN, TOWPATH and PERST_L (R254, R447, R474, R523, R574, R602, R619, R622 to R624). -/

namespace Sys2Proof.Proofs
open Sys2Proof.Machine Sys2Proof.Laws

variable {s : State}

/-! ### What PERST_L and VIN loss clear -/

/-- The state after every reach but TOWPATH has powered off, `f` free values and `e` undefined contents drawn by then, with a trace
whose configuration is that of `x` reset (R254, R574). -/
def blackedOut (s : State) (f e : Nat) (x : Trc) : State :=
  { State.reset with
    pending := s.pending, fresh := f, epoch := e, host := s.host, nor := s.nor,
    pcie := { Pcie.reset with sent := s.pcie.sent, sris := s.pcie.sris }, log := s.log, status := s.status, trc := x.config,
    jtag := s.jtag,
    dev := { s.dev with index := 0xFF, size := none, powered := if s.dev.towpath then 1 else 0 } }

theorem blackout_eq (s : State) : ∃ f e x, s.blackout = blackedOut s f e x ∧ x.epoch = s.trc.epoch := by
  refine ⟨_, _, _, rfl, ?_⟩
  exact foldl_trcEpoch powerOff_trcEpoch _ s

/-- `t` holds nothing of what PERST_L and VIN loss clear, and what they leave of `s`. -/
def Cleared (s t : State) : Prop :=
  t.dram = Mem.empty ∧ t.poison = [] ∧ t.sched = Sched.reset ∧ t.rings = [] ∧ t.barges = [] ∧
    t.cargos = [] ∧ t.jobs = [] ∧ t.cfg = Cfg.reset ∧ t.fw = Fw.reset ∧ t.ctxs = [(0, Ctx.zero)] ∧
    (∀ m : Fin 8, t.mboxes[m] = Mbox.reset) ∧
    (∀ p : Fin 4, t.parts[p].regions = [] ∧ t.clusters[p] = Cluster.init ∧ t.dsps[p] = Dsp.reset) ∧
    t.nor = s.nor ∧ t.host = s.host ∧ t.pending = s.pending ∧ t.dev.index = 0xFF

theorem blackedOut_cleared (s : State) (f e : Nat) (x : Trc) : Cleared s (blackedOut s f e x) :=
  ⟨rfl, rfl, rfl, rfl, rfl, rfl, rfl, rfl, rfl, rfl, reset_mbox,
    fun p => ⟨congrArg Part.regions (reset_part p), reset_cluster p, reset_dsp p⟩, rfl, rfl, rfl, rfl⟩

/-- The units' filters are reset with the configuration (R602). -/
theorem config_filter (x : Trc) (r : Fin 10) : x.config.unit[r].filter = 0x80000000 := by
  simp only [Trc.config, Fin.getElem_fin, Vector.getElem_map]
  rfl

/-! ### BOOT begins -/

/-- REACH_ON and SYNC go to the units alone. -/
theorem traceReachOn_units (s : State) (r : Fin 10) (cause : Nat) :
    ∃ u, s.traceReachOn r cause = { s with trc := { s.trc with unit := u } } := by
  have marked (s : State) : ∃ u, s.traceMarker r 0x03 (leBytes 1 cause) true = { s with trc := { s.trc with unit := u } } := by
    unfold State.traceMarker
    split
    · exact ⟨_, rfl⟩
    · exact ⟨s.trc.unit, rfl⟩
  have synced (s : State) : ∃ u, s.traceSync r = { s with trc := { s.trc with unit := u } } := by
    unfold State.traceSync
    dsimp only
    split
    · exact ⟨_, rfl⟩
    · exact ⟨s.trc.unit, rfl⟩
  unfold State.traceReachOn
  obtain ⟨u, mark⟩ := marked s
  rw [mark]
  obtain ⟨v, sync⟩ := synced (State.modTrc { s with trc := { s.trc with unit := u } } r (fun u => { u with sinceOn := 0 }))
  exact ⟨v, sync⟩

/-- The state once BOOT has begun, with units `u` of the trace (R447, R474, R570, R605). -/
def bootBegun (s : State) (u : Vector TrcUnit 10) : State :=
  { s with
    dev := { s.dev with state := .boot, systime := 0, frac := 0 }, log := LogSt.reset, status := StatusSt.reset,
    trc := { s.trc with epoch := s.trc.epoch + 1, unit := u } }

theorem beginBoot_eq (s : State) : ∃ u, s.beginBoot = bootBegun s u := by
  obtain ⟨u, traced⟩ := traceReachOn_units
    { s with
      dev := { s.dev with state := .boot, systime := 0, frac := 0 }, log := LogSt.reset, status := StatusSt.reset,
      trc := { s.trc with
        epoch := s.trc.epoch + 1, unit := s.trc.unit.map (fun (u : TrcUnit) => { u with last := 0, lastSync := 0 }) } } 0 2
  exact ⟨u, traced⟩

/-! ### VIN -/

/-- A memory with nothing listed reads as zeros. -/
theorem empty_le (a : Nat) : Mem.empty.le a 2 = 0 := rfl

/-- Signature, version, and zeros (R474). -/
theorem signedMap_le (a : Nat) : signedMap.le (2 * a) 2 = if a = 0 then 0x4800 else if a = 1 then 0x0100 else 0 := by
  split_ifs with first second
  · subst first
    exact signedMap_signed.signature
  · subst second
    exact signedMap_signed.version
  · rw [signedMap, le_putLe_other (wf_putLe _ _ _ _ wf_empty) (by omega), le_putLe_other wf_empty (by omega), empty_le]

/-- A rise of VIN begins a power-up (R474, R570, R602, R619). -/
theorem vinRise_begins (off : s.dev.vin = false) (normal : s.dev.vinOver = false) :
    ∃ t, exec .vinRise s = .next t ∧ Cleared s t ∧ t.dev.state = .off ∧ t.dev.powered = 0 ∧
      t.dev.vin = true ∧ t.dev.towpath = false ∧ t.dev.perst = s.dev.perst ∧ t.log = LogSt.reset ∧ t.trc.sink = Mem.empty ∧
      t.trc.cnt = [] ∧ ∀ a, a < 64 → t.status.map.le (2 * a) 2 = if a = 0 then 0x4800 else if a = 1 then 0x0100 else 0 := by
  obtain ⟨f, e, x, black, -⟩ := blackout_eq s
  have executed : exec .vinRise s = _ := congrArg Host.Outcome.next (if_neg (by simp [off, normal]))
  rw [black] at executed
  exact ⟨_, executed, blackedOut_cleared s f e x, rfl, rfl, rfl, rfl, rfl, rfl, rfl, rfl, fun a _ => signedMap_le a⟩

/-- `t` is `s` once VIN is lost: OFF, TOWPATH on its hold-up charge where it was up (R574, R619, R624). -/
def VinLost (s t : State) : Prop :=
  Cleared s t ∧ t.dev.state = .off ∧ t.dev.vin = false ∧ t.dev.towpath = s.dev.towpath ∧
    t.dev.powered = (if s.dev.towpath then 1 else 0) ∧ t.dev.perst = s.dev.perst ∧ t.dev.systime = s.dev.systime ∧ t.log = s.log

theorem vinLoss_loses (s : State) : VinLost s s.vinLoss ∧ s.vinLoss.dev.vinOver = s.dev.vinOver := by
  obtain ⟨f, e, x, black, -⟩ := blackout_eq s
  unfold State.vinLoss
  rw [black]
  exact ⟨⟨blackedOut_cleared s f e x, rfl, rfl, rfl, rfl, rfl, rfl, rfl⟩, rfl⟩

theorem exec_vinFall (s : State) : exec .vinFall s = .next (if s.dev.vin then s.vinLoss else s) := rfl

theorem exec_vinOvervoltage (s : State) : exec .vinOvervoltage s =
    .next { (if s.dev.vin then s.vinLoss else s) with dev := { (if s.dev.vin then s.vinLoss else s).dev with vinOver := true } } := rfl

/-- An over-voltage is a loss of VIN that stays in force (R619). -/
theorem vinOvervoltage_loses (on : s.dev.vin = true) :
    ∃ t, exec .vinOvervoltage s = .next t ∧ VinLost s t ∧ t.dev.vinOver = true := by
  refine ⟨_, exec_vinOvervoltage s, ?_⟩
  rw [if_pos on]
  exact ⟨(vinLoss_loses s).1, rfl⟩

/-! ### TOWPATH -/

/-- `t` is in BOOT, just begun in `s` (R447, R474, R570). -/
def Booting (s t : State) : Prop :=
  t.dev.state = .boot ∧ t.dev.systime = 0 ∧ t.log = LogSt.reset ∧ t.status = StatusSt.reset ∧
    t.trc.epoch = s.trc.epoch + 1 ∧ t.trc.sink = s.trc.sink

/-- The state with TOWPATH up, its reach alone powered (R622). -/
def towpathOn (s : State) : State := { s with dev := { s.dev with towpath := true, powered := 1 } }

theorem exec_towpathUp (on : s.dev.vin = true) (down : s.dev.towpath = false) :
    exec .towpathUp s = .next (if s.dev.perst then towpathOn s else (towpathOn s).beginBoot) :=
  congrArg Host.Outcome.next (if_neg (by simp [on, down]))

theorem exec_towpathUp_asserted (on : s.dev.vin = true) (down : s.dev.towpath = false) (asserted : s.dev.perst = true) :
    exec .towpathUp s = .next (towpathOn s) := by
  rw [exec_towpathUp on down, if_pos asserted]

theorem towpathUp_boots (on : s.dev.vin = true) (down : s.dev.towpath = false) (released : s.dev.perst = false) :
    ∃ t, exec .towpathUp s = .next t ∧ Booting s t ∧ t.dev.towpath = true ∧ t.dev.powered = 1 ∧ t.dram = s.dram ∧ t.nor = s.nor := by
  have executed := exec_towpathUp on down
  obtain ⟨u, begun⟩ := beginBoot_eq (towpathOn s)
  rw [if_neg (by simp [released]), begun] at executed
  exact ⟨_, executed, ⟨rfl, rfl, rfl, rfl, rfl, rfl⟩, rfl, rfl, rfl, rfl⟩

/-- Its hold-up charge spent, TOWPATH goes down, and the sink with it (R606, R624). -/
theorem exec_holdUpChargeSpent (off : s.dev.vin = false) (up : s.dev.towpath = true) :
    exec .holdUpChargeSpent s = .next { s with dev := { s.dev with towpath := false, powered := 0 }, trc := Trc.reset } :=
  congrArg Host.Outcome.next (if_neg (by simp [off, up]))

theorem exec_holdUpChargeSpent_idle (idle : s.dev.vin = true ∨ s.dev.towpath = false) : exec .holdUpChargeSpent s = .next s :=
  congrArg Host.Outcome.next (if_pos (by simpa using idle))

/-! ### PERST_L -/

theorem perstLAssert_clears (released : s.dev.perst = false) (on : s.dev.state ≠ .off) :
    ∃ t, exec .perstLAssert s = .next t ∧ Cleared s t ∧ t.dev.perst = true ∧ t.dev.vin = s.dev.vin ∧
      t.dev.powered = (if s.dev.towpath then 1 else 0) ∧ t.log = s.log ∧ t.trc.epoch = s.trc.epoch ∧
      ∀ r : Fin 10, t.trc.unit[r].filter = 0x80000000 := by
  obtain ⟨f, e, x, black, epoch⟩ := blackout_eq s
  have executed : exec .perstLAssert s =
      .next { blackedOut s f e x with dev := { (blackedOut s f e x).dev with perst := true } } := by
    change execPerstLAssert s = _
    unfold execPerstLAssert
    rw [released, if_neg Bool.false_ne_true]
    dsimp only
    rw [if_neg on, black]
  exact ⟨_, executed, blackedOut_cleared s f e x, rfl, rfl, rfl, rfl, epoch, config_filter x⟩

theorem exec_perstLAssert_off (released : s.dev.perst = false) (off : s.dev.state = .off) :
    exec .perstLAssert s = .next { s with dev := { s.dev with perst := true } } := by
  change execPerstLAssert s = _
  unfold execPerstLAssert
  rw [released, if_neg Bool.false_ne_true]
  dsimp only
  rw [if_pos off]

/-- PERST_L released: BOOT begins where VIN and TOWPATH stand, and the reference clock's balls are looked at (R447, R587, R622; log
entry 179). -/
theorem exec_perstLRelease (asserted : s.dev.perst = true) : ∃ c,
    let u : State := { s with dev := { s.dev with perst := false } }
    let v : State := if s.dev.vin ∧ s.dev.towpath then u.beginBoot else u
    exec .perstLRelease s = .next { v with fresh := v.fresh + 1, pcie := { v.pcie with sris := c } } :=
  ⟨_, congrArg Host.Outcome.next (if_neg (not_not.2 asserted))⟩

theorem perstLRelease_boots (asserted : s.dev.perst = true) (on : s.dev.vin = true) (up : s.dev.towpath = true) :
    ∃ t, exec .perstLRelease s = .next t ∧ Booting s t ∧ t.dev.perst = false ∧ t.dram = s.dram ∧ t.nor = s.nor ∧
      t.dev.powered = s.dev.powered ∧ t.dev.index = s.dev.index := by
  obtain ⟨c, executed⟩ := exec_perstLRelease asserted
  obtain ⟨u, begun⟩ := beginBoot_eq { s with dev := { s.dev with perst := false } }
  dsimp only at executed
  rw [if_pos ⟨on, up⟩, begun] at executed
  exact ⟨_, executed, ⟨rfl, rfl, rfl, rfl, rfl, rfl⟩, rfl, rfl, rfl, rfl, rfl⟩

theorem exec_perstLRelease_unpowered (asserted : s.dev.perst = true) (unsupplied : s.dev.vin = false ∨ s.dev.towpath = false) :
    ∃ c, exec .perstLRelease s = .next
      { s with dev := { s.dev with perst := false }, fresh := s.fresh + 1, pcie := { s.pcie with sris := c } } := by
  obtain ⟨c, executed⟩ := exec_perstLRelease asserted
  dsimp only at executed
  rw [if_neg (by simpa [imp_iff_not_or] using unsupplied)] at executed
  exact ⟨c, executed⟩

end Sys2Proof.Proofs
end

section
/-! The obligation of supply and PERST_L. -/

namespace Sys2Proof.Proofs
open Sys2Proof.Machine

/-- Settles O57: each event by what it leaves of the blackout and of the start of BOOT; that the blackout leaves the trace's epoch by a
walk over the reaches that power off. -/
theorem supplyAndPerst : Obligations.SupplyAndPerst := by
  refine fun s => ⟨vinRise_begins, ?again, fun on down => ⟨exec_towpathUp_asserted on down, towpathUp_boots on down⟩, ?lost,
    ?unsupplied, rfl, ?spent, exec_holdUpChargeSpent_idle,
    fun released => ⟨perstLAssert_clears released, exec_perstLAssert_off released⟩, ?release, ?released⟩
  case again => exact fun supplied => congrArg Host.Outcome.next (if_pos supplied)
  case lost =>
    intro on
    obtain ⟨lost, voltage⟩ := vinLoss_loses s
    exact ⟨⟨_, (exec_vinFall s).trans (by rw [if_pos on]), lost, voltage⟩, vinOvervoltage_loses on⟩
  case unsupplied =>
    intro off
    have kept : (if s.dev.vin then s.vinLoss else s) = s := if_neg (by simp [off])
    exact ⟨by rw [exec_vinFall, kept], by rw [exec_vinOvervoltage, kept]⟩
  case spent => exact fun off up => ⟨_, exec_holdUpChargeSpent off up, rfl, rfl, rfl, rfl⟩
  case release =>
    exact fun asserted => ⟨congrArg Host.Outcome.next (if_pos asserted), perstLRelease_boots asserted,
      exec_perstLRelease_unpowered asserted⟩
  case released => exact fun released => congrArg Host.Outcome.next (if_pos (by simp [released]))

end Sys2Proof.Proofs
end

section
/-! SUPPORT. A receiver's errors, the record of its frame, and what they leave as it was (R286, R289, R322). -/

namespace Sys2Proof.Proofs
open Sys2Proof.Machine Sys2Proof.Laws

variable {s t u : State} {n : Fin 2}

theorem modRx_same (s : State) (n : Fin 2) (f : Rx → Rx) : (s.modRx n f).img.rx[n] = f s.img.rx[n] := vmod_same _ _ _

theorem modRx_other (s : State) {n k : Fin 2} (other : k ≠ n) (f : Rx → Rx) : (s.modRx n f).img.rx[k] = s.img.rx[k] :=
  vmod_other _ _ _ _ other

theorem irqSync_onlyReports (s : State) : OnlyReports s s.irqSync := by
  obtain ⟨p, g, frame⟩ := irqSync_frame s
  exact ⟨s.log, s.host, s.rings, p, g, frame⟩

/-! ### One receiver becomes another -/

/-- Receiver n becomes `x`, and beside what reports errors nothing else changes. -/
def RxBecomes (n : Fin 2) (s t : State) (x : Rx) : Prop := OnlyReports (s.modRx n (fun _ => x)) t

theorem RxBecomes.rx {x : Rx} (h : RxBecomes n s t x) : t.img.rx[n] = x := by
  obtain ⟨_, _, _, _, _, rfl⟩ := h
  exact modRx_same s n _

theorem modRx_becomes (s : State) (n : Fin 2) (f : Rx → Rx) : RxBecomes n s (s.modRx n f) (f s.img.rx[n]) := .refl _

theorem becomes_self (s : State) (n : Fin 2) : RxBecomes n s s s.img.rx[n] := by
  have same : s.modRx n (fun _ => s.img.rx[n]) = s := by simp [State.modRx, vmod, vset]
  rw [RxBecomes, same]
  exact .refl s

theorem RxBecomes.modRx {x : Rx} (h : RxBecomes n s t x) (f : Rx → Rx) : RxBecomes n s (t.modRx n f) (f x) := by
  obtain ⟨l, a, b, p, g, rfl⟩ := h
  refine ⟨l, a, b, p, g, ?_⟩
  simp [State.modRx, vmod, vset]

theorem RxBecomes.reports {x : Rx} (h : RxBecomes n s t x) (reported : OnlyReports t u) : RxBecomes n s u x :=
  OnlyReports.trans h reported

theorem RxBecomes.trans {x y : Rx} (st : RxBecomes n s t x) (tu : RxBecomes n t u y) : RxBecomes n s u y :=
  (st.modRx fun _ => y).reports tu

/-- All but receivers, errors' reports and interrupts. -/
theorem RxBecomes.rest {x : Rx} (h : RxBecomes n s t x) :
    t.clusters = s.clusters ∧ t.sched = s.sched ∧ t.mboxes = s.mboxes ∧ t.img.frames = s.img.frames := by
  obtain ⟨_, _, _, _, _, rfl⟩ := h
  exact ⟨rfl, rfl, rfl, rfl⟩

/-- `t` has package DRAM, the mailboxes, the rest of the front end, and of receiver n the configuration in force, lock and the
last burst, as `s` has them. -/
structure KeepsReceiver (n : Fin 2) (s t : State) : Prop where
  dram : t.dram = s.dram
  mboxes : t.mboxes = s.mboxes
  tx : t.img.tx = s.img.tx
  trig : t.img.trig = s.img.trig
  others : ∀ k, k ≠ n → t.img.rx[k] = s.img.rx[k]
  cfg : t.img.rx[n].cfg = s.img.rx[n].cfg
  lock : t.img.rx[n].lock = s.img.rx[n].lock
  lastBurst : t.img.rx[n].lastBurst = s.img.rx[n].lastBurst

theorem KeepsReceiver.refl (n : Fin 2) (s : State) : KeepsReceiver n s s := ⟨rfl, rfl, rfl, rfl, fun _ _ => rfl, rfl, rfl, rfl⟩

theorem KeepsReceiver.trans (st : KeepsReceiver n s t) (tu : KeepsReceiver n t u) : KeepsReceiver n s u :=
  ⟨tu.dram.trans st.dram, tu.mboxes.trans st.mboxes, tu.tx.trans st.tx, tu.trig.trans st.trig,
    fun k other => (tu.others k other).trans (st.others k other), tu.cfg.trans st.cfg, tu.lock.trans st.lock,
    tu.lastBurst.trans st.lastBurst⟩

/-- Of a receiver: the configuration in force, lock and the last burst. -/
def standing (x : Rx) : RxCfg × Bool × Nat := (x.cfg, x.lock, x.lastBurst)

theorem RxBecomes.keepsReceiver {x : Rx} (h : RxBecomes n s t x) (kept : standing x = standing s.img.rx[n]) :
    KeepsReceiver n s t := by
  have rx := h.rx
  obtain ⟨cfg, lock, lastBurst⟩ : x.cfg = _ ∧ x.lock = _ ∧ x.lastBurst = _ := by simpa only [standing, Prod.mk.injEq] using kept
  obtain ⟨_, _, _, _, _, rfl⟩ := h
  exact ⟨rfl, rfl, rfl, rfl, fun k other => modRx_other s other _, by rw [rx, cfg], by rw [rx, lock], by rw [rx, lastBurst]⟩

/-! ### Errors and frames -/

/-- A receiver with a bit of IMG_RX_ERR set, and whether its frame's event has been written (R286). -/
def errSet (i : Nat) (seen : Bool) (x : Rx) : Rx := { x with err := x.err ||| (1#7 <<< i), errSeen := seen }

@[simp] theorem errSet_standing (i : Nat) (seen : Bool) (x : Rx) : standing (errSet i seen x) = standing x := rfl

@[simp] theorem errSet_row (i : Nat) (seen : Bool) (x : Rx) : (errSet i seen x).row = x.row := rfl

theorem errSet_err {i : Nat} (known : i < 7) (seen : Bool) (x : Rx) : (errSet i seen x).err.getLsbD i = true := by
  simp [errSet, known]

theorem rxErr_becomes (s : State) (n : Fin 2) (i : Nat) (ev : Bool) :
    ∃ seen, RxBecomes n s (s.rxErr n i ev) (errSet i seen s.img.rx[n]) := by
  have bitSet : RxBecomes n s _ (errSet i s.img.rx[n].errSeen s.img.rx[n]) :=
    (modRx_becomes s n (fun x => { x with err := x.err ||| (1#7 <<< i) })).reports (irqSync_onlyReports _)
  unfold State.rxErr
  dsimp only
  split
  · exact ⟨true, (bitSet.modRx (fun x => { x with errSeen := true })).reports (event_onlyReports _ _ _ _ _ _)⟩
  · exact ⟨_, bitSet⟩

/-- A receiver with another measured line period, and its frame's first row end known or not (R289). -/
def measured (period : W32) (first : Option (Nat × Nat)) (x : Rx) : Rx := { x with lineNs := period, firstEnd := first }

@[simp] theorem measured_standing (period : W32) (first : Option (Nat × Nat)) (x : Rx) :
    standing (measured period first x) = standing x := rfl

theorem measure_becomes (s : State) (n : Fin 2) :
    ∃ period first, RxBecomes n s (s.measure n) (measured period first s.img.rx[n]) := by
  unfold State.measure
  dsimp only
  split
  · exact ⟨_, _, becomes_self s n⟩
  · split
    · exact ⟨_, _, becomes_self s n⟩
    · split
      · exact ⟨_, _, (modRx_becomes s n _).reports (event_onlyReports _ _ _ _ _ _)⟩
      · exact ⟨_, _, modRx_becomes s n _⟩

theorem modFrame_keepsReceiver (s : State) (n : Fin 2) (f : FrameRec → FrameRec) : KeepsReceiver n s (s.modFrame n f) :=
  ⟨rfl, rfl, rfl, rfl, fun _ _ => rfl, rfl, rfl, rfl⟩

theorem modFrame_frames {f : FrameRec} {l : List FrameRec} (frames : s.img.frames[n] = f :: l) (g : FrameRec → FrameRec) :
    (s.modFrame n g).img.frames[n] = g f :: l := by
  refine (vmod_same s.img.frames n _).trans ?_
  rw [show s.img.frames[n.val] = f :: l from frames]

end Sys2Proof.Proofs
end

section
/-! SUPPORT. A row that ends no row-group: what its bands and the frame's record leave as they were (R287, R292 to R300). -/

namespace Sys2Proof.Proofs
open Sys2Proof.Machine Sys2Proof.Laws

variable {s t u : State} {n : Fin 2}

/-! ### The bands of a row -/

/-- `t` has the runs, the frames and, of receiver n, the row, the count of CRC errors and every error of `s`. -/
structure SameReception (n : Fin 2) (s t : State) : Prop extends KeepsReceiver n s t where
  frames : t.img.frames = s.img.frames
  sched : t.sched = { s.sched with src := t.sched.src }
  row : t.img.rx[n].row = s.img.rx[n].row
  crcCnt : t.img.rx[n].crcCnt = s.img.rx[n].crcCnt
  errors : ∀ i, s.img.rx[n].err.getLsbD i = true → t.img.rx[n].err.getLsbD i = true

theorem SameReception.refl (n : Fin 2) (s : State) : SameReception n s s := ⟨.refl n s, rfl, rfl, rfl, rfl, fun _ h => h⟩

theorem SameReception.trans (st : SameReception n s t) (tu : SameReception n t u) : SameReception n s u :=
  ⟨st.toKeepsReceiver.trans tu.toKeepsReceiver, tu.frames.trans st.frames, tu.sched.trans (by rw [st.sched]), tu.row.trans st.row,
    tu.crcCnt.trans st.crcCnt, fun i h => tu.errors i (st.errors i h)⟩

/-- Of a receiver: what stands of it, the row, the count of CRC errors and the errors. -/
def tally (x : Rx) : (RxCfg × Bool × Nat) × Nat × W32 × BitVec 7 := (standing x, x.row, x.crcCnt, x.err)

theorem modRx_sameReception (s : State) (n : Fin 2) (f : Rx → Rx) (kept : ∀ x, tally (f x) = tally x) :
    SameReception n s (s.modRx n f) := by
  obtain ⟨stands, row, crcCnt, err⟩ : standing (f s.img.rx[n]) = _ ∧ (f s.img.rx[n]).row = _ ∧ (f s.img.rx[n]).crcCnt = _ ∧
      (f s.img.rx[n]).err = _ := by simpa only [tally, Prod.mk.injEq] using kept s.img.rx[n]
  have becomes := modRx_becomes s n f
  exact ⟨becomes.keepsReceiver stands, rfl, rfl, by rw [becomes.rx, row], by rw [becomes.rx, crcCnt],
    fun i h => by rwa [becomes.rx, err]⟩

theorem rxErr_sameReception (s : State) (n : Fin 2) (i : Nat) (ev : Bool) : SameReception n s (s.rxErr n i ev) := by
  obtain ⟨seen, becomes⟩ := rxErr_becomes s n i ev
  obtain ⟨-, sched, -, frames⟩ := becomes.rest
  refine ⟨becomes.keepsReceiver (errSet_standing i seen _), frames, by rw [sched], by rw [becomes.rx, errSet_row],
    by rw [becomes.rx, errSet], fun j h => ?_⟩
  rw [becomes.rx, errSet, BitVec.getLsbD_or, h, Bool.true_or]

theorem clWrite_sameReception (s : State) (n : Fin 2) (c : Fin 4) (a : Nat) (data : List Byte) :
    SameReception n s (s.clWrite c a data) :=
  ⟨⟨rfl, rfl, rfl, rfl, fun _ _ => rfl, rfl, rfl, rfl⟩, rfl, rfl, rfl, rfl, fun _ h => h⟩

theorem foldl_sameReception {α : Type} {f : State → α → State} (step : ∀ s a, SameReception n s (f s a)) (l : List α)
    (s : State) : SameReception n s (l.foldl f s) :=
  foldl_frame (SameReception n) (.refl n) (fun _ _ _ => .trans) f step l s

/-- A plane row that goes to a cluster is written, held or discarded (R299, R300). -/
theorem bandRow_sameReception (s : State) (n : Fin 2) (y : Nat) (elems : List Nat) (c : Fin 4) :
    SameReception n s (s.bandRow n y elems c) := by
  have discarded : SameReception n s ((s.modRx n (fun x => { x with cut := c :: x.cut })).rxErr n 6 false) := by
    refine .trans ?_ (rxErr_sameReception _ n 6 false)
    exact modRx_sameReception s n _ fun _ => rfl
  unfold State.bandRow
  dsimp only
  split
  · exact discarded
  · split
    · exact foldl_sameReception (fun s (p : Nat × List Byte) => clWrite_sameReception s n c p.1 p.2) _ s
    · split
      · exact modRx_sameReception s n _ fun _ => rfl
      · exact discarded

/-! ### Rows of a group -/

/-- What makes a source one of a receiver, and the rows it counts. -/
def srcShape (x : TickSrc) : Nat × Nat × Nat := (x.kind, x.bind, x.count)

/-- The rows of a group follow from the shapes of the sources (R297). -/
theorem rowsPer_congr (shapes : ∀ k : Fin 16, srcShape t.sched.src[k] = srcShape s.sched.src[k]) (n : Fin 2) :
    t.rowsPer n = s.rowsPer n := by
  have kind (k : Fin 16) : t.sched.src[k].kind = s.sched.src[k].kind := congrArg Prod.fst (shapes k)
  have bound (k : Fin 16) : t.sched.src[k].bind = s.sched.src[k].bind := congrArg (fun p => p.2.1) (shapes k)
  have count (k : Fin 16) : t.sched.src[k].count = s.sched.src[k].count := congrArg (fun p => p.2.2) (shapes k)
  unfold State.rowsPer State.rowSources
  simp only [kind, bound, count]

/-- The row taken next by receiver n ends no row-group. -/
structure InsideGroup (s : State) (n : Fin 2) : Prop where
  inside : (s.img.rx[n].row / s.img.rx[n].cfg.perRow + 1) % s.rowsPer n ≠ 0
  notLast : s.img.rx[n].row / s.img.rx[n].cfg.perRow + 1 ≠ s.img.rx[n].cfg.planeH

theorem InsideGroup.congr (h : InsideGroup s n) (sched : t.sched = s.sched) (row : t.img.rx[n].row = s.img.rx[n].row)
    (cfg : t.img.rx[n].cfg = s.img.rx[n].cfg) : InsideGroup t n := by
  have rows : t.rowsPer n = s.rowsPer n := rowsPer_congr (fun k => by rw [sched]) n
  exact ⟨by rw [row, cfg, rows]; exact h.inside, by rw [row, cfg]; exact h.notLast⟩

/-! ### A prepared row -/

/-- Before a frame's first row no BLANK tick is owed any more (R21). -/
def frameBegun (s : State) (n : Fin 2) : State :=
  if s.img.rx[n].row = 0 then
    { s with
      sched := { s.sched with
        src := (s.rowSources n).foldl (fun v k => vmod v k (fun y => { y with blanks := 0 })) s.sched.src } }
  else s

theorem frameBegun_eq (s : State) (n : Fin 2) : ∃ src, frameBegun s n = { s with sched := { s.sched with src := src } } := by
  unfold frameBegun
  split
  · exact ⟨_, rfl⟩
  · exact ⟨s.sched.src, rfl⟩

theorem frameBegun_rowsPer (s : State) (n : Fin 2) : (frameBegun s n).rowsPer n = s.rowsPer n := by
  unfold frameBegun
  split
  · refine rowsPer_congr (fun k => ?_) n
    refine foldl_frame (fun v w : Vector TickSrc 16 => ∀ k : Fin 16, srcShape w[k] = srcShape v[k]) (fun _ _ => rfl)
      (fun _ _ _ vw wx k => (wx k).trans (vw k)) _ (fun v j k => ?_) _ _ k
    by_cases same : k = j
    · subst same
      have cleared := congrArg srcShape (vmod_same v k (fun y => { y with blanks := 0 }))
      exact cleared
    · exact congrArg srcShape (vmod_other v j k _ same)
  · rfl

/-- A receiver once it has prepared its row r. -/
def rowAdded (r : Nat) (vals : List Nat) (x : Rx) : Rx := { x with row := r + 1, prep := (vals :: x.prep).take 2 }

@[simp] theorem rowAdded_standing (r : Nat) (vals : List Nat) (x : Rx) : standing (rowAdded r vals x) = standing x := rfl

/-- A prepared row that ends no row-group goes to the bands, where it completes a plane row (R296, R298). -/
theorem prepared_insideGroup (h : InsideGroup s n) (vals : List Nat) (gen : Bool) :
    SameReception n (s.modRx n (rowAdded s.img.rx[n].row vals)) (s.prepared n vals gen) := by
  obtain ⟨src, begun⟩ := frameBegun_eq s n
  have begins : SameReception n (s.modRx n (rowAdded s.img.rx[n].row vals))
      ((frameBegun s n).modRx n (rowAdded s.img.rx[n].row vals)) := by
    rw [begun]
    exact ⟨⟨rfl, rfl, rfl, rfl, fun _ _ => rfl, rfl, rfl, rfl⟩, rfl, rfl, rfl, rfl, fun _ h => h⟩
  have inside : (s.img.rx[n].row / s.img.rx[n].cfg.perRow + 1) %
      ((frameBegun s n).modRx n (rowAdded s.img.rx[n].row vals)).rowsPer n ≠ 0 := by
    have rows : ((frameBegun s n).modRx n (rowAdded s.img.rx[n].row vals)).rowsPer n = s.rowsPer n := frameBegun_rowsPer s n
    rw [rows]
    exact h.inside
  have groupBegins (u : State) (first : Prop) [Decidable first] :
      SameReception n u (if first then u.modRx n (fun x => { x with cut := [] }) else u) := by
    split
    · exact modRx_sameReception u n _ fun _ => rfl
    · exact .refl n u
  unfold State.prepared
  dsimp only
  rw [← frameBegun]
  split
  · exact begins
  · split
    · exact begins.trans ((groupBegins _ _).trans (foldl_sameReception (fun s c => bandRow_sameReception s n _ _ c) _ _))
    · next ends =>
      refine (ends ?_).elim
      rw [decide_eq_false h.notLast, Bool.not_false, Bool.and_true]
      exact decide_eq_true inside

/-! ### Rows taken -/

/-- `t` has taken one row more of the frame in progress, whose records it then has; but for the sources' BLANK ticks no run has
changed, and no error of receiver n is lost. -/
structure RowTaken (n : Fin 2) (s t : State) (frames : List FrameRec) : Prop extends KeepsReceiver n s t where
  row : t.img.rx[n].row = s.img.rx[n].row + 1
  frames : t.img.frames[n] = frames
  sched : t.sched = { s.sched with src := t.sched.src }
  crcCnt : t.img.rx[n].crcCnt = s.img.rx[n].crcCnt
  errors : ∀ i, s.img.rx[n].err.getLsbD i = true → t.img.rx[n].err.getLsbD i = true

theorem SameReception.rowTaken {frames : List FrameRec} (st : SameReception n s t) (tu : RowTaken n t u frames) :
    RowTaken n s u frames :=
  ⟨st.toKeepsReceiver.trans tu.toKeepsReceiver, by rw [tu.row, st.row], tu.frames, tu.sched.trans (by rw [st.sched]),
    tu.crcCnt.trans st.crcCnt, fun i h => tu.errors i (st.errors i h)⟩

theorem prepared_takesRow (h : InsideGroup s n) (vals : List Nat) (gen : Bool) :
    RowTaken n s (s.prepared n vals gen) s.img.frames[n] := by
  have added := modRx_becomes s n (rowAdded s.img.rx[n].row vals)
  have same := prepared_insideGroup h vals gen
  exact ⟨(added.keepsReceiver (rowAdded_standing _ vals _)).trans same.toKeepsReceiver, same.row.trans (congrArg Rx.row added.rx),
    congrArg (fun v => v[n]) same.frames, same.sched, same.crcCnt.trans (by rw [added.rx]; rfl),
    fun i h => same.errors i (by rw [added.rx]; exact h)⟩

/-- A row enters the record of its frame and is prepared. -/
theorem modFrame_prepared_takesRow {f : FrameRec} {l : List FrameRec} (h : InsideGroup s n) (frames : s.img.frames[n] = f :: l)
    (g : FrameRec → FrameRec) (vals : List Nat) (gen : Bool) :
    RowTaken n s ((s.modFrame n g).prepared n vals gen) (g f :: l) := by
  obtain ⟨keeps, row, taken, sched, crcCnt, errors⟩ :=
    prepared_takesRow (s := s.modFrame n g) (h.congr rfl rfl rfl) vals gen
  exact ⟨(modFrame_keepsReceiver s n g).trans keeps, row, taken.trans (modFrame_frames frames g), sched, crcCnt, errors⟩

theorem SameReception.insideGroup (st : SameReception n s t) (sched : t.sched = s.sched) (h : InsideGroup s n) :
    InsideGroup t n :=
  h.congr sched st.row st.cfg

/-- A discarded, missing or generated row is replaced (R287). -/
theorem replaceRow_takesRow {f : FrameRec} {l : List FrameRec} (h : InsideGroup s n) (frames : s.img.frames[n] = f :: l)
    (gen : Bool) : RowTaken n s (s.replaceRow n gen) ({ f with replaced := f.replaced + 1 } :: l) := by
  have epoch : SameReception n s s.newEpoch.2 :=
    ⟨⟨rfl, rfl, rfl, rfl, fun _ _ => rfl, rfl, rfl, rfl⟩, rfl, rfl, rfl, rfl, fun _ h => h⟩
  have cleaned (clean : List Nat) :
      SameReception n s (s.newEpoch.2.modRx n (fun x => { x with cleaned := (clean :: x.cleaned).take 2 })) :=
    epoch.trans (modRx_sameReception _ n _ fun _ => rfl)
  exact (cleaned _).rowTaken (modFrame_prepared_takesRow ((cleaned _).insideGroup rfl h) frames _ _ gen)

/-- A row's histogram leaves all but the histogram as it was (R304). -/
theorem histRow_eq (x : Rx) (row : List (Nat × Bool)) :
    ∃ bins zones sat rows, x.histRow row = { x with bins := bins, zones := zones, sat := sat, histRows := rows } := by
  obtain ⟨bins, zones, sat, counted⟩ := foldl_frame
    (fun x y : Rx => ∃ bins zones sat, y = { x with bins := bins, zones := zones, sat := sat })
    (fun x => ⟨x.bins, x.zones, x.sat, rfl⟩)
    (by rintro _ _ _ ⟨_, _, _, rfl⟩ ⟨_, _, _, rfl⟩; exact ⟨_, _, _, rfl⟩) _ (fun x p => ⟨_, _, _, rfl⟩) row.zipIdx x
  unfold Rx.histRow
  dsimp only
  exact ⟨bins, zones, sat, _, by rw [counted]⟩

/-- A row received whole is a good one (R292 to R296, R304). -/
theorem receivedRow_takesRow {f : FrameRec} {l : List FrameRec} (h : InsideGroup s n) (frames : s.img.frames[n] = f :: l)
    (raw : List Nat) : RowTaken n s (s.receivedRow n raw) ({ f with good := f.good + 1 } :: l) := by
  have counted (vals : List (Nat × Bool)) (clean : List Nat) :
      SameReception n s (s.modRx n (fun x => { x.histRow vals with cleaned := (clean :: x.cleaned).take 2 })) := by
    refine modRx_sameReception s n _ fun x => ?_
    obtain ⟨bins, zones, sat, rows, e⟩ := histRow_eq x vals
    rw [e]
    rfl
  exact (counted _ _).rowTaken (modFrame_prepared_takesRow ((counted _ _).insideGroup rfl h) frames _ _ false)

end Sys2Proof.Proofs
end

section
/-! SUPPORT. CSI-2 packets (R285 to R291, R295, R322). -/

namespace Sys2Proof.Proofs
open Sys2Proof.Machine Sys2Proof.Laws

variable {s t : State} {n : Fin 2} {vc : BitVec 4}

/-! ### A packet arrives -/

/-- What a packet leaves as it was, beside what the burst sets. -/
def ReceptionKept (n : Fin 2) (s t : State) : Prop :=
  t.dram = s.dram ∧ t.mboxes = s.mboxes ∧ t.img.tx = s.img.tx ∧ t.img.trig = s.img.trig ∧
    (∀ k, k ≠ n → t.img.rx[k] = s.img.rx[k]) ∧ t.img.rx[n].cfg = s.img.rx[n].cfg ∧ t.img.rx[n].lock = true ∧
    t.img.rx[n].lastBurst = s.now

/-- A receiver once a burst has arrived at `now` (R322). -/
def burstSeen (now : Nat) (x : Rx) : Rx := { x with lock := true, lastBurst := now }

theorem burst_becomes (s : State) (n : Fin 2) : RxBecomes n s (s.burst n) (burstSeen s.now s.img.rx[n]) :=
  modRx_becomes s n (burstSeen s.now)

theorem burst_row (s : State) (n : Fin 2) : (s.burst n).img.rx[n].row = s.img.rx[n].row := by rw [(burst_becomes s n).rx]; rfl

theorem burst_cfg (s : State) (n : Fin 2) : (s.burst n).img.rx[n].cfg = s.img.rx[n].cfg := by rw [(burst_becomes s n).rx]; rfl

theorem kept_of_burst (h : KeepsReceiver n (s.burst n) t) : ReceptionKept n s t := by
  have rx := (burst_becomes s n).rx
  exact ⟨h.dram, h.mboxes, h.tx, h.trig, fun k other => (h.others k other).trans (modRx_other s other _),
    h.cfg.trans (burst_cfg s n), h.lock.trans (by rw [rx]; rfl), h.lastBurst.trans (by rw [rx]; rfl)⟩

theorem packet_on (on : s.rxOn n = true) (corr start : Bool) (f : State → State) : s.packet n vc corr start f =
    if s.active && decide (vc.toNat = s.img.rx[n].cfg.vc) then
      let u := f (if corr && !start then (s.burst n).rxErr n 0 true else s.burst n)
      if corr && start then u.rxErr n 0 true else u
    else s.burst n := by
  have active : (s.burst n).active = s.active := rfl
  unfold State.packet
  dsimp only
  rw [if_neg (by simp [on]), burst_cfg, active]

/-- A packet of another channel, or while the device does not run, sets lock alone (R285, R291, R322). -/
theorem packet_ignored (on : s.rxOn n = true) (ignored : vc.toNat ≠ s.img.rx[n].cfg.vc ∨ s.active = false)
    (corr start : Bool) (f : State → State) : s.packet n vc corr start f = s.burst n := by
  rw [packet_on on]
  refine if_neg fun taken => ?_
  obtain ⟨running, channel⟩ := Bool.and_eq_true_iff.1 taken
  rcases ignored with other | stopped
  · exact other (of_decide_eq_true channel)
  · exact Bool.false_ne_true (stopped.symm.trans running)

/-- The device runs and receiver n, whose PHY is on, is configured for the virtual channel; nothing waits to be settled. -/
structure Receives (s : State) (n : Fin 2) (vc : BitVec 4) : Prop where
  on : s.rxOn n = true
  noStop : s.noStop
  active : s.active = true
  channel : vc.toNat = s.img.rx[n].cfg.vc

theorem packet_sound (h : Receives s n vc) (start : Bool) (f : State → State) : s.packet n vc false start f = f (s.burst n) := by
  rw [packet_on h.on, h.active, decide_eq_true h.channel]
  rfl

theorem packet_corrected (h : Receives s n vc) (f : State → State) :
    s.packet n vc true false f = f ((s.burst n).rxErr n 0 true) := by
  rw [packet_on h.on, h.active, decide_eq_true h.channel]
  rfl

/-- A packet with a sound header that is ignored or discarded sets lock alone (R285, R322). -/
theorem packet_sound_nothing (on : s.rxOn n = true) (noStop : s.noStop) : s.packet n vc false false (fun s => s) = s.burst n := by
  by_cases taken : s.active = true ∧ vc.toNat = s.img.rx[n].cfg.vc
  · exact packet_sound ⟨on, noStop, taken.1, taken.2⟩ false _
  · refine packet_ignored on ?_ false false _
    rw [not_and_or, Bool.not_eq_true] at taken
    exact taken.symm

/-- Nothing waits to be settled where the mailboxes and the runs are as before. -/
theorem KeepsReceiver.settled (h : KeepsReceiver n (s.burst n) t) (noStop : s.noStop) (runs : t.sched.runs = s.sched.runs) :
    t.settleStop = t :=
  settleStop_of_noStop (noStop_of noStop h.mboxes (by rw [runs]; exact noStop.2))

theorem burst_settled (noStop : s.noStop) (n : Fin 2) : (s.burst n).settleStop = s.burst n :=
  (KeepsReceiver.refl n (s.burst n)).settled noStop rfl

/-! ### Line markers, embedded data, header errors -/

/-- A header corrected on the configured channel sets its bit (R286). -/
theorem corrected_reports (h : Receives s n vc) {c : Instr}
    (marker : c = .csiLineMarker n ⟨vc, true⟩ ∨ c = .csiEmbeddedData n ⟨vc, true⟩) :
    ∃ t, exec c s = .next t ∧ ReceptionKept n s t ∧ t.img.rx[n].err = s.img.rx[n].err ||| 1 ∧
      t.img.rx[n].row = s.img.rx[n].row ∧ t.clusters = s.clusters ∧ t.sched = s.sched := by
  have executed : exec c s = .next ((s.burst n).rxErr n 0 true) := by
    rcases marker with rfl | rfl <;> exact congrArg Host.Outcome.next (packet_corrected h _)
  obtain ⟨seen, becomes⟩ := rxErr_becomes (s.burst n) n 0 true
  obtain ⟨clusters, sched, -⟩ := becomes.rest
  have rx := becomes.rx
  have keeps := becomes.keepsReceiver (by simp)
  rw [(burst_becomes s n).rx] at rx
  exact ⟨_, executed, kept_of_burst keeps, by rw [rx]; rfl, by rw [rx]; rfl, clusters, sched⟩

/-- A packet discarded for its header, which carried no row, sets its bit (R286). -/
theorem headerUncorrectableError_reports (on : s.rxOn n = true) (active : s.active = true) :
    ∃ t, exec (.headerUncorrectableError n false) s = .next t ∧ ReceptionKept n s t ∧ t.img.rx[n].err.getLsbD 1 = true ∧
      t.img.rx[n].row = s.img.rx[n].row ∧ t.clusters = s.clusters ∧ t.sched = s.sched := by
  have running : (s.burst n).active = s.active := rfl
  have executed : exec (.headerUncorrectableError n false) s = .next ((s.burst n).rxErr n 1 true) := by
    change execHeaderUncorrectableError n false s = _
    unfold execHeaderUncorrectableError
    dsimp only
    rw [if_neg (by simp [on]), if_neg (by simp [running, active])]
    rfl
  obtain ⟨seen, becomes⟩ := rxErr_becomes (s.burst n) n 1 true
  obtain ⟨clusters, sched, -⟩ := becomes.rest
  have rx := becomes.rx
  have keeps := becomes.keepsReceiver (by simp)
  rw [(burst_becomes s n).rx] at rx
  exact ⟨_, executed, kept_of_burst keeps, by rw [rx]; exact errSet_err (by decide) seen _, by rw [rx]; rfl, clusters, sched⟩

/-! ### Frames -/

/-- A receiver at the start of a frame, with the tables and black levels that wait for it (R287, R295). -/
def frameStarted (systime : W64) (x : Rx) : Rx :=
  { x with
    frame := if x.seen then x.frame + 1 else 0, seen := true, inFrame := true, ended := false, row := 0, sof := systime,
    prep := [], cleaned := [], bins := [], zones := [], sat := 0, histRows := 0, errSeen := false, firstEnd := none, gen := none,
    cut := [], tables := x.tablesNext.getD x.tables, tablesNext := none, black := x.blackNext.getD x.black, blackNext := none }

@[simp] theorem frameStarted_standing (systime : W64) (x : Rx) : standing (frameStarted systime x) = standing x := rfl

/-- A Frame Start with no frame in progress changes the receiver, the frames' records and the late mark of the triggers. -/
theorem frameStart_eq (idle : s.img.rx[n].inFrame = false) : ∃ frames late, s.frameStart n =
    { s.modRx n (frameStarted s.dev.systime) with
      img := { (s.modRx n (frameStarted s.dev.systime)).img with frames := frames, trigLate := late } } := by
  unfold State.frameStart
  rw [if_neg (by rw [idle]; decide)]
  exact ⟨_, _, rfl⟩

/-- A Frame Start with no frame in progress opens the next frame (R286, R287, R295). -/
theorem csiFrameStart_opens (h : Receives s n vc) (idle : s.img.rx[n].inFrame = false) :
    ∃ t, exec (.csiFrameStart n vc false) s = .next t ∧ ReceptionKept n s t ∧ t.clusters = s.clusters ∧
      t.sched = s.sched ∧ t.img.rx[n].inFrame = true ∧ t.img.rx[n].row = 0 ∧ t.img.rx[n].sof = s.dev.systime ∧
      t.img.rx[n].frame = (if s.img.rx[n].seen then s.img.rx[n].frame + 1 else 0) ∧
      t.img.rx[n].tables = s.img.rx[n].tablesNext.getD s.img.rx[n].tables ∧
      t.img.rx[n].black = s.img.rx[n].blackNext.getD s.img.rx[n].black := by
  have rx := (burst_becomes s n).rx
  obtain ⟨frames, late, started⟩ := frameStart_eq (s := s.burst n) (n := n) (by rw [rx]; exact idle)
  have becomes := modRx_becomes (s.burst n) n (frameStarted s.dev.systime)
  have keeps : KeepsReceiver n (s.burst n) ((s.burst n).frameStart n) := by
    obtain ⟨dram, mboxes, tx, trig, others, cfg, lock, lastBurst⟩ := becomes.keepsReceiver (by simp)
    rw [started]
    exact ⟨dram, mboxes, tx, trig, others, cfg, lock, lastBurst⟩
  have opened : ((s.burst n).frameStart n).img.rx[n] = frameStarted s.dev.systime (burstSeen s.now s.img.rx[n]) := by
    rw [started, ← rx]
    exact becomes.rx
  have sched : ((s.burst n).frameStart n).sched = s.sched := by rw [started]; rfl
  have executed : exec (.csiFrameStart n vc false) s = .next ((s.burst n).frameStart n) := by
    change Host.Outcome.next (s.packet n vc false true (fun s => s.frameStart n)).settleStop = _
    rw [packet_sound h, keeps.settled h.noStop (by rw [sched])]
  exact ⟨_, executed, kept_of_burst keeps, by rw [started]; rfl, sched, by rw [opened]; rfl, by rw [opened]; rfl,
    by rw [opened]; rfl, by rw [opened]; rfl, by rw [opened]; rfl, by rw [opened]; rfl⟩

/-- A frame is in progress, and its Frame End has not come. -/
structure FrameGoing (s : State) (n : Fin 2) : Prop where
  inFrame : s.img.rx[n].inFrame = true
  going : s.img.rx[n].ended = false

theorem FrameGoing.burst (h : FrameGoing s n) : FrameGoing (s.burst n) n := by
  have rx := (burst_becomes s n).rx
  exact ⟨by rw [rx]; exact h.inFrame, by rw [rx]; exact h.going⟩

theorem FrameGoing.not_over (h : FrameGoing s n) : ¬ (!s.img.rx[n].inFrame || s.img.rx[n].ended) = true := by
  rw [h.inFrame, h.going]
  decide

/-- A receiver whose frame has ended for good. -/
def frameEnded (x : Rx) : Rx := { x with inFrame := false, ended := false, gen := none, firstEnd := none }

@[simp] theorem frameEnded_standing (x : Rx) : standing (frameEnded x) = standing x := rfl

theorem endFrame_becomes (s : State) (n : Fin 2) :
    ∃ period first, RxBecomes n s (s.endFrame n) (frameEnded (measured period first s.img.rx[n])) := by
  obtain ⟨period, first, becomes⟩ := measure_becomes s n
  exact ⟨period, first, becomes.modRx frameEnded⟩

/-- A Frame End after the last row closes the frame (R286, R289). -/
theorem csiFrameEnd_closes (h : Receives s n vc) (frame : FrameGoing s n) (whole : s.img.rx[n].cfg.height ≤ s.img.rx[n].row) :
    ∃ t, exec (.csiFrameEnd n vc false) s = .next t ∧ ReceptionKept n s t ∧ t.clusters = s.clusters ∧
      t.img.rx[n].inFrame = false ∧ t.img.rx[n].row = s.img.rx[n].row := by
  have executed : exec (.csiFrameEnd n vc false) s = .next ((s.burst n).endFrame n) := by
    change execCsiFrameEnd n vc false s = _
    unfold execCsiFrameEnd
    rw [packet_sound h]
    dsimp only
    rw [if_neg frame.burst.not_over, if_pos (by rwa [burst_cfg, burst_row])]
  obtain ⟨period, first, becomes⟩ := endFrame_becomes (s.burst n) n
  have rx := becomes.rx
  exact ⟨_, executed, kept_of_burst (becomes.keepsReceiver (by simp)), becomes.rest.1, by rw [rx]; rfl,
    by rw [rx]; exact burst_row s n⟩

/-- The record of a frame that is short of rows. -/
def cutShort (f : FrameRec) : FrameRec := { f with short := true }

/-- A receiver whose frame's Frame End came early, with the time of its next generated row (R287). -/
def endedEarly (due : Nat) (x : Rx) : Rx := { x with ended := true, gen := some (due + x.cfg.linePs) }

@[simp] theorem endedEarly_standing (due : Nat) (x : Rx) : standing (endedEarly due x) = standing x := rfl

/-- An early Frame End starts the generation of the rows that are missing (R286, R287). -/
theorem csiFrameEnd_generates (h : Receives s n vc) (frame : FrameGoing s n) (early : s.img.rx[n].row < s.img.rx[n].cfg.height)
    {f : FrameRec} {l : List FrameRec} (frames : s.img.frames[n] = f :: l) :
    ∃ t, exec (.csiFrameEnd n vc false) s = .next t ∧ ReceptionKept n s t ∧ t.clusters = s.clusters ∧
      t.img.rx[n].ended = true ∧ t.img.rx[n].err.getLsbD 4 = true ∧ t.img.rx[n].gen.isSome = true ∧
      t.img.frames[n] = { f with short := true } :: l := by
  have executed : ∃ due, exec (.csiFrameEnd n vc false) s =
      .next (((((s.burst n).modFrame n cutShort).rxErr n 4 true).measure n).modRx n (endedEarly due)) := by
    change ∃ due, execCsiFrameEnd n vc false s = _
    unfold execCsiFrameEnd
    rw [packet_sound h]
    dsimp only
    rw [if_neg frame.burst.not_over, if_neg (by rw [burst_cfg, burst_row]; exact not_le.2 early)]
    exact ⟨_, rfl⟩
  obtain ⟨due, executed⟩ := executed
  obtain ⟨seen, errorSet⟩ := rxErr_becomes ((s.burst n).modFrame n cutShort) n 4 true
  obtain ⟨period, first, measuring⟩ := measure_becomes (((s.burst n).modFrame n cutShort).rxErr n 4 true) n
  rw [errorSet.rx] at measuring
  have becomes := (errorSet.trans measuring).modRx (endedEarly due)
  obtain ⟨clusters, -, -, recorded⟩ := becomes.rest
  have keeps := (modFrame_keepsReceiver (s.burst n) n cutShort).trans (becomes.keepsReceiver (by simp))
  have rx := becomes.rx
  refine ⟨_, executed, kept_of_burst keeps, clusters, by rw [rx]; rfl, ?_, by rw [rx]; rfl, ?_⟩
  · rw [rx]
    exact errSet_err (by decide) seen _
  · rw [recorded]
    exact modFrame_frames frames cutShort

/-! ### Long packets -/

theorem exec_csiLongPacket (h : Receives s n vc) (dt : Byte) (ok : Bool) (px : List W16) :
    exec (.csiLongPacket n vc dt false ok px) s = .next ((s.burst n).longPacket n dt ok px).settleStop :=
  congrArg (fun t : State => Host.Outcome.next t.settleStop) (packet_sound h false _)

/-- A long packet of another data type is no row (R286). -/
theorem csiLongPacket_otherType (h : Receives s n vc) {dt : Byte} (other : dt.toNat ≠ s.img.rx[n].cfg.dt) (px : List W16) :
    ∃ t, exec (.csiLongPacket n vc dt false true px) s = .next t ∧ ReceptionKept n s t ∧
      t.img.rx[n].err.getLsbD 3 = true ∧ t.img.rx[n].row = s.img.rx[n].row ∧ t.clusters = s.clusters := by
  have taken : (s.burst n).longPacket n dt true px = (s.burst n).rxErr n 3 true := by
    unfold State.longPacket
    exact if_pos (by rwa [burst_cfg])
  obtain ⟨seen, becomes⟩ := rxErr_becomes (s.burst n) n 3 true
  obtain ⟨clusters, sched, -⟩ := becomes.rest
  have keeps := becomes.keepsReceiver (by simp)
  have rx := becomes.rx
  have executed := exec_csiLongPacket h dt true px
  rw [taken, keeps.settled h.noStop (by rw [sched]; rfl)] at executed
  exact ⟨_, executed, kept_of_burst keeps, by rw [rx]; exact errSet_err (by decide) seen _,
    by rw [rx, errSet_row, burst_row], clusters⟩

/-- The row a long packet of the configured type carries is one of the frame in progress. -/
structure RowExpected (s : State) (n : Fin 2) : Prop extends FrameGoing s n, InsideGroup s n where
  more : s.img.rx[n].row < s.img.rx[n].cfg.height

theorem RowExpected.burst (h : RowExpected s n) : RowExpected (s.burst n) n :=
  ⟨h.toFrameGoing.burst, h.toInsideGroup.congr rfl (burst_row s n) (burst_cfg s n), by rw [burst_row, burst_cfg]; exact h.more⟩

/-- A receiver at the end of a row (R289). -/
def rowEnded (now : Nat) (x : Rx) : Rx := { x with firstEnd := some (x.firstEnd.getD (x.row, now)), lastEnd := (x.row, now) }

@[simp] theorem rowEnded_standing (now : Nat) (x : Rx) : standing (rowEnded now x) = standing x := rfl

theorem rowEnd_becomes (s : State) (n : Fin 2) : RxBecomes n s (s.rowEnd n) (rowEnded s.now s.img.rx[n]) :=
  modRx_becomes s n (rowEnded s.now)

theorem rowEnd_sameReception (s : State) (n : Fin 2) : SameReception n s (s.rowEnd n) :=
  modRx_sameReception s n _ fun _ => rfl

/-- A receiver with a CRC error counted. -/
def crcCounted (x : Rx) : Rx := { x with crcCnt := x.crcCnt + 1 }

@[simp] theorem crcCounted_standing (x : Rx) : standing (crcCounted x) = standing x := rfl

/-- A long packet of the configured type is a row received whole, or one with a CRC error, which is replaced (R286, R287). -/
theorem longPacket_row (h : RowExpected s n) (known : s.img.rx[n].cfg.dt < 256) (ok : Bool) (px : List W16) :
    s.longPacket n (BitVec.ofNat 8 s.img.rx[n].cfg.dt) ok px =
      if !ok || px.length ≠ s.img.rx[n].cfg.width then
        (((s.rowEnd n).modRx n crcCounted).rxErr n 2 true).replaceRow n false
      else (s.rowEnd n).receivedRow n (px.map (fun p => p.toNat % 2 ^ rawBits s.img.rx[n].cfg.dt)) := by
  have same : (BitVec.ofNat 8 s.img.rx[n].cfg.dt).toNat = s.img.rx[n].cfg.dt := Nat.mod_eq_of_lt known
  unfold State.longPacket
  dsimp only
  rw [if_neg (not_not.2 same), if_neg h.not_over, if_neg (not_le.2 h.more)]
  rfl

/-- What a row of the frame in progress changes, beside the receiver's kept parts. -/
def RowCounted (n : Fin 2) (s t : State) (frames : List FrameRec) : Prop :=
  ReceptionKept n s t ∧ t.img.rx[n].row = s.img.rx[n].row + 1 ∧ t.img.frames[n] = frames ∧
    t.sched = { s.sched with src := t.sched.src }

theorem RowTaken.counted {frames : List FrameRec} (h : RowTaken n (s.burst n) t frames) : RowCounted n s t frames :=
  ⟨kept_of_burst h.toKeepsReceiver, by rw [h.row, burst_row], h.frames, h.sched⟩

theorem RowTaken.settled {frames : List FrameRec} (h : RowTaken n (s.burst n) t frames) (noStop : s.noStop) : t.settleStop = t :=
  h.toKeepsReceiver.settled noStop (by rw [h.sched]; rfl)

section
variable (h : Receives s n vc) (row : RowExpected s n) (known : s.img.rx[n].cfg.dt < 256) {f : FrameRec} {l : List FrameRec}
  (frames : s.img.frames[n] = f :: l) (px : List W16)
include h row known frames

/-- A row received whole counts as good (R286). -/
theorem csiLongPacket_good (whole : px.length = s.img.rx[n].cfg.width) :
    ∃ t, exec (.csiLongPacket n vc (BitVec.ofNat 8 s.img.rx[n].cfg.dt) false true px) s = .next t ∧
      RowCounted n s t ({ f with good := f.good + 1 } :: l) := by
  have packet := longPacket_row row.burst (by rwa [burst_cfg]) true px
  rw [burst_cfg, if_neg (by simp [whole])] at packet
  have ended := rowEnd_sameReception (s.burst n) n
  have taken := ended.rowTaken (receivedRow_takesRow (ended.insideGroup rfl row.burst.toInsideGroup) frames
    (px.map (fun p => p.toNat % 2 ^ rawBits s.img.rx[n].cfg.dt)))
  have executed := exec_csiLongPacket h (BitVec.ofNat 8 s.img.rx[n].cfg.dt) true px
  rw [packet, taken.settled h.noStop] at executed
  exact ⟨_, executed, taken.counted⟩

/-- A row with a CRC error is replaced, and counted (R286, R287). -/
theorem csiLongPacket_crcError :
    ∃ t, exec (.csiLongPacket n vc (BitVec.ofNat 8 s.img.rx[n].cfg.dt) false false px) s = .next t ∧
      RowCounted n s t ({ f with replaced := f.replaced + 1 } :: l) ∧ t.img.rx[n].err.getLsbD 2 = true ∧
      t.img.rx[n].crcCnt = s.img.rx[n].crcCnt + 1 := by
  have packet := longPacket_row row.burst (by rwa [burst_cfg]) false px
  rw [burst_cfg, if_pos (by simp)] at packet
  have counted := (rowEnd_becomes (s.burst n) n).modRx crcCounted
  obtain ⟨seen, errorSet⟩ := rxErr_becomes (((s.burst n).rowEnd n).modRx n crcCounted) n 2 true
  rw [counted.rx] at errorSet
  have becomes := counted.trans errorSet
  obtain ⟨-, sched, -, recorded⟩ := becomes.rest
  have rx := becomes.rx
  have inside := row.burst.toInsideGroup.congr sched (by rw [rx, errSet, crcCounted, rowEnded])
    (by rw [rx, errSet, crcCounted, rowEnded])
  have taken := replaceRow_takesRow inside (by rw [recorded]; exact frames) false
  have keeps := (becomes.keepsReceiver (by simp)).trans taken.toKeepsReceiver
  have runs := taken.sched
  rw [sched] at runs
  have executed := exec_csiLongPacket h (BitVec.ofNat 8 s.img.rx[n].cfg.dt) false px
  rw [packet, keeps.settled h.noStop (by rw [runs]; rfl)] at executed
  refine ⟨_, executed, ⟨kept_of_burst keeps, ?_, taken.frames, runs⟩, taken.errors 2 ?_, ?_⟩
  · rw [taken.row, rx, errSet, crcCounted, rowEnded, burst_row]
  · rw [rx]
    exact errSet_err (by decide) seen _
  · rw [taken.crcCnt, rx, errSet, crcCounted, rowEnded, (burst_becomes s n).rx, burstSeen]

end

end Sys2Proof.Proofs
end

section
/-! The obligation of sensor packets. -/

namespace Sys2Proof.Proofs
open Sys2Proof.Machine Sys2Proof.Laws

/-- Settles O33: each packet by what receiver n becomes after its burst; a row by what its bands and its frame's record leave. -/
theorem sensorPacketsAreTaken : Obligations.SensorPacketsAreTaken := by
  intro s n vc on noStop x lit kept
  have sound := packet_sound_nothing (vc := vc) on noStop
  refine ⟨⟨_, congrArg Host.Outcome.next sound, rfl⟩, ⟨_, congrArg Host.Outcome.next sound, rfl⟩,
    fun active channel c marker => corrected_reports ⟨on, noStop, active, channel⟩ marker, fun ignored dt crc px => ?ignored,
    fun active channel => ?taken, headerUncorrectableError_reports on⟩
  case ignored =>
    have lone (start : Bool) (f : State → State) := packet_ignored on ignored false start f
    have settled (start : Bool) (f : State → State) : (s.packet n vc false start f).settleStop = s.burst n := by
      rw [lone, burst_settled noStop]
    exact ⟨⟨_, congrArg Host.Outcome.next (settled true _), rfl⟩, ⟨_, congrArg Host.Outcome.next (lone false _), rfl⟩,
      _, congrArg Host.Outcome.next (settled false _), rfl⟩
  case taken =>
    have receives : Receives s n vc := ⟨on, noStop, active, channel⟩
    refine ⟨csiFrameStart_opens receives, fun inFrame going => ?_,
      fun dt px other => csiLongPacket_otherType receives other px⟩
    have frame : FrameGoing s n := ⟨inFrame, going⟩
    refine ⟨csiFrameEnd_closes receives frame, fun f l early frames => csiFrameEnd_generates receives frame early frames, ?_⟩
    intro f l px y row frames more inside notLast
    have expected : RowExpected s n := ⟨frame, ⟨inside, notLast⟩, more⟩
    refine ⟨fun whole => ?_, fun known => csiLongPacket_crcError receives expected known frames px⟩
    by_cases known : x.cfg.dt < 256
    · obtain ⟨t, executed, counted⟩ := csiLongPacket_good receives expected known frames px whole
      exact ⟨t, executed, fun _ => counted⟩
    · exact ⟨_, rfl, fun known' => absurd known' known⟩

end Sys2Proof.Proofs
end

section
/-! SUPPORT. Generated rows, held rows, the loss of lock, triggers and the reference latch (R287, R299, R302, R322). -/

namespace Sys2Proof.Proofs
open Sys2Proof.Machine Sys2Proof.Laws

variable {s t : State} {n : Fin 2}

/-! ### Generated rows -/

/-- A receiver whose next generated row is due a line period after a time (R287). -/
def generatesAfter (last : Nat) (x : Rx) : Rx := { x with gen := some (last + x.cfg.linePs) }

/-- A due generated row that ends no row-group is a replaced row, and sets the time of the next (R287). -/
theorem generatedRow_replaces (on : s.rxOn n = true) (noStop : s.noStop) {u : Nat} (gen : s.img.rx[n].gen = some u)
    (active : s.active = true) (due : u ≤ s.now * 1000) {f : FrameRec} {l : List FrameRec} (frames : s.img.frames[n] = f :: l)
    (more : s.img.rx[n].row + 1 < s.img.rx[n].cfg.height) (inside : InsideGroup s n) :
    ∃ t, exec (.generatedRow n) s = .next t ∧ t.img.rx[n].row = s.img.rx[n].row + 1 ∧
      t.img.rx[n].gen = some (u + s.img.rx[n].cfg.linePs) ∧ t.img.frames[n] = { f with replaced := f.replaced + 1 } :: l ∧
      t.dram = s.dram ∧ ∀ k, k ≠ n → t.img.rx[k] = s.img.rx[k] := by
  have taken := replaceRow_takesRow inside frames true
  have next := modRx_becomes (s.replaceRow n true) n (generatesAfter u)
  have settled : ((s.replaceRow n true).modRx n (generatesAfter u)).settleStop = _ :=
    settleStop_of_noStop (noStop_of noStop taken.mboxes (by
      have runs : (s.replaceRow n true).sched.runs = s.sched.runs := by rw [taken.sched]
      exact runs ▸ noStop.2))
  have executed : exec (.generatedRow n) s = .next ((s.replaceRow n true).modRx n (generatesAfter u)) := by
    change execGeneratedRow n s = _
    unfold execGeneratedRow
    rw [gen]
    dsimp only
    rw [if_neg (not_not.2 ⟨on, active, due⟩), if_neg (by rw [taken.cfg, taken.row]; exact not_le.2 more)]
    exact congrArg Host.Outcome.next settled
  exact ⟨_, executed, by rw [next.rx]; exact taken.row, by rw [next.rx, ← taken.cfg]; rfl, taken.frames, taken.dram,
    fun k other => (modRx_other _ other _).trans (taken.others k other)⟩

/-! ### Held rows -/

/-- A receiver without a held row. -/
def withoutHeld (h : HeldRow) (x : Rx) : Rx := { x with held := x.held.erase h }

/-- The row held for a cluster that is up goes to its slot, which is free; no tick waits (R299). -/
theorem exec_heldBandsWrite (on : s.rxOn n = true) (noStop : s.noStop) {h : HeldRow} {off : Nat} {data : List Byte}
    (held : s.img.rx[n].held = [h]) (ticks : s.img.rx[n].heldTicks = []) (writes : h.writes = [(off, data)])
    (up : s.clusterUp h.c = true) (free : s.slotHeld n h.c (h.row / s.rowsPer n % s.img.rx[n].cfg.slots) = false) :
    exec (.heldBandsWrite n h.c) s = .next ((s.modRx n (withoutHeld h)).clWrite h.c off data) := by
  have noTicks : ((s.modRx n (withoutHeld h)).clWrite h.c off data).img.rx[n].heldTicks = [] :=
    (congrArg Rx.heldTicks (modRx_same s n (withoutHeld h))).trans ticks
  have noneFreed : State.freeTicks n ((s.modRx n (withoutHeld h)).clWrite h.c off data).img.rx[n].heldTicks.length
      ((s.modRx n (withoutHeld h)).clWrite h.c off data) = (s.modRx n (withoutHeld h)).clWrite h.c off data := by
    rw [noTicks]
    rfl
  have written : State.writeHeld n h.c s.img.rx[n].held.length s = (s.modRx n (withoutHeld h)).clWrite h.c off data := by
    have found : s.img.rx[n].held.find? (fun x => x.c = h.c) = some h := by
      rw [held]
      exact List.find?_cons_of_pos (decide_eq_true rfl)
    rw [show s.img.rx[n].held.length = 1 by rw [held]; rfl, State.writeHeld]
    dsimp only
    rw [found]
    dsimp only
    rw [if_neg (by simp [up]), if_neg (by rw [free]; decide), writes]
    exact noneFreed
  change execHeldBandsWrite n h.c s = _
  unfold execHeldBandsWrite
  dsimp only
  rw [if_neg (by simp [on]), written, noneFreed]
  exact congrArg Host.Outcome.next (settleStop_of_noStop (noStop_of noStop rfl noStop.2))

/-- The held row is then in its slot, and no other byte of cluster memory has changed. -/
theorem heldBandsWrite_writes (on : s.rxOn n = true) (noStop : s.noStop) {h : HeldRow} {off : Nat} {data : List Byte}
    (held : s.img.rx[n].held = [h]) (ticks : s.img.rx[n].heldTicks = []) (writes : h.writes = [(off, data)])
    (up : s.clusterUp h.c = true) (free : s.slotHeld n h.c (h.row / s.rowsPer n % s.img.rx[n].cfg.slots) = false)
    (canonical : s.clusters[h.c].mem.wf = true) :
    ∃ t, exec (.heldBandsWrite n h.c) s = .next t ∧ t.img.rx[n] = { s.img.rx[n] with held := [] } ∧
      t.clusters[h.c].mem.readBytes off data.length = data ∧
      (∀ a, a < off ∨ off + data.length ≤ a → t.clusters[h.c].mem.read a = s.clusters[h.c].mem.read a) ∧
      (∀ d, d ≠ h.c → t.clusters[d].mem = s.clusters[d].mem) ∧ t = { s with img := t.img, clusters := t.clusters } := by
  have memory : ((s.modRx n (withoutHeld h)).clWrite h.c off data).clusters[h.c].mem = s.clusters[h.c].mem.writeBytes off data :=
    congrArg Cluster.mem (vmod_same s.clusters h.c _)
  have dropped : withoutHeld h s.img.rx[n] = { s.img.rx[n] with held := [] } := by
    unfold withoutHeld
    rw [held, List.erase_cons_head]
  refine ⟨_, exec_heldBandsWrite on noStop held ticks writes up free, (modRx_same s n (withoutHeld h)).trans dropped, ?_,
    fun a outside => ?_, fun d other => congrArg Cluster.mem (vmod_other s.clusters h.c d _ other), rfl⟩
  · rw [memory]
    exact readBytes_writeBytes data _ off canonical
  · rw [memory]
    exact read_writeBytes_out data _ off a canonical outside

/-! ### Lock, triggers, the reference latch -/

theorem exec_rxLockLoss (on : s.rxOn n = true) (lock : s.img.rx[n].lock = true)
    (silent : s.img.rx[n].lastBurst * 1000 + s.img.rx[n].cfg.lines * s.img.rx[n].cfg.linePs ≤ s.now * 1000) :
    exec (.rxLockLoss n) s = .next (s.modRx n (fun x => { x with lock := false })) := by
  change execRxLockLoss n s = _
  unfold execRxLockLoss
  exact congrArg Host.Outcome.next (if_pos (by rw [on, lock, decide_eq_true silent]; rfl))

section
variable {m : Fin 2} {a b : Nat} {rest : List (Nat × Nat)} (pulses : s.img.trig[m].pulses = (a, b) :: rest)
include pulses

/-- A trigger goes active at its pulse's start (R302). -/
theorem triggerAssert_asserts (on : s.on 4 = true) (idle : s.img.trig[m].active = false) (due : a ≤ s.now) :
    ∃ t, exec (.triggerAssert m) s = .next t ∧ t = { s with img := { s.img with trig := t.img.trig } } ∧
      t.img.trig[m] = ⟨true, (a, b) :: rest⟩ ∧ ∀ k, k ≠ m → t.img.trig[k] = s.img.trig[k] := by
  have executed : exec (.triggerAssert m) s =
      .next { s with img := { s.img with trig := vset s.img.trig m { s.img.trig[m] with active := true } } } := by
    change execTriggerAssert m s = _
    unfold execTriggerAssert
    dsimp only
    rw [if_pos (by rw [on, idle, pulses]; exact decide_eq_true due)]
  refine ⟨_, executed, rfl, (vset_same _ _ _).trans ?_, fun k other => vset_other _ _ _ _ other⟩
  rw [← pulses]

/-- A trigger returns at its pulse's end (R302). -/
theorem triggerDeassert_returns (active : s.img.trig[m].active = true) (due : b ≤ s.now) :
    ∃ t, exec (.triggerDeassert m) s = .next t ∧ t = { s with img := { s.img with trig := t.img.trig } } ∧
      t.img.trig[m] = ⟨false, rest⟩ ∧ ∀ k, k ≠ m → t.img.trig[k] = s.img.trig[k] := by
  have executed : exec (.triggerDeassert m) s =
      .next { s with img := { s.img with trig := vset s.img.trig m ⟨false, rest⟩ } } := by
    change execTriggerDeassert m s = _
    unfold execTriggerDeassert
    dsimp only
    rw [if_pos (by rw [active, pulses]; exact decide_eq_true due), pulses]
    rfl
  exact ⟨_, executed, rfl, vset_same _ _ _, fun k other => vset_other _ _ _ _ other⟩

end

theorem exec_imgRefTimeLoRead (on : s.on 4 = true) :
    exec .imgRefTimeLoRead s = .next { s with img := { s.img with refLatch := (s.img.ref >>> 32).setWidth 32 } } :=
  congrArg Host.Outcome.next (if_pos on)

end Sys2Proof.Proofs
end

section
/-! The obligation of rows, triggers and lock. -/

namespace Sys2Proof.Proofs
open Sys2Proof.Machine Sys2Proof.Laws

/-- Settles O34: a generated row by what a row's bands leave, a held row by the laws of sparse memory, the rest by one element of
the front end each. -/
theorem rowsTriggersAndLock : Obligations.RowsTriggersAndLock := by
  refine ⟨fun s n on noStop => ⟨?generated, ?held, fun lock silent => ?lost⟩,
    fun s on => ⟨fun m a b rest pulses => ⟨triggerAssert_asserts pulses on, triggerDeassert_returns pulses⟩,
      exec_imgRefTimeLoRead on⟩⟩
  case generated =>
    intro u f l y gen active due frames more inside notLast
    exact generatedRow_replaces on noStop gen active due frames more ⟨inside, notLast⟩
  case held => exact fun h off data held ticks writes up free canonical =>
    heldBandsWrite_writes on noStop held ticks writes up free canonical
  case lost => exact ⟨_, exec_rxLockLoss on lock silent, rfl, congrArg Rx.lock (modRx_same s n _)⟩

end Sys2Proof.Proofs
end

section
/-! SUPPORT. Output row-groups, rows and frames (R306 to R312). -/

namespace Sys2Proof.Proofs
open Sys2Proof.Machine Sys2Proof.Laws

variable {s t u : State} {n : Fin 2}

/-! ### One transmitter becomes another -/

/-- Transmitter n becomes `y`, and beside interrupts nothing else changes. -/
def TxBecomes (n : Fin 2) (s t : State) (y : Tx) : Prop := ∃ p g, t = { s.modTx n (fun _ => y) with pcie := p, glb := g }

theorem TxBecomes.tx {y : Tx} (h : TxBecomes n s t y) : t.img.tx[n] = y := by
  obtain ⟨_, _, rfl⟩ := h
  exact vmod_same _ _ _

theorem modTx_becomes (s : State) (n : Fin 2) (f : Tx → Tx) : TxBecomes n s (s.modTx n f) (f s.img.tx[n]) := ⟨s.pcie, s.glb, rfl⟩

theorem TxBecomes.trans {x y : Tx} (st : TxBecomes n s t x) (tu : TxBecomes n t u y) : TxBecomes n s u y := by
  obtain ⟨_, _, rfl⟩ := st
  obtain ⟨p, g, rfl⟩ := tu
  refine ⟨p, g, ?_⟩
  simp [State.modTx, vmod, vset]

theorem txErr_becomes (s : State) (n : Fin 2) (i : Nat) : ∃ e, TxBecomes n s (s.txErr n i) { s.img.tx[n] with err := e } := by
  obtain ⟨p, g, frame⟩ := irqSync_frame (s.modTx n (fun t => { t with err := t.err ||| (1#2 <<< i) }))
  exact ⟨_, p, g, frame⟩

/-- What a change of transmitter n leaves as it was. -/
def EmissionKept (n : Fin 2) (s t : State) : Prop :=
  t = { s with img := { s.img with tx := t.img.tx }, glb := t.glb, pcie := t.pcie } ∧
    (∀ k, k ≠ n → t.img.tx[k] = s.img.tx[k]) ∧ t.img.tx[n].cfg = s.img.tx[n].cfg

theorem TxBecomes.kept {y : Tx} (h : TxBecomes n s t y) (cfg : y.cfg = s.img.tx[n].cfg) : EmissionKept n s t := by
  have tx := h.tx
  obtain ⟨_, _, rfl⟩ := h
  exact ⟨rfl, fun k other => vmod_other _ _ _ _ other, by rw [tx, cfg]⟩

/-! ### Row-groups -/

/-- The slots that row-group g of a frame is sent from, band by band. -/
def groupSlots (s : State) (n : Fin 2) (g : TxGroup) : List (Option Nat) :=
  ((List.range 16).map (fun b => (b, s.txSource n g b))).map (fun y => y.2.map (·.1))

/-- A band whose own slot is declared for the row-group is sent from it (R306). -/
theorem groupSlots_ready {g : TxGroup} {b : Nat} (band : b < 16) (up : s.clusterUp (Fin.ofNat 4 (b / 4)) = true)
    (ready : (b, g.group % 3, g.frame % 2 ^ 32, g.group % 65536) ∈ s.img.tx[n].ready) :
    (groupSlots s n g)[b]? = some (some (g.group % 3)) := by
  have own : s.txSource n g b = some (g.group % 3, g.group) := by
    unfold State.txSource
    dsimp only
    rw [if_neg (by rw [up]; decide), if_pos (List.any_eq_true.2 ⟨_, ready, decide_eq_true rfl⟩)]
  rw [groupSlots, List.getElem?_map, List.getElem?_map, List.getElem?_range band, Option.map_some, Option.map_some, own]
  rfl

/-- A transmitter with a row-group in emission from its row 0. -/
def emitting (g : TxGroup) (slots : List (Option Nat)) (subst : Bool) (lastSent : List (Nat × Nat × Nat)) (e : BitVec 2)
    (x : Tx) : Tx :=
  { x with cur := some g, row := 0, bandSlot := slots, subst := subst, lastSent := lastSent, err := e }

/-- A row-group with rows begins (R307, R308). -/
theorem txGroup_becomes (s : State) (n : Fin 2) {g : TxGroup} (rows : 0 < g.rows) :
    ∃ subst lastSent e, TxBecomes n s (s.txGroup n g) (emitting g (groupSlots s n g) subst lastSent e s.img.tx[n]) := by
  have some_rows : g.rows ≠ 0 := Nat.ne_of_gt rows
  unfold State.txGroup
  simp only [if_neg some_rows]
  rw [if_neg (by rw [decide_eq_false some_rows, Bool.false_and]; exact Bool.false_ne_true)]
  split
  · obtain ⟨e, becomes⟩ := txErr_becomes (s.modTx n _) n 0
    rw [(modTx_becomes s n _).tx] at becomes
    exact ⟨_, _, e, (modTx_becomes s n _).trans becomes⟩
  · exact ⟨_, _, _, modTx_becomes s n _⟩

/-- A transmitter without the first of its groups to come. -/
def groupDue (rest : List TxGroup) (x : Tx) : Tx := { x with groups := rest }

/-- What the sequencer does with the row-group that is due: it leaves the groups to come, and begins where its frame goes on or it
is a frame's first (R307, R312). -/
theorem exec_outputRowGroupEmission (on : s.on 4 = true) {g : TxGroup} {rest : List TxGroup}
    (groups : s.img.tx[n].groups = g :: rest) (idle : s.img.tx[n].cur = none) (due : g.start ≤ s.now * 1000) :
    exec (.outputRowGroupEmission n) s = .next (
      let u := s.modTx n (groupDue rest)
      if !s.active then u
      else if s.img.tx[n].inFrame = some g.frame ∧ s.img.tx[n].ahead = false then u.txGroup n g
      else if g.group = 0 then (u.txFrame n g.frame).txGroup n g
      else u) := by
  have tx := (modTx_becomes s n (fun x => { x with groups := rest })).tx
  change execOutputRowGroupEmission n s = _
  unfold execOutputRowGroupEmission
  rw [groups]
  dsimp only
  rw [if_neg (by rw [on, decide_eq_false (not_lt.2 due), idle]; decide)]
  rw [tx]
  rfl

@[simp] theorem send_cfg (x : Tx) (dt : Nat) (l : List Byte) : (x.send dt l).cfg = x.cfg := by
  unfold Tx.send
  split <;> rfl

@[simp] theorem close_cfg (x : Tx) : x.close.cfg = x.cfg := by
  unfold Tx.close
  split
  · exact send_cfg x _ _
  · rfl

/-- A packet leaves where the transmitter has a PHY (R309). -/
theorem send_of_phy {x : Tx} (phy : x.cfg.phy ≠ 0) (dt : Nat) (l : List Byte) :
    x.send dt l = { x with sent := (dt, l) :: x.sent } := if_neg phy

/-- A transmitter with frame f in progress: its Frame Start is sent unless it left before (R309). -/
def frameOpened (f : Nat) (x : Tx) : Tx := { (if x.inFrame = some f then x else x.close.open f) with ahead := false }

theorem frameOpened_cfg (f : Nat) (x : Tx) : (frameOpened f x).cfg = x.cfg := by
  by_cases sent : x.inFrame = some f <;> simp [frameOpened, Tx.open, sent]

/-- A frame that follows no other opens with its Frame Start. -/
theorem frameOpened_none {x : Tx} (none_open : x.inFrame = none) (phy : x.cfg.phy ≠ 0) (f : Nat) :
    frameOpened f x = { x with sent := (0x00, leBytes 2 (f % 65535 + 1)) :: x.sent, inFrame := some f, ahead := false } := by
  have closed : x.close = x := by simp [Tx.close, none_open]
  have other : x.inFrame ≠ some f := by rw [none_open]; exact (Option.some_ne_none f).symm
  rw [frameOpened, if_neg other, closed, Tx.open, send_of_phy phy]

/-- A frame whose Frame Start left behind the Frame End before it sends none. -/
theorem frameOpened_ahead {x : Tx} {f : Nat} (sent : x.inFrame = some f) : frameOpened f x = { x with ahead := false } := by
  rw [frameOpened, if_pos sent]

/-- A frame with no host buffer begins (R309, R311). -/
theorem txFrame_becomes (s : State) (n : Fin 2) (noHost : bit s.img.tx[n].cfg.pcie 15 = false) (f : Nat) :
    TxBecomes n s (s.txFrame n f) (frameOpened f s.img.tx[n]) := by
  have becomes := modTx_becomes s n (frameOpened f)
  have eq : s.txFrame n f = s.modTx n (frameOpened f) := by
    have cfg : (s.modTx n (frameOpened f)).img.tx[n].cfg = s.img.tx[n].cfg := by rw [becomes.tx, frameOpened_cfg]
    change (if !bit (s.modTx n (frameOpened f)).img.tx[n].cfg.pcie 15 then s.modTx n (frameOpened f) else _) = _
    rw [cfg, noHost]
    rfl
  rw [eq]
  exact becomes

section
variable (on : s.on 4 = true) {g : TxGroup} {rest : List TxGroup} (groups : s.img.tx[n].groups = g :: rest)
  (idle : s.img.tx[n].cur = none) (due : g.start ≤ s.now * 1000)
include on groups idle due

/-- Outside RUNNING and DEGRADED a row-group is dropped (R312). -/
theorem outputRowGroupEmission_drops (stopped : s.active = false) :
    ∃ t, exec (.outputRowGroupEmission n) s = .next t ∧ EmissionKept n s t ∧
      t.img.tx[n] = { s.img.tx[n] with groups := rest } := by
  have becomes := modTx_becomes s n (groupDue rest)
  have executed := exec_outputRowGroupEmission on groups idle due
  rw [stopped] at executed
  exact ⟨_, executed, becomes.kept rfl, becomes.tx⟩

/-- A row-group of the frame in progress is in emission (R307, R308). -/
theorem outputRowGroupEmission_emits (active : s.active = true) (rows : 0 < g.rows) (inFrame : s.img.tx[n].inFrame = some g.frame)
    (sent : s.img.tx[n].ahead = false) :
    ∃ t, exec (.outputRowGroupEmission n) s = .next t ∧ EmissionKept n s t ∧ t.img.tx[n].groups = rest ∧
      t.img.tx[n].cur = some g ∧ t.img.tx[n].row = 0 ∧ t.img.tx[n].inFrame = some g.frame ∧ t.img.tx[n].sent = s.img.tx[n].sent ∧
      ∀ b, b < 16 → s.clusterUp (Fin.ofNat 4 (b / 4)) = true →
        (b, g.group % 3, g.frame % 2 ^ 32, g.group % 65536) ∈ s.img.tx[n].ready →
          t.img.tx[n].bandSlot[b]? = some (some (g.group % 3)) := by
  have waiting := modTx_becomes s n (groupDue rest)
  obtain ⟨subst, lastSent, e, begins⟩ := txGroup_becomes (s.modTx n (groupDue rest)) n rows
  rw [waiting.tx] at begins
  have becomes := waiting.trans begins
  have executed := exec_outputRowGroupEmission on groups idle due
  rw [active] at executed
  dsimp only at executed
  rw [if_neg (by decide), if_pos ⟨inFrame, sent⟩] at executed
  have tx := becomes.tx
  refine ⟨_, executed, becomes.kept rfl, by rw [tx]; rfl, by rw [tx]; rfl, by rw [tx]; rfl, by rw [tx]; exact inFrame,
    by rw [tx]; rfl, fun b band up ready => ?_⟩
  rw [tx]
  refine groupSlots_ready band up ?_
  rw [waiting.tx]
  exact ready

/-- The first row-group of a frame with no host buffer opens it and is in emission (R307, R309, R311). -/
theorem outputRowGroupEmission_opens (active : s.active = true) (rows : 0 < g.rows) (first : g.group = 0)
    (new : ¬ (s.img.tx[n].inFrame = some g.frame ∧ s.img.tx[n].ahead = false)) (noHost : bit s.img.tx[n].cfg.pcie 15 = false) :
    ∃ t, exec (.outputRowGroupEmission n) s = .next t ∧ EmissionKept n s t ∧ ∃ slots subst lastSent e,
      t.img.tx[n] = emitting g slots subst lastSent e (frameOpened g.frame (groupDue rest s.img.tx[n])) := by
  have waiting := modTx_becomes s n (groupDue rest)
  have opens := txFrame_becomes (s.modTx n (groupDue rest)) n (by rw [waiting.tx]; exact noHost) g.frame
  rw [waiting.tx] at opens
  obtain ⟨subst, lastSent, e, begins⟩ := txGroup_becomes ((s.modTx n (groupDue rest)).txFrame n g.frame) n rows
  rw [opens.tx] at begins
  have becomes := (waiting.trans opens).trans begins
  have executed := exec_outputRowGroupEmission on groups idle due
  rw [active] at executed
  dsimp only at executed
  rw [if_neg (by decide), if_neg new, if_pos first] at executed
  exact ⟨_, executed, becomes.kept (frameOpened_cfg _ _), _, subst, lastSent, e, becomes.tx⟩

/-- With no frame in progress the Frame Start leaves (R309). -/
theorem outputRowGroupEmission_startsFrame (active : s.active = true) (rows : 0 < g.rows) (first : g.group = 0)
    (none_open : s.img.tx[n].inFrame = none) (noHost : bit s.img.tx[n].cfg.pcie 15 = false) (phy : s.img.tx[n].cfg.phy ≠ 0) :
    ∃ t, exec (.outputRowGroupEmission n) s = .next t ∧ EmissionKept n s t ∧ t.img.tx[n].cur = some g ∧
      t.img.tx[n].inFrame = some g.frame ∧
      t.img.tx[n].sent = (0x00, leBytes 2 (g.frame % 65535 + 1)) :: s.img.tx[n].sent := by
  have new : ¬ (s.img.tx[n].inFrame = some g.frame ∧ s.img.tx[n].ahead = false) := by
    rw [none_open]
    rintro ⟨⟨⟩, -⟩
  obtain ⟨t, executed, kept, slots, subst, lastSent, e, tx⟩ :=
    outputRowGroupEmission_opens on groups idle due active rows first new noHost
  rw [frameOpened_none (x := groupDue rest s.img.tx[n]) none_open phy] at tx
  exact ⟨t, executed, kept, by rw [tx]; rfl, by rw [tx]; rfl, by rw [tx]; rfl⟩

/-- A frame whose Frame Start left behind the Frame End before it goes on (R309). -/
theorem outputRowGroupEmission_followsStart (active : s.active = true) (rows : 0 < g.rows) (first : g.group = 0)
    (inFrame : s.img.tx[n].inFrame = some g.frame) (sent : s.img.tx[n].ahead = true)
    (noHost : bit s.img.tx[n].cfg.pcie 15 = false) :
    ∃ t, exec (.outputRowGroupEmission n) s = .next t ∧ EmissionKept n s t ∧ t.img.tx[n].cur = some g ∧
      t.img.tx[n].ahead = false ∧ t.img.tx[n].inFrame = some g.frame ∧ t.img.tx[n].sent = s.img.tx[n].sent := by
  have new : ¬ (s.img.tx[n].inFrame = some g.frame ∧ s.img.tx[n].ahead = false) := by
    rw [sent]
    rintro ⟨-, ⟨⟩⟩
  obtain ⟨t, executed, kept, slots, subst, lastSent, e, tx⟩ :=
    outputRowGroupEmission_opens on groups idle due active rows first new noHost
  rw [frameOpened_ahead (x := groupDue rest s.img.tx[n]) inFrame] at tx
  exact ⟨t, executed, kept, by rw [tx]; rfl, by rw [tx]; rfl, by rw [tx]; exact inFrame, by rw [tx]; rfl⟩

end

/-! ### Rows and the stop -/

/-- A due row that is not its group's last, of a frame with no host buffer, goes out (R307, R309). -/
theorem txRowRead_sends (on : s.on 4 = true) {g : TxGroup} (cur : s.img.tx[n].cur = some g) (active : s.active = true)
    (due : g.start + s.img.tx[n].row * g.iv / s.img.tx[n].cfg.group ≤ s.now * 1000) (noBuffer : s.img.tx[n].buf = none)
    (more : s.img.tx[n].row + 1 < g.rows) (phy : s.img.tx[n].cfg.phy ≠ 0) :
    ∃ t, exec (.txRowRead n) s = .next t ∧ EmissionKept n s t ∧
      t.img.tx[n] = { s.img.tx[n] with
        sent := (s.img.tx[n].cfg.dt, s.txRow n s.img.tx[n].row) :: s.img.tx[n].sent, row := s.img.tx[n].row + 1 } := by
  have takes : s.txTake n = s := by simp only [State.txTake, noBuffer]
  have hosts (row : List Byte) : s.txHost n row = s := by simp only [State.txHost, noBuffer]
  have becomes := modTx_becomes s n (fun y =>
    { y.send s.img.tx[n].cfg.dt (s.txRow n s.img.tx[n].row) with row := s.img.tx[n].row + 1, cur := some g })
  have executed : exec (.txRowRead n) s = .next (s.modTx n (fun y =>
      { y.send s.img.tx[n].cfg.dt (s.txRow n s.img.tx[n].row) with row := s.img.tx[n].row + 1, cur := some g })) := by
    change execTxRowRead n s = _
    unfold execTxRowRead
    rw [cur]
    dsimp only
    rw [if_neg (by rw [on, active, decide_eq_false (not_lt.2 due)]; decide), takes, hosts, decide_eq_true more]
    rfl
  refine ⟨_, executed, becomes.kept (send_cfg _ _ _), ?_⟩
  rw [becomes.tx, send_of_phy phy, ← cur]

/-- A stopped transmitter ends its frame and forgets the groups to come (R312). -/
theorem txStop_halts (stopped : s.active = false) :
    ∃ t, exec (.txStop n) s = .next t ∧ EmissionKept n s t ∧ t.img.tx[n].groups = [] ∧ t.img.tx[n].inFrame = none ∧
      (∀ f, s.img.tx[n].inFrame = some f → s.img.tx[n].cfg.phy ≠ 0 →
        t.img.tx[n].sent = (0x01, leBytes 2 (f % 65535 + 1)) :: s.img.tx[n].sent ∧ t.img.tx[n].frame = BitVec.ofNat 32 f) := by
  have becomes := modTx_becomes s n (fun x => { x.close with groups := [] })
  have executed : exec (.txStop n) s = .next (s.txHalt n) := congrArg Host.Outcome.next (if_neg (by simp [stopped]))
  have closed : s.img.tx[n].close.inFrame = none := by
    unfold Tx.close
    split
    · rfl
    · assumption
  refine ⟨_, executed, becomes.kept (close_cfg _), congrArg Tx.groups becomes.tx, (congrArg Tx.inFrame becomes.tx).trans closed,
    fun f inFrame phy => ⟨(congrArg Tx.sent becomes.tx).trans ?_, (congrArg Tx.frame becomes.tx).trans ?_⟩⟩
  · simp only [Tx.close, inFrame, send_of_phy phy]
  · simp only [Tx.close, inFrame]

end Sys2Proof.Proofs
end

section
/-! The obligation of output frames. -/

namespace Sys2Proof.Proofs
open Sys2Proof.Machine Sys2Proof.Laws

/-- Settles O35: each command by what the transmitter becomes. -/
theorem outputFramesAreSent : Obligations.OutputFramesAreSent := by
  intro s n on x kept
  refine ⟨fun g rest groups idle due => ⟨outputRowGroupEmission_drops on groups idle due,
    outputRowGroupEmission_emits on groups idle due, outputRowGroupEmission_startsFrame on groups idle due,
    outputRowGroupEmission_followsStart on groups idle due⟩, fun g cur => txRowRead_sends on cur, txStop_halts⟩

end Sys2Proof.Proofs
end

section
/-! SUPPORT. I3C transfers, in-band interrupts and hot joins (R319 to R321, R433). -/

namespace Sys2Proof.Proofs
open Sys2Proof.Machine Sys2Proof.Laws

variable {s : State} {n : Fin 2}

/-! ### IMG_I3C_XFER -/

/-- IMG_I3C_XFER of legal fields taken from mailbox m, for controller n and no reference, with room in its queue (R433). -/
structure AsksXfer (s : State) (m : Fin 8) (ctx : Nat) (p : List Byte) (n : Fin 2) : Prop where
  taken : s.holdsTaken m 0x0501 ctx p
  controller : field p 0 1 = n.val
  kind : field p 1 1 ≤ 9
  addr : field p 2 1 ≤ 127
  noRef : field p 4 4 = 0xFFFFFFFF
  delay : field p 8 4 ≤ 1000000
  len : field p 12 2 ≤ 256
  reserved : field p 14 2 = 0
  room : s.img.i3c[n].length < 16

/-- The transfer that a payload asks for, due at once. -/
def askedXfer (m : Fin 8) (p : List Byte) (now : Nat) : I3cXfer :=
  { mbox := m, kind := field p 1 1, addr := field p 2 1, ccc := field p 3 1, refSeq := field p 4 4, delay := field p 8 4,
    len := field p 12 2, data := p.drop 16, due := some now, started := none }

/-- The state with another queue of controller n. -/
def withQueue (s : State) (n : Fin 2) (q : List I3cXfer) : State := { s with img := { s.img with i3c := vset s.img.i3c n q } }

theorem withQueue_same (s : State) (n : Fin 2) (q : List I3cXfer) : (withQueue s n q).img.i3c[n] = q := vset_same _ _ _

theorem withQueue_other (s : State) {n k : Fin 2} (other : k ≠ n) (q : List I3cXfer) :
    (withQueue s n q).img.i3c[k] = s.img.i3c[k] := vset_other _ _ _ _ other

theorem exec_imgI3cXfer {m : Fin 8} {ctx : Nat} {p : List Byte} (on : s.on 4 = true) (h : AsksXfer s m ctx p n) :
    exec (.imgI3cXfer m) s = .next (State.fly (withQueue s n (s.img.i3c[n] ++ [askedXfer m p s.now])) m 0 [n.val] []) := by
  have known : field p 0 1 ≤ 1 := by
    have := n.isLt
    rw [h.controller]
    omega
  obtain rfl : n = Fin.ofNat 2 (field p 0 1) := by
    rw [h.controller]
    exact (Fin.ofNat_val_eq_self n).symm
  change execImgI3cXfer m s = _
  unfold execImgI3cXfer
  rw [withTaken_holdsTaken h.taken]
  dsimp only
  split
  · next failed =>
    have room := h.room
    simp [known, h.kind, h.addr, h.noRef, h.delay, h.len, h.reserved, room, -Fin.getElem_fin, -Fin.ofNat_eq_cast] at failed
  · rw [if_neg (by simp [on]), if_pos h.noRef]
    rfl

/-- What a change of controller n's queue leaves as it was. -/
def OtherQueues (n : Fin 2) (s t : State) : Prop :=
  (∀ k, k ≠ n → t.img.i3c[k] = s.img.i3c[k]) ∧ t.img.rx = s.img.rx ∧ t.img.tx = s.img.tx ∧ t.dram = s.dram ∧
    t.clusters = s.clusters ∧ t.sched = s.sched

theorem withQueue_others (s : State) (n : Fin 2) (q : List I3cXfer) : OtherQueues n s (withQueue s n q) :=
  ⟨fun _ other => withQueue_other s other q, rfl, rfl, rfl, rfl, rfl⟩

/-- The transfer is queued, due at once, and its command stays BUSY (R320, R433). -/
theorem imgI3cXfer_queues {m : Fin 8} {ctx : Nat} {p : List Byte} (on : s.on 4 = true) (h : AsksXfer s m ctx p n) :
    ∃ t x, exec (.imgI3cXfer m) s = .next t ∧ OtherQueues n s t ∧ t.img.i3c[n] = s.img.i3c[n] ++ [x] ∧ x.mbox = m ∧
      x.kind = field p 1 1 ∧ x.addr = field p 2 1 ∧ x.len = field p 12 2 ∧ x.due = some s.now ∧ x.started = none ∧
      t.mboxes[m] = { s.mboxes[m] with flight := some ⟨0, [n.val], []⟩ } :=
  ⟨_, askedXfer m p s.now, exec_imgI3cXfer on h, withQueue_others s n _, withQueue_same s n _, rfl, rfl, rfl, rfl, rfl, rfl,
    modMbox_same _ m _⟩

/-! ### The transfer at the head of a queue -/

/-- The mailbox whose command of a code is in flight gets the reply. -/
theorem replyFor_of_flight {m : Fin 8} {code : Nat} {k : Taken} {f : InFlight} (taken : s.mboxes[m].taken = some k)
    (named : k.command = code) (flight : s.mboxes[m].flight = some f) (r : Reply) : s.replyFor m code r = s.reply m r := by
  unfold State.replyFor
  rw [taken, flight]
  exact if_pos named

/-- The state once transfer x has ended: it is off its queue, and its reference is kept where it succeeded for one (R313). -/
def transferEnded (s : State) (n : Fin 2) (x : I3cXfer) (rest : List I3cXfer) (result : Byte) : State :=
  { s with
    img := { s.img with
      i3c := vset s.img.i3c n rest,
      i3cDone := if x.refSeq ≠ 0xFFFFFFFF ∧ result = 0 then x.refSeq :: s.img.i3cDone.take 255 else s.img.i3cDone } }

/-- The reply of a transfer that has ended (R433). -/
def transferReply (x : I3cXfer) (t0 : Nat) (result : Byte) (done : W16) (data : List Byte) : Reply :=
  ok (leBytes 1 result.toNat ++ [0] ++ leBytes 2 done.toNat ++ zeros 4 ++ leBytes 8 t0 ++
    (if i3cReads x.kind then data.take (if x.kind = 9 then 4064 else x.len) else []))

section
variable {x : I3cXfer} {rest : List I3cXfer} (queue : s.img.i3c[n] = x :: rest)
include queue

/-- The transfer starts once due (R320). -/
theorem i3cTransferStart_starts (on : s.on 4 = true) {u : Nat} (idle : x.started = none) (due : x.due = some u)
    (past : u ≤ s.now) :
    ∃ t, exec (.i3cTransferStart n) s = .next t ∧ OtherQueues n s t ∧
      t.img.i3c[n] = { x with started := some s.now } :: rest ∧ t.mboxes = s.mboxes := by
  have executed : exec (.i3cTransferStart n) s = .next (withQueue s n ({ x with started := some s.now } :: rest)) := by
    change execI3cTransferStart n s = _
    unfold execI3cTransferStart
    rw [queue]
    exact congrArg Host.Outcome.next (if_pos (by rw [on, idle, due]; exact decide_eq_true past))
  exact ⟨_, executed, withQueue_others s n _, withQueue_same s n _, rfl⟩

/-- Its end takes it from the queue and replies to its mailbox (R320, R433). -/
theorem i3cTransferDone_replies (on : s.on 4 = true) {t0 : Nat} {result : Byte} {done : W16} {data : List Byte} {k : Taken}
    {f : InFlight} (started : x.started = some t0) (known : result.toNat ≤ 3) (taken : s.mboxes[x.mbox].taken = some k)
    (code : k.command = 0x0501) (flight : s.mboxes[x.mbox].flight = some f) :
    ∃ t, exec (.i3cTransferDone n result done data) s = .next t ∧ OtherQueues n s t ∧ t.img.i3c[n] = rest ∧
      s.replied t x.mbox (transferReply x t0 result done data) := by
  have executed : exec (.i3cTransferDone n result done data) s =
      .next ((transferEnded s n x rest result).reply x.mbox (transferReply x t0 result done data)) := by
    rw [← replyFor_of_flight (s := transferEnded s n x rest result) taken code flight]
    change execI3cTransferDone n result done data s = _
    unfold execI3cTransferDone
    rw [queue]
    dsimp only
    rw [started]
    exact congrArg Host.Outcome.next (if_neg (not_not.2 ⟨on, known⟩))
  obtain ⟨t, executed, replied, left⟩ := replied_of_reply executed rfl
  refine ⟨t, executed, ?_, ?_, replied⟩
  · rw [left]
    exact withQueue_others s n rest
  · rw [left]
    exact withQueue_same s n rest

end

/-! ### In-band interrupts and hot joins -/

/-- An event leaves the front end, package DRAM and clusters alone. -/
theorem event_frontEnd (s : State) (code ctx w : Nat) (log : Bool) (data : List Byte) :
    (s.event code ctx w log data).img = s.img ∧ (s.event code ctx w log data).dram = s.dram ∧
      (s.event code ctx w log data).clusters = s.clusters := by
  obtain ⟨_, _, _, _, _, frame⟩ := event_frame s code ctx w log data
  rw [frame]
  exact ⟨rfl, rfl, rfl⟩

/-- A command that does nothing but report an event. -/
theorem reports_of_event {c : Instr} {code w : Nat} {data : List Byte}
    (executed : exec c s = .next (s.event code 0 w false data)) :
    ∃ t, exec c s = .next t ∧ t.img = s.img ∧ t.dram = s.dram ∧ t.clusters = s.clusters ∧ s.reports t code 0 w false data := by
  obtain ⟨img, dram, clusters⟩ := event_frontEnd s code 0 w false data
  exact ⟨_, executed, img, dram, clusters, rfl, rfl, rfl⟩

theorem exec_i3cIbi (on : s.on 4 = true) (addr : Byte) {data : List Byte} (short : data.length ≤ 8) :
    exec (.i3cIbi n addr data) s =
      .next (s.event 0x0404 0 (0x10 + n.val) false (leBytes 1 n.val ++ [addr] ++ leBytes 1 data.length ++ padTo 8 data)) :=
  congrArg Host.Outcome.next (if_pos (by rw [on, decide_eq_true short]; rfl))

theorem exec_i3cHotjoin (on : s.on 4 = true) :
    exec (.i3cHotjoin n) s = .next (s.event 0x0405 0 (0x10 + n.val) false (leBytes 1 n.val)) :=
  congrArg Host.Outcome.next (if_pos on)

end Sys2Proof.Proofs
end

section
/-! The obligation of I3C transfers. -/

namespace Sys2Proof.Proofs
open Sys2Proof.Machine

/-- Settles O36: the queue by its one element, the replies by their frame, the events by what they report. -/
theorem i3cTransfersRun : Obligations.I3cTransfersRun := by
  refine fun s n on => ⟨?queued, fun x rest queue => ⟨?started, ?ended⟩,
    fun addr data short => reports_of_event (exec_i3cIbi on addr short), reports_of_event (exec_i3cHotjoin on)⟩
  case queued => exact fun m ctx p taken controller kind addr noRef delay len reserved room =>
    imgI3cXfer_queues on ⟨taken, controller, kind, addr, noRef, delay, len, reserved, room⟩
  case started => exact fun u idle due past => i3cTransferStart_starts queue on idle due past
  case ended => exact fun t0 result done data k f started known taken code flight =>
    i3cTransferDone_replies queue on started known taken code flight

end Sys2Proof.Proofs
end

section
/-! SUPPORT. What an event reports depends on time, the queue manager, the event log, the rings and host memory (R410, R446). -/

namespace Sys2Proof.Proofs
open Sys2Proof.Machine Sys2Proof.Laws

/-- `t` has what events are made of and go to, as `s` has it. Unlike under `SameRings`, vectors may have been sent in between. -/
structure SameReporting (s t : State) : Prop where
  now : t.now = s.now
  qmUp : t.qmUp = s.qmUp
  log : t.log = s.log
  rings : t.rings = s.rings
  host : t.host = s.host

/-! ### Interrupts -/

theorem SameReporting.refl (s : State) : SameReporting s s := ⟨rfl, rfl, rfl, rfl, rfl⟩

theorem SameReporting.symm {s t : State} (same : SameReporting s t) : SameReporting t s :=
  ⟨same.now.symm, same.qmUp.symm, same.log.symm, same.rings.symm, same.host.symm⟩

theorem SameReporting.trans {s t u : State} (st : SameReporting s t) (tu : SameReporting t u) : SameReporting s u :=
  ⟨tu.now.trans st.now, tu.qmUp.trans st.qmUp, tu.log.trans st.log, tu.rings.trans st.rings, tu.host.trans st.host⟩

theorem sendVec_sameReporting (s : State) (v : Nat) : SameReporting s (s.sendVec v) := by
  unfold State.sendVec
  split <;> exact ⟨rfl, rfl, rfl, rfl, rfl⟩

theorem glb_sameReporting (s : State) (g : Glb) : SameReporting s { s with glb := g } := ⟨rfl, rfl, rfl, rfl, rfl⟩

theorem irqSync_sameReporting (s : State) : SameReporting s s.irqSync := by
  have sent := foldl_frame SameReporting .refl (fun _ _ _ => .trans)
    (fun (u : State) v => if s.pending64.getLsbD v && !u.glb.prevP.getLsbD v then u.sendVec v else u)
    (fun u v => by
      split
      · exact sendVec_sameReporting u v
      · exact .refl u) (List.range 64) s
  exact sent.trans (glb_sameReporting _ _)

theorem setCause_sameReporting (s : State) (i : Nat) : SameReporting s (s.setCause i) :=
  (glb_sameReporting s _).trans (irqSync_sameReporting _)

/-! ### The same event in two states -/

section
variable {s t : State} (same : SameReporting s t)
include same

theorem SameReporting.extend {s' t' : State} (left : SameReporting s s') (right : SameReporting t t') : SameReporting s' t' :=
  (left.symm.trans same).trans right

theorem SameReporting.modRing (r : Nat) (f : Ring → Ring) : SameReporting (s.modRing r f) (t.modRing r f) :=
  ⟨same.now, same.qmUp, same.log, by simp only [State.modRing, same.rings], same.host⟩

theorem SameReporting.ringPut (r : Nat) (e : List Byte) : SameReporting (s.ringPut r e) (t.ringPut r e) := by
  have entry : assoc t.rings r = assoc s.rings r := by rw [same.rings]
  unfold State.ringPut
  rw [entry]
  split
  · exact same
  · next g _ =>
    have written : SameReporting { s with host := s.host.writeBytes (g.slot g.dev.toNat) (padTo 64 e) }
        { t with host := t.host.writeBytes (g.slot g.dev.toNat) (padTo 64 e) } :=
      ⟨same.now, same.qmUp, same.log, same.rings, by simp only [same.host]⟩
    have put := written.modRing r (fun g => { g with dev := g.dev + 1, arm := false })
    dsimp only
    split
    · exact put.extend (sendVec_sameReporting _ _) (sendVec_sameReporting _ _)
    · exact put

theorem SameReporting.eventLost (r : Nat) : SameReporting (s.eventLost r) (t.eventLost r) := by
  unfold State.eventLost
  rw [same.rings, same.qmUp, same.now]
  split
  · exact same
  · split
    · exact same
    · split
      · exact same
      · exact (same.ringPut r _).modRing r _

theorem SameReporting.ringEvent (r code ctx w : Nat) (log : Bool) (data : List Byte) :
    SameReporting (s.ringEvent r code ctx w log data) (t.ringEvent r code ctx w log data) := by
  have lost := same.eventLost r
  unfold State.ringEvent
  dsimp only
  rw [lost.rings, lost.qmUp, lost.now]
  split
  · exact lost
  · split
    · exact lost.modRing r _
    · exact (lost.ringPut r _).modRing r _

theorem SameReporting.logEvent (code flags : Nat) (data : List Byte) (lines : Nat) :
    SameReporting (s.logEvent code flags data lines) (t.logEvent code flags data lines) := by
  unfold State.logEvent
  rw [same.now, same.log]
  split
  · exact ⟨same.now, same.qmUp, rfl, same.rings, same.host⟩
  · have written (l : LogSt) : SameReporting { s with log := l } { t with log := l } :=
      ⟨same.now, same.qmUp, rfl, same.rings, same.host⟩
    exact (written _).extend (setCause_sameReporting _ _) (setCause_sameReporting _ _)

theorem SameReporting.event (code ctx w : Nat) (log : Bool) (data : List Byte) :
    SameReporting (s.event code ctx w log data) (t.event code ctx w log data) := by
  have ring : t.eventRing ctx = s.eventRing ctx := by simp only [State.eventRing, same.rings]
  unfold State.event
  dsimp only
  rw [ring]
  have logged : SameReporting (if log then s.logEvent code (b2n (s.eventRing ctx).isSome) data 1 else s)
      (if log then t.logEvent code (b2n (s.eventRing ctx).isSome) data 1 else t) := by
    split
    · exact same.logEvent _ _ _ _
    · exact same
  split
  · exact logged
  · exact logged.ringEvent _ _ _ _ _ _

/-- An event after changes that events do not depend on reports what it would have reported before them. -/
theorem SameReporting.reports (code ctx w : Nat) (log : Bool) (data : List Byte) :
    s.reports (t.event code ctx w log data) code ctx w log data :=
  ⟨(same.event code ctx w log data).log, (same.event code ctx w log data).rings, (same.event code ctx w log data).host⟩

end

end Sys2Proof.Proofs
end

section
/-! SUPPORT. One audio port changed, APLLs changed, and what reporting leaves of audio. -/

namespace Sys2Proof.Proofs
open Sys2Proof.Machine Sys2Proof.Laws

variable {s t u : State} {i : Fin 5} {x : Port}

theorem modAud_same (s : State) (i : Fin 5) (f : Port → Port) : (s.modAud i f).aud.port[i] = f s.aud.port[i] := vmod_same _ _ _

theorem modAud_other (s : State) {i k : Fin 5} (other : k ≠ i) (f : Port → Port) : (s.modAud i f).aud.port[k] = s.aud.port[k] :=
  vmod_other _ _ _ _ other

theorem modApll_same (s : State) (m : Fin 2) (f : Apll → Apll) : (s.modApll m f).aud.apll[m] = f s.aud.apll[m] := vmod_same _ _ _

theorem modApll_other (s : State) {m k : Fin 2} (other : k ≠ m) (f : Apll → Apll) :
    (s.modApll m f).aud.apll[k] = s.aud.apll[k] :=
  vmod_other _ _ _ _ other

/-- Among the ports only i may differ; package DRAM, clusters, runs and mailboxes stay. -/
def OnlyPort (i : Fin 5) (s t : State) : Prop :=
  (∀ k, k ≠ i → t.aud.port[k] = s.aud.port[k]) ∧ t.dram = s.dram ∧ t.clusters = s.clusters ∧ t.sched = s.sched ∧
    t.mboxes = s.mboxes

/-- Port i becomes `x`, and no other port changes. -/
def PortBecomes (i : Fin 5) (s t : State) (x : Port) : Prop := OnlyPort i s t ∧ t.aud.port[i] = x

theorem modAud_becomes (s : State) (i : Fin 5) (f : Port → Port) : PortBecomes i s (s.modAud i f) (f s.aud.port[i]) :=
  ⟨⟨fun _ other => modAud_other s other f, rfl, rfl, rfl, rfl⟩, modAud_same s i f⟩

theorem PortBecomes.modAud (h : PortBecomes i s t x) (f : Port → Port) : PortBecomes i s (t.modAud i f) (f x) := by
  obtain ⟨⟨others, dram, clusters, sched, mboxes⟩, port⟩ := h
  exact ⟨⟨fun k other => (modAud_other t other f).trans (others k other), dram, clusters, sched, mboxes⟩,
    (modAud_same t i f).trans (congrArg f port)⟩

theorem PortBecomes.reports (h : PortBecomes i s t x) (reported : OnlyReports t u) : PortBecomes i s u x := by
  obtain ⟨_, _, _, _, _, rfl⟩ := reported
  exact h

theorem PortBecomes.audErr (h : PortBecomes i s t x) (b : BitVec 7) :
    PortBecomes i s (t.audErr i b) { x with err := x.err ||| b } :=
  (h.modAud fun p => { p with err := p.err ||| b }).reports (irqSync_onlyReports _)

/-- A followed port's clock is the APLLs' affair alone (R329). -/
theorem portClock_frame (s : State) (n : Fin 4) : ∃ v, s.portClock n = { s with aud := { s.aud with apll := v } } := ⟨_, rfl⟩

theorem PortBecomes.portClock (h : PortBecomes i s t x) (n : Fin 4) : PortBecomes i s (t.portClock n) x := by
  obtain ⟨v, frame⟩ := portClock_frame t n
  rw [frame]
  exact h

/-! ### What events do not depend on -/

theorem aud_sameReporting (s : State) (a : Aud) : SameReporting s { s with aud := a } := ⟨rfl, rfl, rfl, rfl, rfl⟩

theorem modAud_sameReporting (s : State) (i : Fin 5) (f : Port → Port) : SameReporting s (s.modAud i f) := aud_sameReporting s _

theorem portClock_sameReporting (s : State) (n : Fin 4) : SameReporting s (s.portClock n) := by
  obtain ⟨v, frame⟩ := portClock_frame s n
  rw [frame]
  exact aud_sameReporting s _

theorem audErr_sameReporting (s : State) (i : Fin 5) (b : BitVec 7) : SameReporting s (s.audErr i b) :=
  (modAud_sameReporting s i _).trans (irqSync_sameReporting _)

/-! ### Slips -/

/-- A port whose output side had a word inserted (R350). -/
def wordInserted (p : Port) : Port :=
  { p with
    sOut := (p.sOut + 1) % p.cfg.eOut, outSlips := p.outSlips + 1,
    outBlk := { p.outBlk with flags := p.outBlk.flags ||| 1, slips := p.outBlk.slips + 1 }, err := p.err ||| 2 }

/-- A port whose open output block has had its event of slips. -/
def slipTold (p : Port) : Port := { p with outBlk := { p.outBlk with evSent := true } }

theorem slip_inserted (s : State) (i : Fin 5) : ∃ data, s.slip i true false =
    if (s.modAud i wordInserted).aud.port[i].outBlk.evSent then (s.modAud i wordInserted).irqSync
    else ((s.modAud i wordInserted).irqSync.modAud i slipTold).event 0x0501 0 (0x10 + i.val) false data :=
  ⟨_, rfl⟩

/-- A slip that inserts a word changes nothing else of the ports but, with its event, the open block's mark of it. -/
theorem slip_becomes (s : State) (i : Fin 5) :
    ∃ told, PortBecomes i s (s.slip i true false) { wordInserted s.aud.port[i] with outBlk := told } := by
  obtain ⟨data, slip⟩ := slip_inserted s i
  have slipped := (modAud_becomes s i wordInserted).reports (irqSync_onlyReports _)
  rw [slip]
  split
  · exact ⟨_, slipped⟩
  · exact ⟨_, (slipped.modAud slipTold).reports (event_onlyReports _ _ _ _ _ _)⟩

end Sys2Proof.Proofs
end

section
/-! SUPPORT. Changes of several ports, and mailboxes whose command waits for ports to start or stop (R434). -/

namespace Sys2Proof.Proofs
open Sys2Proof.Machine Sys2Proof.Laws

variable {s : State} {m : Fin 8}

/-! ### Several ports -/

/-- The ports of a list become what `g` makes of each, and nothing else changes. -/
structure PortsBecome (l : List (Fin 5)) (g : Fin 5 → Port → Port) (s t : State) : Prop where
  rest : t = { s with aud := { s.aud with port := t.aud.port } }
  named : ∀ n ∈ l, t.aud.port[n] = g n s.aud.port[n]
  others : ∀ n, n ∉ l → t.aud.port[n] = s.aud.port[n]

/-- A fold over ports, each step of which changes its own port as long as that one is as it was. -/
theorem foldl_portsBecome {f : State → Fin 5 → State} {g : Fin 5 → Port → Port} {l : List (Fin 5)} (distinct : l.Nodup)
    (s : State) (step : ∀ u n, n ∈ l → u = { s with aud := { s.aud with port := u.aud.port } } →
      u.aud.port[n] = s.aud.port[n] → f u n = u.modAud n (g n)) : PortsBecome l g s (l.foldl f s) := by
  induction l generalizing s with
  | nil => exact ⟨rfl, fun _ => nofun, fun _ _ => rfl⟩
  | cons n l ih =>
    obtain ⟨fresh, distinct⟩ := List.nodup_cons.1 distinct
    have later (k : Fin 5) (mem : k ∈ l) : k ≠ n := fun same => fresh (same ▸ mem)
    obtain ⟨rest, named, others⟩ := ih distinct (s.modAud n (g n)) fun u k mem rest port =>
      step u k (List.mem_cons_of_mem n mem) rest (port.trans (modAud_other s (later k mem) _))
    rw [List.foldl_cons, step s n List.mem_cons_self rfl rfl]
    refine ⟨rest, fun k mem => ?_, fun k absent => ?_⟩
    · rcases List.mem_cons.1 mem with rfl | mem
      · exact (others k fresh).trans (modAud_same s k _)
      · exact (named k mem).trans (congrArg (g k) (modAud_other s (later k mem) _))
    · obtain ⟨other, absent⟩ := not_or.1 (mt List.mem_cons.2 absent)
      exact (others k absent).trans (modAud_other s other _)

theorem mem_maskPorts {mask : Nat} {n : Fin 5} : n ∈ maskPorts mask ↔ bit mask n.val = true := by
  simp [maskPorts]

theorem maskPorts_nodup (mask : Nat) : (maskPorts mask).Nodup := (List.nodup_finRange 5).filter _

/-- A mask of ports that names one. -/
theorem exists_named {mask : Nat} (some_ : 1 ≤ mask) (known : mask ≤ 0x1F) : ∃ n : Fin 5, bit mask n.val = true := by
  have small : ∀ x : Fin 32, 1 ≤ x.val → ∃ n : Fin 5, bit x.val n.val = true := by decide
  exact small ⟨mask, Nat.lt_succ_of_le known⟩ some_

/-! ### Mailboxes that wait -/

theorem replyAll_frame (s : State) (l : List (Fin 8)) (r : Reply) :
    ∃ b p g, s.replyAll l r = { s with mboxes := b, pcie := p, glb := g } :=
  foldl_frame (fun s t : State => ∃ b p g, t = { s with mboxes := b, pcie := p, glb := g })
    (fun s => ⟨s.mboxes, s.pcie, s.glb, rfl⟩) (by rintro _ _ _ ⟨_, _, _, rfl⟩ ⟨b, p, g, rfl⟩; exact ⟨b, p, g, rfl⟩)
    (fun s m => s.reply m r) (fun s m => reply_frame s m r) l s

theorem replyAll_mboxes_other {l : List (Fin 8)} (absent : m ∉ l) (s : State) (r : Reply) :
    (s.replyAll l r).mboxes[m] = s.mboxes[m] := by
  induction l generalizing s with
  | nil => rfl
  | cons k l ih =>
    obtain ⟨other, absent⟩ := not_or.1 (mt List.mem_cons.2 absent)
    exact (ih absent (s.reply k r)).trans (reply_mboxes_other s other r)

theorem audSettle_frame (s : State) : ∃ b p g, s.audSettle = { s with mboxes := b, pcie := p, glb := g } := replyAll_frame s _ _

/-- A mailbox whose AUD_PORT_START or AUD_PORT_STOP names a port that has not started or not stopped stays as it is (R434). -/
theorem audSettle_waiting {k : Taken} {x : InFlight} (taken : s.mboxes[m].taken = some k) (flight : s.mboxes[m].flight = some x)
    {n : Fin 5} (named : bit (x.args.getD 0 0) n.val = true)
    (waits : k.command = 0x0601 ∧ s.aud.port[n].running = false ∨ k.command = 0x0602 ∧ s.aud.port[n].running = true) :
    s.audSettle.mboxes[m] = s.mboxes[m] := by
  unfold State.audSettle
  refine replyAll_mboxes_other (fun ready => ?_) s _
  obtain ⟨-, ready⟩ := List.mem_filter.1 ready
  simp only [taken, flight, Option.map_some, Option.getD_some, Bool.or_eq_true, Bool.and_eq_true, decide_eq_true_eq,
    List.all_eq_true, List.mem_filter, List.mem_finRange, true_and] at ready
  rcases waits with ⟨start, idle⟩ | ⟨stop, running⟩
  · rcases ready with ⟨-, all⟩ | ⟨stop, -⟩
    · exact Bool.false_ne_true (idle.symm.trans (all n named))
    · exact absurd (start.symm.trans stop) (by decide)
  · rcases ready with ⟨start, -⟩ | ⟨-, all⟩
    · exact absurd (start.symm.trans stop) (by decide)
    · obtain ⟨stopped, -⟩ := all n named
      rw [running] at stopped
      cases stopped

/-- A command that waits for ports stays BUSY; beside mailboxes and interrupts nothing changes (R405, R434). -/
theorem fly_audSettle {k : Taken} {mask : Nat} (taken : s.mboxes[m].taken = some k) {n : Fin 5} (named : bit mask n.val = true)
    (waits : k.command = 0x0601 ∧ s.aud.port[n].running = false ∨ k.command = 0x0602 ∧ s.aud.port[n].running = true) :
    (s.fly m 1 [mask] []).audSettle.mboxes[m] = { s.mboxes[m] with flight := some ⟨1, [mask], []⟩ } ∧
      ∃ b p g, (s.fly m 1 [mask] []).audSettle = { s with mboxes := b, pcie := p, glb := g } := by
  have flying : (s.fly m 1 [mask] []).mboxes[m] = { s.mboxes[m] with flight := some ⟨1, [mask], []⟩ } := modMbox_same s m _
  refine ⟨(audSettle_waiting (k := k) ?_ (congrArg Mbox.flight flying) named waits).trans flying, ?_⟩
  · rw [flying]
    exact taken
  · exact audSettle_frame (s.fly m 1 [mask] [])

end Sys2Proof.Proofs
end

section
/-! SUPPORT. AUD_PORT_START, AUD_PORT_STOP, AUD_PORT_RESTART and AUD_CHAN_SET (R328, R334, R341, R347, R353, R358, R434, R435). -/

namespace Sys2Proof.Proofs
open Sys2Proof.Machine Sys2Proof.Laws

variable {s : State} {m : Fin 8} {ctx : Nat} {p : List Byte}

/-- Checks of which none fails. -/
theorem find_passed {l : List (Bool × Reply)} (passed : ∀ x ∈ l, x.1 = false) : l.find? (fun x => x.1) = none :=
  List.find?_eq_none.2 fun x mem failed => Bool.false_ne_true ((passed x mem).symm.trans failed)

/-- Of the ports those not of the mask, and package DRAM, clusters, runs and configuration, are as they were. -/
def OtherPorts (mask : Nat) (s t : State) : Prop :=
  (∀ n : Fin 5, bit mask n.val = false → t.aud.port[n] = s.aud.port[n]) ∧ t.dram = s.dram ∧ t.clusters = s.clusters ∧
    t.sched = s.sched ∧ t.cfg = s.cfg

theorem not_mem_maskPorts {mask : Nat} {n : Fin 5} (absent : bit mask n.val = false) : n ∉ maskPorts mask :=
  fun mem => Bool.false_ne_true (absent.symm.trans (mem_maskPorts.1 mem))

theorem PortsBecome.otherPorts {mask : Nat} {g : Fin 5 → Port → Port} {u : State} (h : PortsBecome (maskPorts mask) g s u) :
    OtherPorts mask s u := by
  obtain ⟨rest, -, others⟩ := h
  exact ⟨fun n absent => others n (not_mem_maskPorts absent), (congrArg State.dram rest :), (congrArg State.clusters rest :),
    (congrArg State.sched rest :), (congrArg State.cfg rest :)⟩

/-! ### AUD_PORT_START -/

/-- An AUD_PORT_START of legal fields, of idle ports with keys, all of one domain (R434). -/
structure StartsPorts (s : State) (m : Fin 8) (ctx : Nat) (p : List Byte) : Prop where
  taken : s.holdsTaken m 0x0601 ctx p
  some_ : 1 ≤ field p 0 1
  known : field p 0 1 ≤ 0x1F
  reserved : field p 1 7 = 0
  ports : ∀ n : Fin 5, bit (field p 0 1) n.val = true →
    s.aud.port[n].live = false ∧ ((s.portCfg n).inMask ≠ 0 ∨ (s.portCfg n).outMask ≠ 0) ∧
      ∀ k : Fin 5, bit (field p 0 1) k.val = true → (s.portCfg k).apll = (s.portCfg n).apll

/-- The APLLs of the ports that a mask names. -/
def askedAplls (s : State) (mask : Nat) : List Nat := ((maskPorts mask).map (fun n => (s.portCfg n).apll)).eraseDups

theorem length_eraseDups_le_one {l : List Nat} (same : ∀ a ∈ l, ∀ b ∈ l, a = b) : l.eraseDups.length ≤ 1 := by
  cases l with
  | nil => exact Nat.zero_le 1
  | cons a l =>
    have none_left : l.filter (fun b => !b == a) = [] :=
      List.filter_eq_nil_iff.2 fun b mem => by simp [same b (List.mem_cons_of_mem a mem) a List.mem_cons_self]
    rw [List.eraseDups_cons, none_left]
    exact Nat.le_refl 1

theorem StartsPorts.one_apll (h : StartsPorts s m ctx p) : (askedAplls s (field p 0 1)).length ≤ 1 := by
  refine length_eraseDups_le_one fun a ha b hb => ?_
  obtain ⟨n, hn, rfl⟩ := List.mem_map.1 ha
  obtain ⟨k, hk, rfl⟩ := List.mem_map.1 hb
  obtain ⟨-, -, same⟩ := h.ports k (mem_maskPorts.1 hk)
  exact same n (mem_maskPorts.1 hn)

/-- An APLL of a list starts where no port uses it (R328). -/
def startUnused (aplls : List Nat) (s : State) (a : Fin 2) : State :=
  if decide (a.val ∈ aplls) && !s.aud.port.toList.any (fun (p : Port) => p.live && decide (p.cfg.apll = a.val)) then
    s.startApll a
  else s

/-- An APLL just started: unlocked, its loop at rest (R328). -/
def Restarted (x : Apll) : Prop := x.started = true ∧ x.w = 0 ∧ x.integ = 0 ∧ x.locked = false

theorem startApll_restarts (s : State) (a : Fin 2) : Restarted (s.startApll a).aud.apll[a] := by
  unfold State.startApll
  rw [modApll_same]
  exact ⟨rfl, rfl, rfl, rfl⟩

theorem startUnused_frame (aplls : List Nat) (s : State) (a : Fin 2) :
    ∃ v, startUnused aplls s a = { s with aud := { s.aud with apll := v } } := by
  unfold startUnused
  split
  · exact ⟨_, rfl⟩
  · exact ⟨s.aud.apll, rfl⟩

theorem startUnused_restarts {aplls : List Nat} {a : Fin 2} (asked : a.val ∈ aplls)
    (unused : ∀ k : Fin 5, s.aud.port[k].live = true → s.aud.port[k].cfg.apll ≠ a.val) :
    Restarted (startUnused aplls s a).aud.apll[a] := by
  have idle : s.aud.port.toList.any (fun (p : Port) => p.live && decide (p.cfg.apll = a.val)) = false := by
    refine List.any_eq_false.2 fun x mem used => ?_
    obtain ⟨k, bound, rfl⟩ := Vector.getElem_of_mem (Vector.mem_toList_iff.1 mem)
    obtain ⟨live, apll⟩ := Bool.and_eq_true_iff.1 used
    exact unused ⟨k, bound⟩ live (of_decide_eq_true apll)
  unfold startUnused
  rw [if_pos (by rw [decide_eq_true asked, idle]; rfl)]
  exact startApll_restarts s a

theorem startUnused_keeps {a b : Fin 2} (other : a ≠ b) (aplls : List Nat) (s : State) :
    (startUnused aplls s b).aud.apll[a] = s.aud.apll[a] := by
  unfold startUnused
  split
  · exact modApll_other s other _
  · rfl

/-- The state once the unused APLLs of a list have started. -/
def apllsStarted (aplls : List Nat) (s : State) : State := (List.finRange 2).foldl (startUnused aplls) s

theorem apllsStarted_frame (aplls : List Nat) (s : State) :
    ∃ v, apllsStarted aplls s = { s with aud := { s.aud with apll := v } } :=
  foldl_frame (fun s t : State => ∃ v, t = { s with aud := { s.aud with apll := v } }) (fun s => ⟨s.aud.apll, rfl⟩)
    (by rintro _ _ _ ⟨_, rfl⟩ ⟨v, rfl⟩; exact ⟨v, rfl⟩) _ (startUnused_frame aplls) _ s

theorem apllsStarted_restarts {aplls : List Nat} {a : Fin 2} (asked : a.val ∈ aplls)
    (unused : ∀ k : Fin 5, s.aud.port[k].live = true → s.aud.port[k].cfg.apll ≠ a.val) :
    Restarted (apllsStarted aplls s).aud.apll[a] := by
  change Restarted (startUnused aplls (startUnused aplls s 0) 1).aud.apll[a]
  match a with
  | 0 =>
    rw [startUnused_keeps (by decide)]
    exact startUnused_restarts asked unused
  | 1 =>
    refine startUnused_restarts asked ?_
    obtain ⟨v, frame⟩ := startUnused_frame aplls s 0
    rw [frame]
    exact unused

/-- A port due to start after a time, with its keys and every gain 1.0 (R334, R341, R358). -/
def portDue (s : State) (after : Nat) (n : Fin 5) (x : Port) : Port :=
  { Port.reset with
    cfg := s.portCfg n, startAfter := some after, gainIn := List.replicate 32 0x1000, gainOut := List.replicate 32 0x1000,
    err := x.err, inSlips := x.inSlips, outSlips := x.outSlips, lastSeq := x.lastSeq }

/-- The state with the ports of a mask due to start. -/
def portsDue (s : State) (mask after : Nat) : State :=
  (maskPorts mask).foldl (fun u n => u.modAud n (portDue s after n)) (apllsStarted (askedAplls s mask) s)

theorem exec_audPortStart (h : StartsPorts s m ctx p) :
    exec (.audPortStart m) s = .next (State.fly (portsDue s (field p 0 1) (field p 8 8)) m 1 [field p 0 1] []).audSettle := by
  change execAudPortStart m s = _
  unfold execAudPortStart
  rw [withTaken_holdsTaken h.taken]
  dsimp only
  rw [find_passed]
  · rfl
  · simp only [List.forall_mem_cons, List.not_mem_nil]
    refine ⟨decide_eq_false (Nat.not_lt.2 h.known), decide_eq_false (not_not.2 h.reserved),
      List.any_eq_false.2 fun n mem bad => ?_, decide_eq_false (Nat.not_lt.2 h.one_apll), fun _ h => h.elim⟩
    obtain ⟨idle, keys, -⟩ := h.ports n (mem_maskPorts.1 mem)
    rw [idle, Bool.false_or, Bool.and_eq_true_iff] at bad
    obtain ⟨noIn, noOut⟩ := bad
    exact keys.elim (fun some_ => some_ (of_decide_eq_true noIn)) (fun some_ => some_ (of_decide_eq_true noOut))

/-- AUD_PORT_START leaves its ports due, with the APLLs they are the first to use started, and its command BUSY. -/
theorem audPortStart_due (h : StartsPorts s m ctx p) :
    ∃ t, exec (.audPortStart m) s = .next t ∧ OtherPorts (field p 0 1) s t ∧
      t.mboxes[m] = { s.mboxes[m] with flight := some ⟨1, [field p 0 1], []⟩ } ∧
      ∀ n : Fin 5, bit (field p 0 1) n.val = true → t.aud.port[n] = portDue s (field p 8 8) n s.aud.port[n] ∧
        ∀ a : Fin 2, (s.portCfg n).apll = a.val →
          (∀ k : Fin 5, s.aud.port[k].live = true → s.aud.port[k].cfg.apll ≠ a.val) → Restarted t.aud.apll[a] := by
  obtain ⟨v, aplls⟩ := apllsStarted_frame (askedAplls s (field p 0 1)) s
  have due : PortsBecome (maskPorts (field p 0 1)) (portDue s (field p 8 8)) _ (portsDue s (field p 0 1) (field p 8 8)) :=
    foldl_portsBecome (maskPorts_nodup _) _ fun _ _ _ _ _ => rfl
  have restarted {n : Fin 5} (named : bit (field p 0 1) n.val = true) {a : Fin 2} (domain : (s.portCfg n).apll = a.val) :=
    apllsStarted_restarts (s := s) (aplls := askedAplls s (field p 0 1)) (a := a)
      (List.mem_eraseDups.2 (List.mem_map.2 ⟨n, mem_maskPorts.2 named, domain⟩))
  have executed := exec_audPortStart h
  rw [aplls] at due restarted
  obtain ⟨n, named⟩ := exists_named h.some_ h.known
  have idle : (portsDue s (field p 0 1) (field p 8 8)).aud.port[n].running = false := by
    rw [due.named n (mem_maskPorts.2 named)]
    rfl
  obtain ⟨busy, b, q, g, frame⟩ := fly_audSettle (s := portsDue s (field p 0 1) (field p 8 8)) (k := ⟨0x0601, ctx, p⟩)
    (m := m) (by rw [due.rest]; exact h.taken.1) named (.inl ⟨rfl, idle⟩)
  refine ⟨_, executed, ?_, by rw [busy, due.rest], fun n named => ?_⟩
  · rw [frame]
    exact due.otherPorts
  · rw [frame]
    refine ⟨due.named n (mem_maskPorts.2 named), fun a domain unused => ?_⟩
    rw [due.rest]
    exact restarted named domain unused

/-! ### AUD_PORT_STOP -/

/-- A port that stops at its block boundary (R434). -/
def marked (_ : Fin 5) (x : Port) : Port := { x with stopping := true }

/-- Running ports are marked; others stop at once (R434). -/
def stopOrMark (s : State) (n : Fin 5) : State := if s.aud.port[n].running then s.modAud n (marked n) else s.stopPort n false

theorem exec_audPortStop (taken : s.holdsTaken m 0x0602 ctx p) (known : field p 0 1 ≤ 0x1F) (reserved : field p 1 7 = 0)
    (running : ∀ n : Fin 5, bit (field p 0 1) n.val = true → s.aud.port[n].running = true) :
    exec (.audPortStop m) s =
      .next (State.fly ((maskPorts (field p 0 1)).foldl stopOrMark s) m 1 [field p 0 1] []).audSettle := by
  change execAudPortStop m s = _
  unfold execAudPortStop
  rw [withTaken_holdsTaken taken]
  dsimp only
  rw [find_passed]
  · rfl
  · simp only [List.forall_mem_cons, List.not_mem_nil]
    refine ⟨decide_eq_false (Nat.not_lt.2 known), decide_eq_false (not_not.2 reserved), List.any_eq_false.2 fun n mem bad => ?_,
      fun _ h => h.elim⟩
    simp only [Port.live, running n (mem_maskPorts.1 mem), Bool.true_or, Bool.not_true] at bad
    cases bad

/-- AUD_PORT_STOP marks running ports, and its command stays BUSY. -/
theorem audPortStop_marks (taken : s.holdsTaken m 0x0602 ctx p) (some_ : 1 ≤ field p 0 1) (known : field p 0 1 ≤ 0x1F)
    (reserved : field p 1 7 = 0) (running : ∀ n : Fin 5, bit (field p 0 1) n.val = true → s.aud.port[n].running = true) :
    ∃ t, exec (.audPortStop m) s = .next t ∧ OtherPorts (field p 0 1) s t ∧
      t.mboxes[m] = { s.mboxes[m] with flight := some ⟨1, [field p 0 1], []⟩ } ∧
      ∀ n : Fin 5, bit (field p 0 1) n.val = true → t.aud.port[n] = marked n s.aud.port[n] := by
  have stopped : PortsBecome (maskPorts (field p 0 1)) marked s ((maskPorts (field p 0 1)).foldl stopOrMark s) :=
    foldl_portsBecome (maskPorts_nodup _) s fun u n mem _ port =>
      if_pos ((congrArg Port.running port).trans (running n (mem_maskPorts.1 mem)))
  obtain ⟨n, named⟩ := exists_named some_ known
  have still : ((maskPorts (field p 0 1)).foldl stopOrMark s).aud.port[n].running = true := by
    rw [stopped.named n (mem_maskPorts.2 named)]
    exact running n named
  obtain ⟨busy, b, q, g, frame⟩ := fly_audSettle (k := ⟨0x0602, ctx, p⟩) (m := m)
    (by rw [stopped.rest]; exact taken.1) named (.inr ⟨rfl, still⟩)
  refine ⟨_, exec_audPortStop taken known reserved running, ?_, by rw [busy, stopped.rest], fun n named => ?_⟩
  · rw [frame]
    exact stopped.otherPorts
  · rw [frame]
    exact stopped.named n (mem_maskPorts.2 named)

/-! ### AUD_PORT_RESTART -/

/-- A port whose restart waits for its block boundary, unless one is under way (R347). -/
def restartAsked (_ : Fin 5) (x : Port) : Port := { x with restart := if x.restart = 0 then 1 else x.restart }

/-- The state with the restarts of a mask's ports asked for. -/
def restartsAsked (s : State) (mask : Nat) : State := (maskPorts mask).foldl (fun u n => u.modAud n (restartAsked n)) s

theorem exec_audPortRestart (taken : s.holdsTaken m 0x0603 ctx p) (known : field p 0 1 ≤ 0x1F) (reserved : field p 1 7 = 0)
    (slaves : ∀ n : Fin 5, bit (field p 0 1) n.val = true → s.aud.port[n].running = true ∧ s.aud.port[n].cfg.slave = true) :
    exec (.audPortRestart m) s = .next ((restartsAsked s (field p 0 1)).reply m (ok [])) := by
  change execAudPortRestart m s = _
  unfold execAudPortRestart
  rw [answer_holdsTaken taken]
  dsimp only
  rw [checked_of_passed]
  · rfl
  · simp only [List.forall_mem_cons, List.not_mem_nil]
    refine ⟨decide_eq_false (Nat.not_lt.2 known), decide_eq_false (not_not.2 reserved), List.any_eq_false.2 fun n mem bad => ?_,
      fun _ h => h.elim⟩
    obtain ⟨running, slave⟩ := slaves n (mem_maskPorts.1 mem)
    rw [running, slave] at bad
    cases bad

/-- AUD_PORT_RESTART is answered at once and starts the restarts of its slaves. -/
theorem audPortRestart_restarts (taken : s.holdsTaken m 0x0603 ctx p) (known : field p 0 1 ≤ 0x1F) (reserved : field p 1 7 = 0)
    (slaves : ∀ n : Fin 5, bit (field p 0 1) n.val = true → s.aud.port[n].running = true ∧ s.aud.port[n].cfg.slave = true) :
    ∃ t, exec (.audPortRestart m) s = .next t ∧ s.replied t m (ok []) ∧ OtherPorts (field p 0 1) s t ∧
      ∀ n : Fin 5, bit (field p 0 1) n.val = true → t.aud.port[n] = restartAsked n s.aud.port[n] := by
  have asked : PortsBecome (maskPorts (field p 0 1)) restartAsked s (restartsAsked s (field p 0 1)) :=
    foldl_portsBecome (maskPorts_nodup _) s fun _ _ _ _ _ => rfl
  obtain ⟨t, executed, replied, left⟩ :=
    replied_of_reply (exec_audPortRestart taken known reserved slaves) (congrArg State.mboxes asked.rest :)
  refine ⟨t, executed, replied, ?_, fun n named => ?_⟩
  · rw [left]
    exact asked.otherPorts
  · rw [left]
    exact asked.named n (mem_maskPorts.2 named)

/-! ### AUD_CHAN_SET -/

/-- The slots of a direction of a port. -/
def ownSlots (c : PortCfg) (out : Bool) : Nat := if out then c.outMask else c.inMask

theorem muteField_eq (p : List Byte) (i : Nat) : field p (8 + 4 * i + 2) 1 = field p (10 + 4 * i) 1 := by
  rw [Nat.add_right_comm]

theorem reservedField_eq (p : List Byte) (i : Nat) : field p (8 + 4 * i + 3) 1 = field p (11 + 4 * i) 1 := by
  rw [Nat.add_right_comm]

/-- The change that an AUD_CHAN_SET asks for slot `k`, the `i`th it names (R353, R435). -/
def askedChange (s : State) (n : Fin 5) (out : Bool) (p : List Byte) (k i : Nat) : ZcPend :=
  { out := out, pos := ((maskSlots (ownSlots s.aud.port[n].cfg out)).filter (fun j => j < k)).length,
    gain := field p (8 + 4 * i) 2, mute := decide (field p (8 + 4 * i + 2) 1 = 1),
    deadline := s.now + s.aud.port[n].cfg.zcTimeout * 100000, forced := false }

/-- The changes an AUD_CHAN_SET asks for. -/
def askedChanges (s : State) (n : Fin 5) (out : Bool) (p : List Byte) : List ZcPend :=
  (maskSlots (field p 4 4)).zipIdx.map (fun x => askedChange s n out p x.1 x.2)

/-- A change of a list has the position of this one. -/
def replacedBy (new : List ZcPend) (z : ZcPend) : Bool := new.any (fun y => y.out = z.out && y.pos = z.pos)

/-- A port with new changes in the place of those of their positions (R353). -/
def changesEntered (new : List ZcPend) (x : Port) : Port :=
  { x with pend := x.pend.filter (fun z => !replacedBy new z) ++ new }

/-- An AUD_CHAN_SET of legal fields, of slots that the port has (R435). -/
structure SetsChannels (s : State) (m : Fin 8) (ctx : Nat) (p : List Byte) (n : Fin 5) : Prop where
  taken : s.holdsTaken m 0x0604 ctx p
  port : field p 0 1 = n.val
  direction : field p 1 1 ≤ 1
  pdm : n ≠ 4 ∨ decide (field p 1 1 = 1) = false
  reserved : field p 2 2 = 0
  settings : ∀ i, i < (maskSlots (field p 4 4)).length → field p (10 + 4 * i) 1 ≤ 1 ∧ field p (11 + 4 * i) 1 = 0
  slots : ∀ k ∈ maskSlots (field p 4 4), bit (ownSlots s.aud.port[n].cfg (decide (field p 1 1 = 1))) k = true

theorem exec_audChanSet {n : Fin 5} (h : SetsChannels s m ctx p n) :
    exec (.audChanSet m) s = .next (
      (s.modAud n (changesEntered (askedChanges s n (decide (field p 1 1 = 1)) p))).reply m
        ⟨if s.aud.port[n].pend.any (replacedBy (askedChanges s n (decide (field p 1 1 = 1)) p)) then 0x4004 else 0, []⟩) := by
  obtain rfl : Fin.ofNat 5 (field p 0 1) = n := Fin.ext ((congrArg (· % 5) h.port).trans (Nat.mod_eq_of_lt n.isLt))
  change execAudChanSet m s = _
  unfold execAudChanSet
  rw [answer_holdsTaken h.taken]
  dsimp only
  rw [checked_of_passed]
  · rfl
  · simp only [List.forall_mem_cons, List.not_mem_nil]
    refine ⟨decide_eq_false (by have := h.port; omega), ?direction, decide_eq_false (not_not.2 h.reserved), ?settings, ?slots,
      fun _ h => h.elim⟩
    case direction =>
      rw [decide_eq_false (Nat.not_lt.2 h.direction), Bool.false_or, Bool.and_eq_false_iff, decide_eq_false_iff_not]
      exact h.pdm
    case settings =>
      refine Option.isSome_eq_false_iff.2 (Option.isNone_iff_eq_none.2 (List.find?_eq_none.2 fun i mem bad => ?_))
      obtain ⟨mute, reserved⟩ := h.settings i (List.mem_range.1 mem)
      rw [muteField_eq, reservedField_eq, decide_eq_false (Nat.not_lt.2 mute), decide_eq_false (not_not.2 reserved)] at bad
      cases bad
    case slots =>
      refine List.any_eq_false.2 fun k mem bad => ?_
      have own := h.slots k mem
      unfold ownSlots at own
      rw [own] at bad
      cases bad

/-- AUD_CHAN_SET enters one change for each slot it names; gains and mutes in force stay. -/
theorem audChanSet_enters {n : Fin 5} (h : SetsChannels s m ctx p n) :
    ∃ t st, exec (.audChanSet m) s = .next t ∧ (st = 0 ∨ st = 0x4004) ∧ s.replied t m ⟨st, []⟩ ∧
      t = { s.modAud n (changesEntered (askedChanges s n (decide (field p 1 1 = 1)) p)) with
        mboxes := t.mboxes, glb := t.glb, pcie := t.pcie } := by
  obtain ⟨t, executed, replied, left⟩ := replied_of_reply (exec_audChanSet h) rfl
  refine ⟨t, _, executed, ?_, replied, left⟩
  split
  · exact .inr rfl
  · exact .inl rfl

theorem mem_changesEntered {i k : Nat} (named : (maskSlots (field p 4 4))[i]? = some k) (s : State) (n : Fin 5) (out : Bool)
    (x : Port) : askedChange s n out p k i ∈ (changesEntered (askedChanges s n out p) x).pend :=
  List.mem_append_right _ (List.mem_map.2 ⟨(k, i), List.mk_mem_zipIdx_iff_getElem?.2 named, rfl⟩)

end Sys2Proof.Proofs
end

section
/-! The obligation of the port commands. -/

namespace Sys2Proof.Proofs
open Sys2Proof.Machine

/-- Settles O29: START and STOP by what their ports become and the command that waits for them, RESTART and CHAN_SET by what the
state is before the reply. -/
theorem audioPortsAreCommanded : Obligations.AudioPortsAreCommanded := by
  refine fun s m ctx p => ⟨?start, fun taken some_ known reserved running => audPortStop_marks taken some_ known reserved running,
    fun taken known reserved slaves => audPortRestart_restarts taken known reserved slaves, ?channels⟩
  case start =>
    intro taken some_ known reserved ports
    obtain ⟨t, executed, others, busy, due⟩ := audPortStart_due ⟨taken, some_, known, reserved, ports⟩
    refine ⟨t, executed, others, busy, fun n named => ?_⟩
    obtain ⟨port, aplls⟩ := due n named
    rw [port]
    exact ⟨rfl, rfl, rfl, rfl, aplls⟩
  case channels =>
    intro n out own taken port direction pdm reserved settings slots
    obtain ⟨t, st, executed, status, replied, left⟩ :=
      audChanSet_enters ⟨taken, port, direction, pdm, reserved, settings, slots⟩
    have entered : t.aud.port[n] = _ := (congrArg (fun u : State => u.aud.port[n]) left).trans (modAud_same s n _)
    refine ⟨t, st, executed, status, replied, by rw [entered]; rfl, fun k other => ?_,
      (congrArg (fun u : State => u.aud.apll) left :), (congrArg State.dram left :), (congrArg State.clusters left :),
      fun i k named => ?_⟩
    · exact (congrArg (fun u : State => u.aud.port[k]) left).trans (modAud_other s other _)
    · refine ⟨askedChange s n out p k i, ?_, rfl, rfl, rfl, ?_⟩
      · rw [entered]
        exact mem_changesEntered named s n out _
      · rw [← muteField_eq]
        rfl

end Sys2Proof.Proofs
end

section
/-! SUPPORT. Edges and slots of running TDM ports (R332, R333, R346 to R351), and zero-crossing timeouts (R353). -/

namespace Sys2Proof.Proofs
open Sys2Proof.Machine Sys2Proof.Laws

variable {s : State} {n : Fin 4} {i : Fin 5}

/-- TDM port n, port i of the audio ports, runs with AUDIO powered. -/
structure TdmRuns (s : State) (n : Fin 4) (i : Fin 5) : Prop where
  place : Fin.ofNat 5 n.val = i
  on : s.on 2 = true
  running : s.aud.port[i].running = true

theorem TdmRuns.of_val (place : i.val = n.val) (on : s.on 2 = true) (running : s.aud.port[i].running = true) : TdmRuns s n i :=
  ⟨Fin.ext ((Nat.mod_eq_of_lt (by omega)).trans place.symm), on, running⟩

/-- Port i becomes `x`, no other port changes, and code `code` with the port's number is reported. -/
def PortReports (n : Fin 4) (i : Fin 5) (code : Nat) (s t : State) (x : Port) : Prop :=
  PortBecomes i s t x ∧ s.reports t code 0 (0x10 + n.val) false (leBytes 1 n.val)

section
variable (h : TdmRuns s n i)
include h

/-! ### FS edges -/

theorem exec_tdmFsEdge (slave : s.aud.port[i].cfg.slave = true) : exec (.tdmFsEdge n) s = .next (
    if s.aud.port[i].noClock then
      ((s.modAud i (fun p => { p with noClock := false, restart := 1, silent := true, lastFs := s.now })).portClock n).event
        0x0503 0 (0x10 + n.val) false (leBytes 1 n.val)
    else (s.modAud i (fun p => { p with lastFs := s.now, restart := if p.restart = 2 then 3 else p.restart })).portClock n) := by
  obtain ⟨rfl, on, running⟩ := h
  exact congrArg Host.Outcome.next (if_neg (by rw [on, running, slave]; decide))

/-- An external frame begins: it is stamped (R348). -/
theorem tdmFsEdge_stamps (slave : s.aud.port[i].cfg.slave = true) (clock : s.aud.port[i].noClock = false) :
    ∃ t, exec (.tdmFsEdge n) s = .next t ∧ PortBecomes i s t { s.aud.port[i] with
      lastFs := s.now, restart := if s.aud.port[i].restart = 2 then 3 else s.aud.port[i].restart } :=
  ⟨_, (exec_tdmFsEdge h slave).trans (congrArg Host.Outcome.next (if_neg (by rw [clock]; decide))),
    (modAud_becomes s i _).portClock n⟩

/-- The clock is back (R329, R351). -/
theorem tdmFsEdge_clockBack (slave : s.aud.port[i].cfg.slave = true) (lost : s.aud.port[i].noClock = true) :
    ∃ t, exec (.tdmFsEdge n) s = .next t ∧ PortReports n i 0x0503 s t
      { s.aud.port[i] with noClock := false, restart := 1, silent := true, lastFs := s.now } :=
  ⟨_, (exec_tdmFsEdge h slave).trans (congrArg Host.Outcome.next (if_pos lost)),
    ((modAud_becomes s i _).portClock n).reports (event_onlyReports _ _ _ _ _ _),
    ((modAud_sameReporting s i _).trans (portClock_sameReporting _ n)).reports _ _ _ _ _⟩

/-! ### Input slots -/

section
variable {slot : Fin 32} (own : bit s.aud.port[i].cfg.inMask slot.val = true) (w : W32)
include own

/-- A master holds the word of a slot with its time (R333). -/
theorem tdmSlotReceived_held (master : s.aud.port[i].cfg.slave = false)
    (whole : s.aud.port[i].inBuf.length = s.aud.port[i].cfg.eIn) :
    ∃ t, exec (.tdmSlotReceived n slot w) s = .next t ∧ PortBecomes i s t { s.aud.port[i] with
      inBuf := setAt s.aud.port[i].inBuf ((maskSlots s.aud.port[i].cfg.inMask).filter (fun x => x < slot.val)).length
        (w, s.now) } := by
  obtain ⟨rfl, on, running⟩ := h
  refine ⟨_, congrArg Host.Outcome.next ((if_neg (by rw [on, running, own]; decide)).trans
    (if_pos (by rw [master]; decide))), ?_⟩
  have held := modAud_becomes s (Fin.ofNat 5 n.val) (fun p =>
    { p with
      inBuf := setAt (p.inBuf ++ List.replicate (p.cfg.eIn - p.inBuf.length) (0, 0))
        ((maskSlots s.aud.port[Fin.ofNat 5 n.val].cfg.inMask).filter (fun x => x < slot.val)).length (w, s.now) })
  simpa only [whole, Nat.sub_self, List.replicate_zero, List.append_nil] using held

/-- The word of a slave's slot joins its input buffer (R348). -/
theorem tdmSlotReceived_buffered (slave : s.aud.port[i].cfg.slave = true) (clock : s.aud.port[i].noClock = false)
    (reading : s.aud.port[i].restart = 0) (room : s.aud.port[i].inBuf.length < 8 * s.aud.port[i].cfg.eIn) :
    ∃ t, exec (.tdmSlotReceived n slot w) s = .next t ∧
      PortBecomes i s t { s.aud.port[i] with inBuf := s.aud.port[i].inBuf ++ [(w, s.aud.port[i].lastFs)] } := by
  obtain ⟨rfl, on, running⟩ := h
  exact ⟨_, congrArg Host.Outcome.next ((if_neg (by rw [on, running, own]; decide)).trans ((if_neg (by rw [slave]; decide)).trans
    ((if_neg (by rw [clock, reading]; simp)).trans (if_neg (Nat.not_le.2 room))))), modAud_becomes s _ _⟩

end

/-! ### Output slots -/

/-- A port whose DO carried `w` in a slot, or was high impedance there. -/
def carried (slot : Fin 32) (w : Option W32) (p : Port) : Port := { p with lastOut := setAt p.lastOut slot.val w }

variable {slot : Fin 32}

/-- A slot not of the port (R332). -/
theorem tdmOutputSlotDue_foreign (foreign : bit s.aud.port[i].cfg.outMask slot.val = false) :
    ∃ t, exec (.tdmOutputSlotDue n slot) s = .next t ∧
      PortBecomes i s t (carried slot (if s.aud.port[i].cfg.hiz then none else some 0) s.aud.port[i]) := by
  obtain ⟨rfl, on, running⟩ := h
  refine ⟨_, congrArg Host.Outcome.next ((if_neg (by rw [on, running]; decide)).trans (if_pos (by rw [foreign]; decide))), ?_⟩
  split
  · exact modAud_becomes s _ (carried slot none)
  · exact modAud_becomes s _ (carried slot (some 0))

section
variable (own : bit s.aud.port[i].cfg.outMask slot.val = true)
include own

/-- A master carries the word its FIFO took for the slot (R346, R349). -/
theorem tdmOutputSlotDue_master (master : s.aud.port[i].cfg.slave = false) (active : s.active = true)
    (whole : s.aud.port[i].outBuf.length = 4 * s.aud.port[i].cfg.eOut) :
    ∃ t, exec (.tdmOutputSlotDue n slot) s = .next t ∧ PortBecomes i s t (carried slot
      (some (s.aud.port[i].outBuf.getD ((maskSlots s.aud.port[i].cfg.outMask).filter (fun x => x < slot.val)).length 0))
      s.aud.port[i]) := by
  obtain ⟨rfl, on, running⟩ := h
  refine ⟨_, congrArg Host.Outcome.next ((if_neg (by rw [on, running]; decide)).trans ((if_neg (by rw [own]; decide)).trans
    ((if_pos (by rw [master]; decide)).trans (congrArg (fun w => s.modAud _ (carried slot (some w)))
      (if_pos (by rw [active, decide_eq_true whole]; rfl)))))), modAud_becomes s _ (carried slot (some _))⟩

section
variable (slave : s.aud.port[i].cfg.slave = true) (loud : s.aud.port[i].quiet = false)
include slave loud

theorem exec_tdmOutputSlotDue_slave : exec (.tdmOutputSlotDue n slot) s = .next (
    match s.aud.port[i].outBuf with
    | w :: rest => (s.modAud i (fun p => { p with outBuf := rest })).modAud i (carried slot (some (if s.active then w else 0)))
    | [] => (s.slip i true false).modAud i (carried slot (some 0))) := by
  obtain ⟨rfl, on, running⟩ := h
  exact congrArg Host.Outcome.next ((if_neg (by rw [on, running]; decide)).trans ((if_neg (by rw [own]; decide)).trans
    ((if_neg (by rw [slave]; decide)).trans (if_neg (by rw [loud]; decide)))))

/-- A slave carries the oldest word (R349). -/
theorem tdmOutputSlotDue_oldest (active : s.active = true) {w : W32} {rest : List W32} (words : s.aud.port[i].outBuf = w :: rest) :
    ∃ t, exec (.tdmOutputSlotDue n slot) s = .next t ∧
      PortBecomes i s t (carried slot (some w) { s.aud.port[i] with outBuf := rest }) := by
  refine ⟨_, (exec_tdmOutputSlotDue_slave h own slave loud).trans ?_,
    (modAud_becomes s i (fun p => { p with outBuf := rest })).modAud (carried slot (some w))⟩
  rw [words, active]
  rfl

/-- A slave with no word inserts a zero, a slip (R349, R350). -/
theorem tdmOutputSlotDue_slips (empty : s.aud.port[i].outBuf = []) :
    ∃ t told, exec (.tdmOutputSlotDue n slot) s = .next t ∧
      PortBecomes i s t (carried slot (some 0) { wordInserted s.aud.port[i] with outBlk := told }) := by
  obtain ⟨told, slipped⟩ := slip_becomes s i
  refine ⟨_, told, (exec_tdmOutputSlotDue_slave h own slave loud).trans ?_, slipped.modAud (carried slot (some 0))⟩
  rw [empty]

end
end

/-! ### A lost bit clock -/

/-- A port whose bit clock is lost (R351). -/
def clockLost (p : Port) : Port :=
  { p.mark 0x08 with
    noClock := true, restart := 0, silent := false, lastOut := List.replicate 32 (some 0), inBuf := [], outBuf := [] }

/-- Four frames without a bit clock (R351). -/
theorem tdmClockLost_empties (slave : s.aud.port[i].cfg.slave = true) (clock : s.aud.port[i].noClock = false)
    (late : s.aud.port[i].lastFs * (s.aud.apll[Fin.ofNat 2 s.aud.port[i].cfg.apll]).fs + 4000000000 ≤
      s.now * (s.aud.apll[Fin.ofNat 2 s.aud.port[i].cfg.apll]).fs) :
    ∃ t, exec (.tdmClockLost n) s = .next t ∧ PortReports n i 0x0502 s t
      { clockLost s.aud.port[i] with err := (clockLost s.aud.port[i]).err ||| 0x04 } := by
  have executed : exec (.tdmClockLost n) s =
      .next (((s.modAud i clockLost).audErr i 0x04).event 0x0502 0 (0x10 + n.val) false (leBytes 1 n.val)) := by
    obtain ⟨rfl, on, running⟩ := h
    exact congrArg Host.Outcome.next (if_pos (by rw [on, running, slave, clock, decide_eq_true late]; rfl))
  exact ⟨_, executed, ((modAud_becomes s i clockLost).audErr 0x04).reports (event_onlyReports _ _ _ _ _ _),
    ((modAud_sameReporting s i clockLost).trans (audErr_sameReporting _ i 0x04)).reports _ _ _ _ _⟩

end

/-! ### Zero crossings -/

/-- A change whose timeout has passed waits for no zero crossing (R353). -/
def timedOut (now : Nat) (z : ZcPend) : ZcPend := if z.deadline ≤ now then { z with forced := true } else z

theorem exec_zcTimeout (s : State) (k : Fin 5) :
    exec (.zcTimeout k) s = .next (s.modAud k (fun p => { p with pend := p.pend.map (timedOut s.now) })) := rfl

end Sys2Proof.Proofs
end

section
/-! The obligation of TDM ports. -/

namespace Sys2Proof.Proofs
open Sys2Proof.Machine

/-- Settles O30: each command by what its port becomes. -/
theorem tdmPortsCarryWords : Obligations.TdmPortsCarryWords := by
  refine ⟨fun s n i place on running => ?port, fun s k =>
    ⟨_, exec_zcTimeout s k, rfl, fun j other => modAud_other s other _, modAud_same s k _⟩⟩
  case port =>
    have h : TdmRuns s n i := .of_val place on running
    intro p only
    refine ⟨tdmFsEdge_stamps h, ?back, fun slot w own => ⟨tdmSlotReceived_held h own w, tdmSlotReceived_buffered h own w⟩,
      fun slot => ⟨tdmOutputSlotDue_foreign h, tdmOutputSlotDue_master h, fun own slave loud active =>
        ⟨fun w rest => tdmOutputSlotDue_oldest h own slave loud active, ?slips⟩⟩, ?lost⟩
    case back =>
      intro slave lost
      obtain ⟨t, executed, ⟨kept, port⟩, reported⟩ := tdmFsEdge_clockBack h slave lost
      exact ⟨t, executed, kept, port, reported⟩
    case slips =>
      intro empty
      obtain ⟨t, told, executed, kept, port⟩ := tdmOutputSlotDue_slips h own slave loud empty
      refine ⟨t, executed, kept, ?_⟩
      rw [port]
      exact ⟨rfl, rfl, by simp [carried, wordInserted], rfl⟩
    case lost =>
      intro slave clock late
      obtain ⟨t, executed, ⟨kept, port⟩, reported⟩ := tdmClockLost_empties h slave clock late
      refine ⟨t, executed, kept, ?_⟩
      rw [port]
      exact ⟨rfl, rfl, rfl, by simp, reported⟩

end Sys2Proof.Proofs
end

section
/-! SUPPORT. APLL strobes in FREE mode, WCLK edges and lost references (R324, R326, R328, R329, R341, R356). -/

namespace Sys2Proof.Proofs
open Sys2Proof.Machine Sys2Proof.Laws

variable {s : State} {m : Fin 2}

/-! ### Replies keep a RUN_STOP from waiting -/

theorem reply_flight (s : State) (k : Fin 8) (r : Reply) : (s.reply k r).mboxes[k].flight = none := by
  unfold State.reply State.writeReply
  dsimp only
  obtain ⟨_, _, frame⟩ := setCause_frame (s.modMbox k _) k.val
  rw [frame]
  exact congrArg Mbox.flight (modMbox_same s k _)

theorem flights_reply {f : Nat → InFlight → Bool} (idle : s.flights f = []) (k : Fin 8) (r : Reply) :
    (s.reply k r).flights f = [] := by
  unfold State.flights at *
  rw [List.filter_eq_nil_iff] at *
  intro j mem
  by_cases same : j = k
  · subst same
    rw [reply_flight]
    cases (s.reply j r).mboxes[j].taken <;> exact Bool.false_ne_true
  · rw [reply_mboxes_other s same]
    exact idle j mem

theorem flights_replyAll {f : Nat → InFlight → Bool} (idle : s.flights f = []) (l : List (Fin 8)) (r : Reply) :
    (s.replyAll l r).flights f = [] :=
  List.foldlRecOn (motive := fun u : State => u.flights f = []) l _ idle fun _ idle k _ => flights_reply idle k r

theorem audSettle_noStop (noStop : s.noStop) : s.audSettle.noStop := by
  obtain ⟨_, _, _, frame⟩ := audSettle_frame s
  exact ⟨flights_replyAll noStop.1 _ _, by rw [frame]; exact noStop.2⟩

/-! ### Ports that start -/

/-- A port that starts (R341, R358). -/
def portStarted (now : Nat) (x : Port) : Port :=
  { x with
    running := true, startAfter := none, stopping := false, restart := if x.cfg.slave then 2 else 0, silent := false,
    inBuf := [], outBuf := [], sIn := 0, sOut := 0, seq := 0, noClock := false, lastFs := now,
    inBlk := { BlkAcc.reset with stamp := now }, outBlk := { BlkAcc.reset with stamp := now }, outs := [], emit := none,
    done := [], bypassed := [],
    lastOut := (List.range 32).map (fun k => if x.cfg.hiz && !bit x.cfg.outMask k then none else some 0) }

/-- A port whose time to start has come starts; another stays. -/
def startedWhenDue (now : Nat) (_ : Fin 5) (x : Port) : Port :=
  match x.startAfter with
  | some t => if t < now then portStarted now x else x
  | none => x

theorem startedWhenDue_due {now u : Nat} {x : Port} (waits : x.startAfter = some u) (due : u < now) (n : Fin 5) :
    startedWhenDue now n x = portStarted now x := by
  unfold startedWhenDue
  rw [waits]
  exact if_pos due

/-- One port of a strobe's domain starts when its time has come (R341). -/
def startIfDue (s : State) (n : Fin 5) : State :=
  match s.aud.port[n].startAfter with
  | some t => if t < s.now then s.startPort n else s
  | none => s

theorem startDue_eq (s : State) (l : List (Fin 5)) : s.startDue l = (l.foldl startIfDue s).audSettle := rfl

theorem modAud_congr {n : Fin 5} {f g : Port → Port} (same : f s.aud.port[n] = g s.aud.port[n]) :
    s.modAud n f = s.modAud n g := by
  unfold State.modAud vmod
  rw [same]

theorem modAud_self {n : Fin 5} {f : Port → Port} (same : f s.aud.port[n] = s.aud.port[n]) : s.modAud n f = s := by
  simp only [State.modAud, vmod, same]
  simp [vset]

theorem startIfDue_eq (s : State) (n : Fin 5) : startIfDue s n = s.modAud n (startedWhenDue s.now n) := by
  unfold startIfDue
  split
  · next u waits =>
    split
    · next due => exact modAud_congr (f := portStarted s.now) (startedWhenDue_due waits due n).symm
    · next early => exact (modAud_self (by simp only [startedWhenDue, waits, if_neg early])).symm
  · next idle => exact (modAud_self (by simp only [startedWhenDue, idle])).symm

theorem foldl_startIfDue {l : List (Fin 5)} (distinct : l.Nodup) (s : State) :
    PortsBecome l (startedWhenDue s.now) s (l.foldl startIfDue s) :=
  foldl_portsBecome distinct s fun u n _ rest _ => by
    rw [startIfDue_eq]
    rw [show u.now = s.now from (congrArg State.now rest :)]

/-! ### Strobes -/

/-- An APLL in FREE mode at a strobe (R326, R328). -/
def strobed (now : Nat) (a : Apll) : Apll :=
  { a with strobes := a.strobes + 1, align := false, wclkRise := if a.drives then some now else none }

theorem modApll_congr {f g : Apll → Apll} (same : f s.aud.apll[m] = g s.aud.apll[m]) : s.modApll m f = s.modApll m g := by
  unfold State.modApll vmod
  rw [same]

theorem strobeError_free (free : s.aud.apll[m].mode = 0) : s.strobeError m = s := by
  unfold State.strobeError
  dsimp only
  rw [free]
  split <;> rfl

/-- The TDM ports of a domain. -/
def domainPorts (s : State) (m : Fin 2) : List (Fin 5) :=
  ([0, 1, 2, 3] : List (Fin 5)).filter (fun n => s.aud.port[n].cfg.apll = m.val)

theorem mem_domainPorts {n : Fin 5} : n ∈ domainPorts s m ↔ n.val < 4 ∧ s.aud.port[n].cfg.apll = m.val := by
  have tdm : ∀ n : Fin 5, n ∈ ([0, 1, 2, 3] : List (Fin 5)) ↔ n.val < 4 := by decide
  rw [domainPorts, List.mem_filter, tdm, decide_eq_true_iff]

theorem domainPorts_nodup (s : State) (m : Fin 2) : (domainPorts s m).Nodup := List.Nodup.filter _ (by decide)

section
variable (idle : ∀ n : Fin 5, s.aud.port[n].running = false) (l : List (Fin 5))
include idle

theorem filter_running_idle : l.filter (fun n => s.aud.port[n].running) = [] :=
  List.filter_eq_nil_iff.2 fun n _ running => Bool.false_ne_true ((idle n).symm.trans running)

theorem filter_not_running_idle : l.filter (fun n => !s.aud.port[n].running) = l :=
  List.filter_eq_self.2 fun n _ => congrArg not (idle n)

end

/-- An APLL in FREE mode, started, with AUDIO powered and staying so, that waits for no PDM frame, and no port that runs. -/
structure StrobesFree (s : State) (m : Fin 2) : Prop where
  on : s.on 2 = true
  started : s.aud.apll[m].started = true
  free : s.aud.apll[m].mode = 0
  stays : s.audQuiescing = false
  idle : ∀ n : Fin 5, s.aud.port[n].running = false
  atOnce : s.strobeWaits m = false

theorem exec_apllStrobe (h : StrobesFree s m) :
    exec (.apllStrobe m) s = .next ((s.modApll m (strobed s.now)).startDue (domainPorts s m)).settleStop := by
  obtain ⟨on, started, free, stays, idle, atOnce⟩ := h
  have strobe : s.modApll m (fun a =>
      { a with
        strobes := a.strobes + 1, refLost := a.refLost && !(decide (a.mode = 3) && !s.timeUnlocked), align := false,
        wclkRise := if a.drives then some s.now else none }) = s.modApll m (strobed s.now) :=
    modApll_congr (by simp [strobed, show s.aud.apll[m.val].mode = 0 from free])
  have unsteered : (s.modApll m (strobed s.now)).strobeError m = s.modApll m (strobed s.now) :=
    strobeError_free (by rw [modApll_same]; exact free)
  change execApllStrobe m s = _
  unfold execApllStrobe
  rw [if_neg (by rw [on, started, atOnce]; decide)]
  dsimp only
  rw [strobe, unsteered]
  rw [filter_running_idle (s := s.modApll m (strobed s.now)) idle, List.foldl_nil,
    filter_not_running_idle (s := s.modApll m (strobed s.now)) idle]
  exact congrArg (fun u : State => Host.Outcome.next u.settleStop)
    (if_neg (by rw [show (s.modApll m (strobed s.now)).audQuiescing = false from stays]; decide))

/-- A strobe counts, gives WCLK its edge and starts the ports whose time has come (R326, R341). -/
theorem apllStrobe_starts (h : StrobesFree s m) (noStop : s.noStop) :
    ∃ t, exec (.apllStrobe m) s = .next t ∧ t.aud.apll[m] = strobed s.now s.aud.apll[m] ∧
      (∀ k, k ≠ m → t.aud.apll[k] = s.aud.apll[k]) ∧ t.dram = s.dram ∧ t.clusters = s.clusters ∧
      (∀ n ∈ domainPorts s m, t.aud.port[n] = startedWhenDue s.now n s.aud.port[n]) ∧
      ∀ n, n ∉ domainPorts s m → t.aud.port[n] = s.aud.port[n] := by
  obtain ⟨rest, due, others⟩ := foldl_startIfDue (domainPorts_nodup s m) (s.modApll m (strobed s.now))
  have settled := settleStop_of_noStop (audSettle_noStop (s := (domainPorts s m).foldl startIfDue (s.modApll m (strobed s.now)))
    (by rw [rest]; exact noStop))
  obtain ⟨_, _, _, frame⟩ := audSettle_frame ((domainPorts s m).foldl startIfDue (s.modApll m (strobed s.now)))
  have executed := exec_apllStrobe h
  rw [startDue_eq, settled, frame] at executed
  refine ⟨_, executed, ?_, fun k other => ?_, (congrArg State.dram rest :), (congrArg State.clusters rest :), due, others⟩
  · exact (congrArg (fun u : State => u.aud.apll[m]) rest).trans (modApll_same s m _)
  · exact (congrArg (fun u : State => u.aud.apll[k]) rest).trans (modApll_other s other _)

/-! ### The reference -/

/-- An APLL that sees a WCLK edge; the first after a loss begins the count anew (R324, R329). -/
def edgeSeen (now : Nat) (a : Apll) : Apll :=
  { a with
    lastEdge := now, refLost := false, edges := if a.refLost then [now] else a.edges ++ [now],
    unpaired := if a.refLost then [] else a.unpaired }

theorem edgeSeen_unpaired {a : Apll} (none_left : a.unpaired = []) (now : Nat) : (edgeSeen now a).unpaired = [] := by
  unfold edgeSeen
  rw [none_left]
  exact ite_self _

theorem pairEdges_of_none {k : Nat} (none_left : s.aud.apll[m].unpaired = []) : State.pairEdges m k s = s := by
  cases k with
  | zero => rfl
  | succ k =>
    unfold State.pairEdges
    dsimp only
    rw [none_left]

/-- With no strobe left to pair, a WCLK edge is kept (R324). -/
theorem exec_wclkEdge (on : s.on 2 = true) (started : s.aud.apll[m].started = true) (follows : s.aud.apll[m].mode = 2)
    (none_left : s.aud.apll[m].unpaired = []) : exec (.wclkEdge m) s = .next (s.modApll m (edgeSeen s.now)) := by
  have kept : State.pairEdges m 1 (s.modApll m (edgeSeen s.now)) = s.modApll m (edgeSeen s.now) :=
    pairEdges_of_none (by rw [modApll_same]; exact edgeSeen_unpaired none_left s.now)
  exact congrArg Host.Outcome.next ((if_pos (by rw [on, started, follows]; rfl)).trans kept)

/-- An APLL whose reference is lost (R329). -/
def referenceLost (a : Apll) : Apll :=
  { a with refLost := true, locked := false, unpaired := [], edges := [], errSum := 0, errN := 0 }

theorem exec_apllRefLost (on : s.on 2 = true) (started : s.aud.apll[m].started = true) (followed : s.aud.apll[m].refLost = false)
    (gone : s.refGone m = true) : exec (.apllRefLost m) s = .next (s.modApll m referenceLost) :=
  congrArg Host.Outcome.next (if_pos (by rw [on, started, followed, gone]; rfl))

end Sys2Proof.Proofs
end

section
/-! SUPPORT. Frames of the PDM group (R355, R356) and the VAUX supply (R357). -/

namespace Sys2Proof.Proofs
open Sys2Proof.Machine Sys2Proof.Laws

variable {s : State}

/-! ### Frames -/

/-- A change that comes into force, a gain and a mute leave the count of frames of the open input block (R353). -/
theorem gainAt_inFrame (x : Port) (pos : Nat) (v : Int) : (x.gainAt false pos v).1.inBlk.frame = x.inBlk.frame := by
  unfold Port.gainAt
  extract_lets prev change crosses slot changed gain mute passed
  have same : changed.inBlk.frame = x.inBlk.frame := by
    clear_value change crosses slot
    subst changed
    cases change with
    | none => rfl
    | some z =>
      dsimp only
      split <;> rfl
  clear_value changed
  refine Eq.trans ?_ same
  dsimp only [passed]
  split <;> rfl

theorem gainFrame_inFrame (x : Port) (vs : List Int) : (x.gainFrame false vs).1.inBlk.frame = x.inBlk.frame :=
  List.foldlRecOn (motive := fun a : Port × List Int => a.1.inBlk.frame = x.inBlk.frame) vs.zipIdx _ rfl
    fun a same v _ => (gainAt_inFrame a.1 v.2 v.1).trans same

/-- A port whose open input block has one frame more, of the values that passed its gains (R334, R337). -/
def frameAdded (flags : W16) (fill : Nat) (stamp : Option Nat) (y : Port × List Int) : Port :=
  { y.1 with
    inBlk := { y.1.inBlk with
      flags := y.1.inBlk.flags ||| flags, fill := fill, frame := y.1.inBlk.frame + 1,
      samples := y.1.inBlk.samples ++ y.1.cfg.elemBytes y.2,
      stamp := if y.1.inBlk.frame = 0 then stamp.getD y.1.inBlk.stamp else y.1.inBlk.stamp } }

theorem inFrame_eq (s : State) (n : Fin 5) (vs : List Int) (flags : W16) (fill : Nat) (stamp : Option Nat) :
    s.inFrame n vs flags fill stamp =
      (s.modAud n (fun _ => frameAdded flags fill stamp (s.aud.port[n].gainFrame false vs))).irqSync := rfl

theorem inFrame_adds (s : State) (n : Fin 5) (vs : List Int) (flags : W16) (fill : Nat) (stamp : Option Nat) :
    (s.inFrame n vs flags fill stamp).aud.port[n].inBlk.frame = s.aud.port[n].inBlk.frame + 1 := by
  obtain ⟨_, _, frame⟩ := irqSync_frame (s.modAud n (fun _ => frameAdded flags fill stamp (s.aud.port[n].gainFrame false vs)))
  rw [inFrame_eq, frame]
  exact (congrArg (fun x : Port => x.inBlk.frame) (modAud_same s n _)).trans (congrArg (· + 1) (gainFrame_inFrame _ vs))

/-- The divider's tracking changes nothing outside audio, and no port (R356). -/
theorem pdmTrack_frame (s : State) : ∃ a changed, s.pdmTrack = ({ s with aud := a }, changed) ∧ a.port = s.aud.port :=
  ⟨_, _, rfl, rfl⟩

section
variable (runs : s.pdmRuns = true) (running : s.aud.port[(4 : Fin 5)].running = true)
  (more : s.aud.port[(4 : Fin 5)].inBlk.frame + 1 < s.aud.port[(4 : Fin 5)].cfg.block)
include runs running more

/-- A frame that does not fill the block of the running group. -/
theorem exec_pdmFrame (xs : List (BitVec 24)) : ∃ (a : Aud) (vs : List Int) (flags : W16), a.port = s.aud.port ∧
    exec (.pdmFrame xs) s = .next (State.inFrame { s with aud := a } 4 vs flags 0 none) := by
  obtain ⟨a, changed, track, ports⟩ := pdmTrack_frame s
  change ∃ (a : Aud) (vs : List Int) (flags : W16), a.port = s.aud.port ∧ execPdmFrame xs s = _
  unfold execPdmFrame
  rw [if_neg (by rw [runs]; decide), track]
  dsimp only
  refine ⟨{ a with pdmAt := some s.now }, _, _, ports, congrArg Host.Outcome.next ((if_neg ?_).trans (if_pos ?_))⟩
  · rw [ports, running]
    decide
  · rw [inFrame_adds]
    dsimp only
    rw [ports]
    exact more

theorem pdmFrame_adds (xs : List (BitVec 24)) :
    ∃ t, exec (.pdmFrame xs) s = .next t ∧ t.aud.port[(4 : Fin 5)].inBlk.frame = s.aud.port[(4 : Fin 5)].inBlk.frame + 1 ∧
      (∀ n : Fin 5, n ≠ 4 → t.aud.port[n] = s.aud.port[n]) ∧ t = { s with aud := t.aud, glb := t.glb, pcie := t.pcie } := by
  obtain ⟨a, vs, flags, ports, executed⟩ := exec_pdmFrame runs running more xs
  have added := inFrame_adds { s with aud := a } 4 vs flags 0 none
  obtain ⟨_, _, frame⟩ := irqSync_frame (State.modAud { s with aud := a } 4
    (fun _ => frameAdded flags 0 none (a.port[(4 : Fin 5)].gainFrame false vs)))
  rw [inFrame_eq, frame] at executed added
  refine ⟨_, executed, added.trans ?_, fun n other => (modAud_other { s with aud := a } other _).trans ?_, rfl⟩
  · dsimp only
    rw [ports]
  · dsimp only
    rw [ports]

end

/-! ### VAUX -/

/-- The state with another VAUX supply. -/
def withVaux (s : State) (v : Vaux) : State := { s with aud := { s.aud with vaux := v } }

section
variable (on : s.on 1 = true)
include on

theorem exec_vauxRampDone (ramping : s.aud.vaux.ramping = true) :
    exec .vauxRampDone s = .next (withVaux s { s.aud.vaux with ramping := false, on := true, rampDone := some s.now }) :=
  congrArg Host.Outcome.next (if_pos (by rw [on, ramping]; rfl))

theorem exec_pdmClockStart {u : Nat} (stopped : s.aud.pdmClk = false) (ramped : s.aud.vaux.rampDone = some u)
    (due : u + 1000000 ≤ s.now) : exec .pdmClockStart s = .next { s with aud := { s.aud with pdmClk := true } } :=
  congrArg Host.Outcome.next (if_pos (by rw [on, stopped, ramped, Option.map_some, Option.getD_some, decide_eq_true due]; rfl))

theorem exec_vauxOvercurrent (enabled : s.aud.vaux.enabled = true) (sound : s.aud.vaux.fault = false) :
    exec .vauxOvercurrent s = .next
      ((withVaux s { s.aud.vaux with on := false, ramping := false, rampDone := none, fault := true }).irqSync.event
        0x0506 0 0xFF true []) :=
  congrArg Host.Outcome.next (if_pos (by rw [on, enabled, sound]; rfl))

/-- An over-current turns VAUX off, sets its fault and is reported (R357). -/
theorem vauxOvercurrent_faults (enabled : s.aud.vaux.enabled = true) (sound : s.aud.vaux.fault = false) :
    ∃ t, exec .vauxOvercurrent s = .next t ∧
      OnlyReports (withVaux s { s.aud.vaux with on := false, ramping := false, rampDone := none, fault := true }) t ∧
      s.reports t 0x0506 0 0xFF true [] :=
  ⟨_, exec_vauxOvercurrent on enabled sound, (irqSync_onlyReports _).trans (event_onlyReports _ _ _ _ _ _),
    ((aud_sameReporting s _).trans (irqSync_sameReporting _)).reports _ _ _ _ _⟩

/-- The fault cleared: VAUX ramps again while it is enabled (R357). -/
theorem exec_vauxFaultClear (fault : s.aud.vaux.fault = true) :
    exec .vauxFaultClear s = .next (withVaux s { s.aud.vaux with fault := false, ramping := s.aud.vaux.enabled }).irqSync :=
  congrArg Host.Outcome.next (if_pos (by rw [on, fault]; rfl))

end

end Sys2Proof.Proofs
end

section
/-! The obligation of audio clocks. -/

namespace Sys2Proof.Proofs
open Sys2Proof.Machine Sys2Proof.Laws

/-- Settles O31: a strobe by its APLL and the fold over its domain's ports, the rest by the state each command leaves. -/
theorem audioClocksTickAndLock : Obligations.AudioClocksTickAndLock := by
  refine ⟨fun s m on started => ⟨?strobe, ?edge, ?lost⟩, fun s xs runs running more => pdmFrame_adds runs running more xs,
    fun s on => ⟨?ramp, ?clock, ?overcurrent, ?clear⟩⟩
  case strobe =>
    intro free stays idle atOnce noStop
    obtain ⟨t, executed, apll, aplls, dram, clusters, due, others⟩ :=
      apllStrobe_starts ⟨on, started, free, stays, idle, atOnce⟩ noStop
    refine ⟨t, executed, apll, aplls, dram, clusters, fun n =>
      ⟨fun tdm domain u waits past => ?_, fun foreign => others n fun mem => ?_⟩⟩
    · rw [due n (mem_domainPorts.2 ⟨tdm, domain⟩), startedWhenDue_due waits past]
      exact ⟨rfl, rfl⟩
    · obtain ⟨tdm, domain⟩ := mem_domainPorts.1 mem
      exact foreign.elim (Nat.ne_of_lt tdm) (· domain)
  case edge =>
    intro follows none_left
    refine ⟨_, exec_wclkEdge on started follows none_left, rfl, rfl, fun k other => modApll_other s other _, ?_⟩
    rw [modApll_same]
    simp [edgeSeen, show s.aud.apll[m.val].unpaired = [] from none_left]
  case lost =>
    intro followed gone
    refine ⟨_, exec_apllRefLost on started followed gone, rfl, rfl, ?_⟩
    rw [modApll_same]
    exact ⟨rfl, rfl, rfl, rfl, fun k other => modApll_other s other _⟩
  case ramp => exact fun ramping => ⟨_, exec_vauxRampDone on ramping, rfl, rfl, rfl⟩
  case clock => exact fun u stopped ramped due => ⟨_, exec_pdmClockStart on stopped ramped due, rfl, rfl, rfl⟩
  case overcurrent =>
    intro enabled sound
    obtain ⟨t, executed, ⟨_, _, _, _, _, rfl⟩, reported⟩ := vauxOvercurrent_faults on enabled sound
    exact ⟨_, executed, rfl, rfl, rfl, rfl, rfl, reported⟩
  case clear =>
    intro fault
    have executed := exec_vauxFaultClear on fault
    obtain ⟨_, _, frame⟩ := irqSync_frame (withVaux s { s.aud.vaux with fault := false, ramping := s.aud.vaux.enabled })
    rw [frame] at executed
    exact ⟨_, executed, rfl, rfl, rfl⟩

end Sys2Proof.Proofs
end
